-- ==== Sys2Proof/Word.lean ====
section
/-! DEFINITION. The byte and word types of the manual (00_scope.md R3, R4). -/

namespace Sys2Proof

/-- One byte of a packet, a frame or a register (R3: bit 0 is the least significant). -/
abbrev Byte := BitVec 8

/-- One register word (R4). -/
abbrev Word := BitVec 32

end Sys2Proof
end

