-- ==== Sys2Proof/Syntax.lean ====
section
/-! DEFINITION. The commands of the MG16: one constructor of `Instr` for each row of the table of operations and
events, with the row's operands.

`dt` counts the edges of the running base clock that pass before the command is recognised: TMR edges while TMR runs,
AON edges otherwise (08_timers.md R174; assumption log 1). A row that falls due at a deadline the part itself holds has
no `dt`: time passes until the deadline. -/

namespace Sys2Proof

/-- The origin of a packet (03_sprue_commands.md R49, table of origin codes). -/
inductive Origin where
  | internal | hostNative | gen2 | gen1 | fieldNative | modbus | sdi | link
  deriving DecidableEq, Repr

/-- A port: all generations of the host port are one port, and so are all field protocols (R63). -/
inductive Port where
  | internal | host | field | link
  deriving DecidableEq, Repr

/-- A port that can hold an unlock challenge (13_digest_crucible.md R334). -/
inductive LockPort where
  | host | field
  deriving DecidableEq, Repr

/-- Bank A or Bank B (01_buoy_system.md R15). -/
inductive Bank where
  | a | b
  deriving DecidableEq, Repr

/-- The three over-current comparators of a bank (06_front_end_integrators.md R131). -/
inductive OcCmp where
  | oc1Dsg | oc1Chg | scDsg
  deriving DecidableEq, Repr

/-- A Forge core (R17). -/
inductive Core where
  | forgeA | forgeB
  deriving DecidableEq, Repr

/-- A Sprue request as its port delivered it, after steps 1 and 2 of R54: the origin, TAG, FLG bits 3:0
(ORDERED, URGENT, NOREPLY, FORCE), ARG and the payload (R46, R49). -/
structure Pkt where
  origin  : Origin
  tag     : Byte
  flg     : BitVec 4
  arg     : BitVec 16
  payload : List Byte
  deriving DecidableEq, Repr

/-- A debug port access (R411): a read of so many words in ascending order, or a write of words. -/
inductive DebugOp where
  | read (words : Nat)
  | write (values : List Word)
  deriving DecidableEq, Repr

/-- The wake sources of 05_supply_and_modes.md R119. -/
inductive WakeSrc where
  | timer | periodic | scheduler | bankCurrent | protection | tamper | host | frx | fsdi | tin0 | tin1
  /-- a carrier on the bus that lasts `len` ticks of the base (12 R287). -/
  | link (len : Nat)
  deriving DecidableEq, Repr

/-- Which of the CRCs that Pour checks agree (04 R88, R89, R102): those of the two copies of the restart state, of the
configuration image, and of the PROFILE records in use. -/
structure Crcs where
  first    : Bool
  second   : Bool
  image    : Bool
  profiles : Bool
  deriving DecidableEq, Repr

/-- What one ladder scan samples (R129): the sixteen cell readings and the Bank B reading in mV. -/
structure ScanIn where
  cells : List Nat
  vbb   : Nat
  deriving DecidableEq, Repr

/-- The sums of the modulator bits d of CQA and CQB since the model last added them to the tallies (R140), with the
saturated cycles among them (R141). -/
structure Bits where
  a    : Int
  b    : Int
  satA : Nat
  satB : Nat
  deriving DecidableEq, Repr

/-- SAR conversions that complete outside a whole-pass row: the next conversion of the running sequence pass with its raw
codes (the second for a twin pair), a queued Flare, or conversions of a calibration, one after the other (07 R155, R158,
R168). -/
inductive Conv where
  | sequence (code twin : Nat)
  | flare (code : Nat)
  | calibration (codes : List Nat)
  deriving DecidableEq, Repr

/-- The six tamper sources (14_tamper_quench.md R342). -/
inductive TampSrc where
  | lid | mesh | ingress | glitch | clock | temp
  deriving DecidableEq, Repr

/-- What the last `n` samples of a tamper source in a row have shown, at its own sampling edges (R342, R343): LID and VREG
in mV; bits of the mesh that did not match (of a release: that did); the conductance of the probe in 0.1 µS; a change of
VREG within 200 ns and VCORE, in mV, with the ns VCORE has stood there; the flags of the clocks; the die temperature in
0.1 K. -/
inductive Sensed where
  | lid (mv vreg n : Nat)
  | mesh (n : Nat)
  | ingress (g n : Nat)
  | glitch (step core ns : Nat)
  | clock
  | temp (k n : Nat)
  deriving DecidableEq, Repr

/-- The source of a reading. -/
def Sensed.src : Sensed → TampSrc
  | .lid _ _ _ => .lid
  | .mesh _ => .mesh
  | .ingress _ _ => .ingress
  | .glitch _ _ _ => .glitch
  | .clock => .clock
  | .temp _ _ => .temp

/-- A tamper event while Pour unwraps the key of a slot (04 R100): what the source has shown, and the slot. -/
structure UnwrapHit where
  seen : Sensed
  slot : Fin 16
  deriving DecidableEq, Repr

/-- The three readings of LID (R343). -/
inductive LidState where
  | closed | opened | indeterminate
  deriving DecidableEq, Repr

/-- How the two bursts of a received link frame arrived: one of them, both alike, or both with a good CRC and a
different content (12_criuc_link.md R280). -/
inductive Bursts where
  | b1Only | b2Only | both | differ
  deriving DecidableEq, Repr

/-- A received link frame less its TYPE: how it arrived, SRC, CTR, payload and the AUTH bytes it carries (R278). -/
structure RxFrame where
  bursts  : Bursts
  src     : BitVec 32
  ctr     : BitVec 32
  payload : List Byte
  auth    : List Byte
  deriving DecidableEq, Repr

/-- The in-band energy at LRXP/LRXN around a frame's instant in mV, one value for each symbol of 8 µs: first the 14 symbols
before the instant, then those from it on; past the list the medium is silent (R283, R284, R286). -/
structure Medium where
  mv : List Nat
  deriving DecidableEq, Repr

/-- What a transmitting part compares (R285), in mV: the mean of its own first two preamble symbols, and the received energy
of two consecutive symbols. -/
structure Echo where
  own    : Nat
  first  : Nat
  second : Nat
  deriving DecidableEq, Repr

/-- How a Host Notify ended (11_host_field_ports.md R263). -/
inductive NotifyEnd where
  | acked | nacked | lostArbitration
  deriving DecidableEq, Repr

/-- The alarm codes of the NMEA alarm sentence (R271). -/
inductive AlarmCode where
  | prta | prtb | ingress | tamper | shed | eod | bow
  deriving DecidableEq, Repr

/-- How one Ingot word write ended: the read-back matched at once, after the second write, or not at all (R360). -/
inductive WriteEnd where
  | good | goodAtSecond | failed
  deriving DecidableEq, Repr

/-- The measurement command of SDI-12: which value set, and whether the form asks for a CRC (R272). -/
structure SdiMeas where
  set : Fin 4
  crc : Bool
  deriving DecidableEq, Repr

/-- What a metadata command of SDI-12 asks about: a measurement or its concurrent form, verification, or high-volume ASCII
(R272). -/
inductive SdiMeta where
  | measurement (m : SdiMeas)
  | concurrent (m : SdiMeas)
  | verification
  | highVolume
  deriving DecidableEq, Repr

/-- The commands: the rows of the table of operations and events, in the table's order. -/
inductive Instr where
  -- supply, reset and start (04_staged_start.md, 05_supply_and_modes.md, 02_lode_clock.md)
  | powerOn
  | nrstAssert (dt : Nat)
  | bor (dt : Nat)
  | bowAssert (dt : Nat)
  | bowRelease (dt : Nat)
  | vddioChange (dt : Nat) (mv : Nat)
  | fllLock
  | emberComplete (hselPin : Bool)
  | lodeEpoch (dt : Nat)
  | lodeLockRetry
  | romDigestCheck (dt : Nat) (matches_ : Bool)
  | patchVerify (dt : Nat)
  | meltReached (dt : Nat)
  | pour (dt : Nat) (bits : Bits) (crc : Crcs) (hit : Option UnwrapHit)
  | warmStart (dt : Nat) (bits : Bits) (crc : Crcs) (hit : Option UnwrapHit)
  | crystalQualified (dt : Nat)
  | crystalQualifyTimeout
  | handoverNap (dt : Nat) (bits : Bits)
  | crystalFailure (dt : Nat) (w1 w2 lfrcCycles : Nat)
  | lodeUnlock (dt : Nat)
  | coreWatchdog (dt : Nat) (core : Core)
  | debugAccess (dt : Nat) (addr : Word) (op : DebugOp)
  | debugHalt (dt : Nat)
  | debugResume (dt : Nat)
  -- power modes (05)
  | autoDoze (dt : Nat)
  | idleSleep
  | lowPowerEntry (dt : Nat) (bits : Bits)
  | wakeSource (dt : Nat) (src : WakeSrc)
  | scheduledWake (dt : Nat)
  | periodicWake
  | wakeHoldExpiry
  | deferredAction (dt : Nat)
  -- protection and integrators (06)
  | ladderScan (r : ScanIn)
  | protectionTrip (dt : Nat) (bank : Bank) (cmp : OcCmp) (shuntUv : Int) (samples : Nat)
  | protectionHoldEnd (bank : Bank)
  | cqOutput (bank : Bank) (mean : Int) (bits : Bits)
  -- SAR (07)
  | referenceSettled (dt : Nat)
  | routinePass (dt : Nat) (codes : List (Nat × Nat))
  | burstPass (dt : Nat) (codes : List (Nat × Nat))
  | sarConversion (conv : Conv)
  -- timers (08)
  | compareFire (ch : Fin 8)
  | countdownZero (n : Fin 4)
  | tinEdge (dt : Nat) (pin : Fin 2) (rising : Bool)
  | rtcSubWrap
  | rtcSlewAdjust
  -- gauge, Almanac, policy (09, 10)
  | modelStep (dt : Nat) (bits : Bits)
  | coulombCommit
  | glintSlice
  | glintEvent (dt : Nat) (bank : Bank)
  | almanacEvaluation (dt : Nat)
  | dpasEnergyCapture (bits : Bits)
  | halfHourLearning (dt : Nat)
  | dailyCommit (dt : Nat)
  | dutyStale
  | seaStale
  -- locks (13)
  | lockTimeout
  | unlockTtlExpiry (port : LockPort)
  | unlockRoundClose (port : LockPort)
  | lockoutEnd (port : LockPort)
  -- tamper and log (14)
  | tamperEvent (dt : Nat) (seen : Sensed)
  | tamperRelease (dt : Nat) (seen : Sensed)
  | lidIndeterminateTimeout
  | q2EraseComplete (dt : Nat)
  | logEntryCommit (dt : Nat)
  -- Ingot store (15)
  | commitQueueStart (dt : Nat)
  | nvWordWrite (dt : Nat) (e : WriteEnd)
  -- Sprue (03)
  | operationComplete (dt : Nat) (slot : Fin 8)
  | interimAccepted (slot : Fin 8)
  | ping (dt : Nat) (p : Pkt)
  | ident (dt : Nat) (p : Pkt)
  | stage (dt : Nat) (p : Pkt)
  | reset (dt : Nat) (p : Pkt)
  | sleep (dt : Nat) (p : Pkt)
  | wake (dt : Nat) (p : Pkt)
  | caps (dt : Nat) (p : Pkt)
  | poll (dt : Nat) (p : Pkt)
  | cancel (dt : Nat) (p : Pkt)
  | get (dt : Nat) (p : Pkt)
  | set (dt : Nat) (p : Pkt)
  | setBulk (dt : Nat) (p : Pkt)
  | prtClear (dt : Nat) (p : Pkt)
  | tampAck (dt : Nat) (p : Pkt)
  | tampRearm (dt : Nat) (p : Pkt)
  | annFccA (dt : Nat) (p : Pkt)
  | commit (dt : Nat) (p : Pkt)
  | revert (dt : Nat) (p : Pkt)
  | peek (dt : Nat) (p : Pkt)
  | poke (dt : Nat) (p : Pkt)
  | accRead (dt : Nat) (p : Pkt)
  | trkRead (dt : Nat) (p : Pkt)
  | accClear (dt : Nat) (p : Pkt)
  | seqLoad (dt : Nat) (p : Pkt)
  | seqStart (dt : Nat) (p : Pkt)
  | flare (dt : Nat) (p : Pkt)
  | calZero (dt : Nat) (p : Pkt)
  | calSpan (dt : Nat) (p : Pkt)
  | calStore (dt : Nat) (p : Pkt)
  | gaugeRead (dt : Nat) (p : Pkt)
  | cellRead (dt : Nat) (p : Pkt)
  | modelLoad (dt : Nat) (p : Pkt)
  | glintRead (dt : Nat) (p : Pkt)
  | almRead (dt : Nat) (p : Pkt)
  | seaState (dt : Nat) (p : Pkt)
  | schedLoad (dt : Nat) (p : Pkt)
  | shedSet (dt : Nat) (p : Pkt)
  | annealRead (dt : Nat) (p : Pkt)
  | sbCapture (dt : Nat) (p : Pkt)
  | cmpSet (dt : Nat) (p : Pkt)
  | cdnSet (dt : Nat) (p : Pkt)
  | capqRead (dt : Nat) (p : Pkt)
  | rtcSet (dt : Nat) (p : Pkt)
  | dgOpen (dt : Nat) (p : Pkt)
  | dgFeed (dt : Nat) (p : Pkt)
  | dgDesc (dt : Nat) (p : Pkt)
  | dgFinish (dt : Nat) (p : Pkt)
  | dgExport (dt : Nat) (p : Pkt)
  | dgImport (dt : Nat) (p : Pkt)
  | authChal (dt : Nat) (p : Pkt)
  | unlockChal (dt : Nat) (p : Pkt)
  | unlock (dt : Nat) (p : Pkt)
  | seal (dt : Nat) (p : Pkt)
  | keyLoad (dt : Nat) (p : Pkt)
  | cstRead (dt : Nat) (p : Pkt)
  | cstConfig (dt : Nat) (p : Pkt)
  | linkStats (dt : Nat) (p : Pkt)
  | cstLeave (dt : Nat) (p : Pkt)
  | logRead (dt : Nat) (p : Pkt)
  | logMark (dt : Nat) (p : Pkt)
  -- host port (11, 04 R81)
  | stageResponderRead (dt : Nat) (n : Nat)
  | writePacket (dt : Nat) (bytes : List Byte)
  | readReply (dt : Nat) (n : Nat)
  | readStatus (dt : Nat) (n : Nat)
  | smbusTimeout (dt : Nat)
  | legacyWrite (dt : Nat) (bytes : List Byte)
  | legacyRead (dt : Nat) (n : Nat)
  | legCtrlClearRej (dt : Nat)
  | legCtrlSleep (dt : Nat)
  | remainingCapacityAlarmRead (dt : Nat) (pec : Bool)
  | remainingCapacityAlarmWrite (dt : Nat) (bytes : List Byte)
  | remainingTimeAlarmRead (dt : Nat) (pec : Bool)
  | remainingTimeAlarmWrite (dt : Nat) (bytes : List Byte)
  | batteryMode (dt : Nat) (pec : Bool)
  | temperature (dt : Nat) (pec : Bool)
  | voltage (dt : Nat) (pec : Bool)
  | current (dt : Nat) (pec : Bool)
  | averageCurrent (dt : Nat) (pec : Bool)
  | maxError (dt : Nat) (pec : Bool)
  | relativeStateOfCharge (dt : Nat) (pec : Bool)
  | absoluteStateOfCharge (dt : Nat) (pec : Bool)
  | remainingCapacity (dt : Nat) (pec : Bool)
  | fullChargeCapacity (dt : Nat) (pec : Bool)
  | runTimeToEmpty (dt : Nat) (pec : Bool)
  | averageTimeToEmpty (dt : Nat) (pec : Bool)
  | averageTimeToFull (dt : Nat) (pec : Bool)
  | batteryStatus (dt : Nat) (pec : Bool)
  | cycleCount (dt : Nat) (pec : Bool)
  | designCapacity (dt : Nat) (pec : Bool)
  | designVoltage (dt : Nat) (pec : Bool)
  | specificationInfo (dt : Nat) (pec : Bool)
  | manufactureDate (dt : Nat) (pec : Bool)
  | serialNumber (dt : Nat) (pec : Bool)
  | manufacturerName (dt : Nat) (pec : Bool)
  | deviceName (dt : Nat) (pec : Bool)
  | deviceChemistry (dt : Nat) (pec : Bool)
  | sprueBlockSubmit (dt : Nat) (bytes : List Byte) (pec : Option Byte)
  | sprueBlockAppend (dt : Nat) (bytes : List Byte) (pec : Option Byte)
  | sprueBlockRead (dt : Nat) (completed : Bool)
  | sprueStatusRead (dt : Nat) (pec : Bool)
  | assemblyTimeout
  | alertResponse (dt : Nat)
  | hostNotify (dt : Nat) (e : NotifyEnd)
  -- field port (11)
  | nativeFrame (dt : Nat) (chars : List Byte) (charError : Bool)
  | fieldReplyTransmit (dt : Nat)
  | fieldPortReconfigure
  | readHoldingRegisters (dt : Nat) (unit : Byte) (start count : BitVec 16)
  | readInputRegisters (dt : Nat) (unit : Byte) (start count : BitVec 16)
  | writeSingleRegister (dt : Nat) (unit : Byte) (reg value : BitVec 16)
  | writeMultipleRegisters (dt : Nat) (unit : Byte) (start count : BitVec 16) (values : List (BitVec 16))
  | diagnostics (dt : Nat) (unit : Byte) (sub : BitVec 16) (data : List Byte)
  | encapsulatedInterfaceTransport (dt : Nat) (unit : Byte) (mei code object : Byte)
  | nmeaBatterySentence (dt : Nat)
  | nmeaAlarmSentence (dt : Nat) (code : AlarmCode)
  | sdiAcknowledgeActive (dt : Nat) (addr : Byte)
  | sdiAddressQuery (dt : Nat)
  | sdiSendIdentification (dt : Nat) (addr : Byte)
  | sdiChangeAddress (dt : Nat) (addr new : Byte)
  | sdiStartMeasurement (dt : Nat) (addr : Byte) (m : SdiMeas)
  | sdiStartConcurrent (dt : Nat) (addr : Byte) (m : SdiMeas)
  | sdiSendData (dt : Nat) (addr : Byte)
  | sdiVerify (dt : Nat) (addr : Byte)
  | sdiHighVolumeAscii (dt : Nat) (addr : Byte)
  | sdiMetadata (dt : Nat) (addr : Byte) (m : SdiMeta) (param : Option Nat)
  | sdiExtendedSprue (dt : Nat) (addr : Byte) (hex : List Byte)
  | sdiExtendedNext (dt : Nat) (addr : Byte)
  -- Criuc link (12)
  | joinListenEnd (dt : Nat) (m : Medium)
  | beaconTransmit (dt : Nat) (m : Medium)
  | reportTransmit (dt : Nat) (m : Medium)
  | aggregateForm (dt : Nat)
  | csmaFrameStart (dt : Nat) (m : Medium)
  | txCollision (dt : Nat) (e : Echo)
  | beaconMissed
  | poleTakeover (dt : Nat) (m : Medium)
  | carrierWake (dt : Nat) (len : Nat)
  | beacon (dt : Nat) (f : RxFrame)
  | report (dt : Nat) (f : RxFrame)
  | join (dt : Nat) (f : RxFrame)
  | notice (dt : Nat) (f : RxFrame)
  | leave (dt : Nat) (f : RxFrame)
  | cfg (dt : Nat) (f : RxFrame)
  | alarm (dt : Nat) (f : RxFrame)
  | sprueReq (dt : Nat) (f : RxFrame)
  -- register writes with a row of their own (16_register_parameter_map.md)
  | sbCtrlCapture (dt : Nat)
  | tallyCapture (dt : Nat) (bits : Bits)
  | accSnap (dt : Nat) (n : Fin 32) (value : BitVec 2)
  | trkSnap (dt : Nat) (n : Fin 32) (value : BitVec 2)
  | pop (dt : Nat) (q : Fin 4)
  | go (dt : Nat) (ctx : Fin 6)
  | cmpRegisterWrite (dt : Nat) (ch : Fin 8) (mode : Bool) (value : Word)
  | cdnRegisterWrite (dt : Nat) (n : Fin 4) (reg : Fin 3) (value : Word)
  | cqCfgWrite (dt : Nat) (bank : Bank) (value : Word)
  | patchPtrWrite (dt : Nat) (value : Word)
  | patchDataWrite (dt : Nat) (value : Word)
  | registerWrite (dt : Nat) (addr value : Word)
  -- the last rows of the table
  | nrstRelease (dt : Nat)
  | supplyLadderStep (dt : Nat) (step : Fin 8)
  | criucBurstDetected (dt : Nat) (left : Nat) (crcGood : Bool)
  | malformedFrame (dt : Nat) (type : Byte) (f : RxFrame)
  | modbusBadFrame (dt : Nat) (badCrc : Bool)
  | sdiUnsupportedCommand (dt : Nat)
  deriving DecidableEq, Repr

end Sys2Proof
end

