-- ==== Sys2Proof/Config.lean ====
section
/-! DEFINITION. What each part fixes for itself and what the manual leaves open, as constants with no body: a claim
about the model holds whatever they are (assumption log 2 and 3). -/

namespace Sys2Proof.Config

/-- The variant of the part: false MG16-QA, true MG16-QX (00_scope.md R2, 16 R390). -/
opaque variantQX : Bool

/-- The bytes of DEVICE_UID, fused (16_register_parameter_map.md R390). -/
opaque deviceUid : Nat → Byte

/-- The bytes of the device wrap key, AES-256 (13_digest_crucible.md R327). -/
opaque wrapKey : Nat → Byte

/-- The bytes of the transport key, AES-256, unique to the part (R327). -/
opaque transportKey : Nat → Byte

/-- The bytes of the patch key (R327). -/
opaque patchKey : Nat → Byte

/-- The bytes of the ROM, 0x0000_0000 to 0x0003_FFFF (13 R321); the manual does not give them. -/
opaque romByte : Nat → Byte

/-- What the entropy source delivers at draw `n`: byte `i` (13 R334). -/
opaque entropy : Nat → Nat → Byte

/-- Whether the entropy source fails its health test at draw `n` (13 R334). -/
opaque entropyFails : Nat → Bool

/-- A free natural number: the value the manual leaves open at draw `n`. -/
opaque freeNat : Nat → Nat

/-- A free rational number at draw `n`. -/
opaque freeRat : Nat → Rat

/-- Which neighbour a reported quantity that is not whole is rounded to: the manual states the unit of each reported
quantity and not its rounding (09_gauge_model.md R219). -/
opaque roundUp : Rat → Bool

/-- The part's exponential function (09 R204). -/
opaque exp : Rat → Rat

/-- The part's natural logarithm (09 R203, R218). -/
opaque ln : Rat → Rat

/-- The part's square root (09 R204, R208). -/
opaque sqrt : Rat → Rat

/-- The part's power of two with a fractional exponent (09 R208). -/
opaque pow2 : Rat → Rat

/-- The part's seventh root (10_almanac_policy.md R232). -/
opaque root7 : Rat → Rat

/-- Bit `n` of the pseudo-random sequence that the part sends on MSHO (14_tamper_quench.md R342). -/
opaque meshBit : Nat → Bool

/-- The characters that stand for a patch version in the Modbus device identification (11_host_field_ports.md R266). -/
opaque patchText : Nat → List (BitVec 8)

/-- The characters by which an SDI-12 response spells a value in its unit (11 R272). -/
opaque sdiText : Rat → List (BitVec 8)

/-- Name and unit of value `i` of measurement set `n` in an SDI-12 metadata response (11 R272). -/
opaque sdiMeta : Nat → Nat → List (BitVec 8)

/-- The bytes of the profile that the model works with while the slot it names is empty (09 R201, R202): the manual does
not give them. -/
opaque emptyProfile : Nat → Byte

/-- A quotient whose divisor is 0: the mean of an accumulator without samples, a time constant of 0 (09 R204). -/
opaque divByZero : Rat → Rat

/-- The process noise of the hysteresis state, which the profile does not carry (09 R201, R204). -/
opaque hystNoise : Rat

end Sys2Proof.Config
end

