-- ==== Sys2Proof/Machine/Bytes.lean ====
section
/-! DEFINITION. Bytes, byte orders, checks and texts: the encodings every port and record uses. -/

namespace Sys2Proof.Machine

/-! ## Byte order (00_scope.md R4) -/

/-- `n` bytes of a natural number, least significant first (R4). -/
def leBytes : Nat → Nat → List Byte
  | 0, _ => []
  | n + 1, v => BitVec.ofNat 8 v :: leBytes n (v / 256)

/-- `n` bytes of a signed number in two's complement, least significant first (R4, R6). -/
def leBytesS (n : Nat) (v : Int) : List Byte := leBytes n (v % (2 ^ (8 * n) : Nat)).toNat

/-- `n` bytes, most significant first (Modbus registers and FIPS 180-4, R4). -/
def beBytes (n v : Nat) : List Byte := (leBytes n v).reverse

/-- The number that bytes give, least significant first (R4). -/
def leNat : List Byte → Nat
  | [] => 0
  | b :: r => b.toNat + 256 * leNat r

/-- The number that bytes give, most significant first. -/
def beNat (l : List Byte) : Nat := l.foldl (fun a b => a * 256 + b.toNat) 0

/-- A number of `n` bits read as two's complement (R6). -/
def signed (n v : Nat) : Int := if v % 2 ^ n < 2 ^ (n - 1) then (v % 2 ^ n : Nat) else (v % 2 ^ n : Nat) - (2 ^ n : Nat)

/-- Bytes `i` to `i + n - 1` of a list as a number, least significant first; missing bytes are 0. -/
def leAt (l : List Byte) (i n : Nat) : Nat := leNat ((l.drop i).take n)

/-- Byte `i` of a list, 0 beyond its end. -/
def byteAt (l : List Byte) (i : Nat) : Nat := (l.getD i 0).toNat

/-- A list of bytes filled to `n` bytes with 0. -/
def padTo (n : Nat) (l : List Byte) : List Byte := l ++ List.replicate (n - l.length) 0

/-- Bits `hi` to `lo` of a number (R3). -/
def bitsOf (v hi lo : Nat) : Nat := v / 2 ^ lo % 2 ^ (hi + 1 - lo)

/-- A bit as a number. -/
def bit (b : Bool) : Nat := if b then 1 else 0

/-- A counter that saturates at `m`. -/
def satTo (m v : Nat) : Nat := min v m

/-! ## Checks -/

/-- One bit of a CRC that shifts left, with the given width and polynomial. -/
def crcShiftL (w poly crc : Nat) : Nat :=
  if crc / 2 ^ (w - 1) % 2 = 1 then Nat.xor (crc * 2 % 2 ^ w) poly else crc * 2 % 2 ^ w

/-- One bit of a reflected CRC. -/
def crcShiftR (poly crc : Nat) : Nat := if crc % 2 = 1 then Nat.xor (crc / 2) poly else crc / 2

/-- `n` applications of a function. -/
def iter {α : Type} (f : α → α) : Nat → α → α
  | 0, a => a
  | n + 1, a => iter f n (f a)

/-- The CRC-16 of Sprue packets (03_sprue_commands.md R48). -/
def crc16 (l : List Byte) : Nat :=
  l.foldl (fun c b => iter (crcShiftL 16 0x1021) 8 (Nat.xor c (b.toNat * 256))) 0xFFFF

/-- The CRC-32 of link frames and journal records (12_criuc_link.md R278, IEEE 802.3). -/
def crc32 (l : List Byte) : Nat :=
  Nat.xor (l.foldl (fun c b => iter (crcShiftR 0xEDB88320) 8 (Nat.xor c b.toNat)) 0xFFFFFFFF) 0xFFFFFFFF

/-- The SMBus PEC, CRC-8 (11_host_field_ports.md R255). -/
def pec8 (l : List Byte) : Nat := l.foldl (fun c b => iter (crcShiftL 8 0x07) 8 (Nat.xor c b.toNat)) 0

/-- The CRC-16 of Modbus RTU frames (11 R266). -/
def crcModbus (l : List Byte) : Nat :=
  l.foldl (fun c b => iter (crcShiftR 0xA001) 8 (Nat.xor c b.toNat)) 0xFFFF

/-! ## Texts -/

/-- A character as a byte. -/
def chr (c : Char) : Byte := BitVec.ofNat 8 c.toNat

/-- A text as bytes. -/
def ascii (t : String) : List Byte := t.toList.map chr

/-- One uppercase hexadecimal digit. -/
def hexDigit (v : Nat) : Byte := if v % 16 < 10 then BitVec.ofNat 8 (48 + v % 16) else BitVec.ofNat 8 (55 + v % 16)

/-- `n` uppercase hexadecimal digits, most significant first. -/
def hexText : Nat → Nat → List Byte
  | 0, _ => []
  | n + 1, v => hexText n (v / 16) ++ [hexDigit v]

/-- `n` decimal digits, most significant first. -/
def decFixed : Nat → Nat → List Byte
  | 0, _ => []
  | n + 1, v => decFixed n (v / 10) ++ [BitVec.ofNat 8 (48 + v % 10)]

/-- How many decimal digits a number needs, at most `n`. -/
def decLen : Nat → Nat → Nat
  | 0, _ => 1
  | n + 1, v => if v < 10 then 1 else 1 + decLen n (v / 10)

/-- A number in decimal without leading zeros (numbers below 10^20). -/
def decText (v : Nat) : List Byte := decFixed (decLen 20 v) v

/-- A signed fixed-point number of `d` decimals, given in units of 10^-d. -/
def fixText (d : Nat) (v : Int) : List Byte :=
  (if v < 0 then [chr '-'] else []) ++ decText (v.natAbs / 10 ^ d)
    ++ (if d = 0 then [] else chr '.' :: decFixed d (v.natAbs % 10 ^ d))

/-- The value of an uppercase hexadecimal digit. -/
def hexVal (b : Byte) : Option Nat :=
  if 48 ≤ b.toNat ∧ b.toNat ≤ 57 then some (b.toNat - 48)
  else if 65 ≤ b.toNat ∧ b.toNat ≤ 70 then some (b.toNat - 55)
  else none

/-- The bytes that uppercase hexadecimal digits spell; none for an odd count or another character (11 R273). -/
def unhex : List Byte → Option (List Byte)
  | [] => some []
  | [_] => none
  | a :: b :: r =>
    match hexVal a, hexVal b, unhex r with
    | some x, some y, some t => some (BitVec.ofNat 8 (16 * x + y) :: t)
    | _, _, _ => none

/-! ## Sparse data in canonical form -/

/-- Read a sparse list: the value listed at `k`, else `d`. -/
def sparseGet {α : Type} (d : α) : List (Nat × α) → Nat → α
  | [], _ => d
  | (i, v) :: r, k => if i = k then v else sparseGet d r k

/-- Write a sparse list, keys rising and no listed value equal to what an unlisted key reads as. -/
def sparseSet {α : Type} [DecidableEq α] (d : α) (k : Nat) (x : α) : List (Nat × α) → List (Nat × α)
  | [] => if x = d then [] else [(k, x)]
  | (i, v) :: r =>
    if k < i then (if x = d then (i, v) :: r else (k, x) :: (i, v) :: r)
    else if k = i then (if x = d then r else (k, x) :: r)
    else (i, v) :: sparseSet d k x r

/-- Keys rise strictly from above `lo`, and no entry holds the default. -/
def sparseWfFrom {α : Type} [DecidableEq α] (d : α) : Option Nat → List (Nat × α) → Bool
  | _, [] => true
  | lo, (i, v) :: r =>
    (match lo with | none => true | some l => decide (l < i)) && decide (v ≠ d) && sparseWfFrom d (some i) r

/-- The canonical form of a sparse list. -/
def sparseWf {α : Type} [DecidableEq α] (d : α) (l : List (Nat × α)) : Bool := sparseWfFrom d none l

end Sys2Proof.Machine
end

