-- ==== Sys2Proof/Machine/State.lean ====
section
/-! DEFINITION. The state of the MG16: every register, queue, buffer, counter, mode and pin the manual gives the part,
as plain data, the faults and refusals, and the state after reset.

Each field's docstring gives its width, the chapter and rule that name it, and its reset value. "DC n" marks a value
the manual does not state (DESIGN CHOICE, assumption log entry n); "model" marks a field of the model's own. Time and
stamps are counted in TMR ticks of the sidereal base (08_timers.md R173). -/

namespace Sys2Proof.Machine

/-- Why the machine stops. No command of this part stops it: a bad request is refused with a status, a failed start
stays in Ember, a supply failure is a reset (03 R61, 04 R82). The type is empty, so no step faults. -/
inductive Fault
  deriving DecidableEq, Repr

/-- Why a command has no meaning. `notModelled` is raised by an arm of `exec` for a row without a meaning (safe: the
run ends there). -/
inductive Refusal where
  | notModelled (mnemonic : String)
  deriving DecidableEq, Repr

/-! ## Small enumerations -/

/-- The power modes of R112; Burst is Run with the digest datapath or the transmitter on (R113), so it is computed. -/
inductive Mode where
  | run | watch | watchL | doze
  deriving DecidableEq, Repr

/-- The Lode PLL: off, started and not yet locked, or released at an epoch (R38). -/
inductive Lode where
  | off | locking | on
  deriving DecidableEq, Repr

/-- The four start-up stages (R77). -/
inductive Stage where
  | ember | melt | pour | cast
  deriving DecidableEq, Repr

/-- The lock level of the device (R332). -/
inductive Lock where
  | sealed | unsealed | opened
  deriving DecidableEq, Repr

/-- A hold of Run by WAKE (R59). -/
inductive Hold where
  | none
  | until (t : Nat)
  | untilSleep
  deriving DecidableEq, Repr

/-- The response codes of R345. -/
inductive Resp where
  | log | alarm | q1 | q2
  deriving DecidableEq, Repr

/-- The part's place on the link (R291, R292, R304, R312): not listening, listening before its first join, waiting to
be listed, a listed member, the Pole, or a Dim Star. -/
inductive Role where
  | silent | listening | joining | member | pole | dim
  deriving DecidableEq, Repr

/-- The state of a key slot (R328). -/
inductive SlotState where
  | empty | loaded | stored
  deriving DecidableEq, Repr

/-- The state of a digest context (CTX_STAT.STATE). -/
inductive CtxState where
  | closed | opened | finished
  deriving DecidableEq, Repr

/-- The opcodes of R58. -/
inductive Op where
  | ping | ident | stage | reset | sleep | wake | caps | poll | cancel
  | get | set | setBulk | commit | revert | peek | poke
  | accRead | trkRead | accClear | seqLoad | seqStart | flare | calZero | calSpan | calStore
  | gaugeRead | cellRead | modelLoad | glintRead
  | almRead | seaState | schedLoad | shedSet | annealRead
  | sbCapture | cmpSet | cdnSet | capqRead | rtcSet
  | dgOpen | dgFeed | dgDesc | dgFinish | dgExport | dgImport
  | authChal | unlockChal | unlock | seal | keyLoad
  | cstRead | cstConfig | linkStats | cstLeave | logRead | logMark
  deriving DecidableEq, Repr

/-! ## Clocks and supply (02_lode_clock.md, 05_supply_and_modes.md) -/

/-- The clock block: CLK_STAT (R382) and the state of Lode. -/
structure Clk where
  /-- Lode PLL; 02 R38; off until Ember completes. -/
  lode      : Lode
  /-- base value; 02 R38, 04 R101: when Lode was last started; 0. -/
  lodeStart : Nat
  /-- 1 bit; 02 R41, 04 R78 CLK_STAT.ON_LFRC; 1. -/
  onLfrc    : Bool
  /-- 1 bit; 02 R41 CLK_STAT.XTAL_FAIL (w1c); 0. -/
  xtalFail  : Bool
  /-- 1 bit; 02 R44 CLK_STAT.LODE_UNLOCK (w1c); 0. -/
  lodeUnlock : Bool
  /-- 1 bit; 16 R382 CLK_STAT.FLL_LOCK; 0. -/
  fllLock   : Bool
  /-- 1 bit; 04 R78, 16 R382 CLK_STAT.XTAL_QUAL; 0. -/
  xtalQual  : Bool
  /-- 1 bit; 04 R78: the handover nap of this start is still to be made; 1. -/
  napDue    : Bool
  /-- 2 bits; 04 R101, 16 R382 CLK_STAT.LOCK_TRY, failed attempts in this start; 0. -/
  lockTry   : Nat
  /-- 16 bits; 16 R382 CLK_STAT.EPOCHS (rc); 0. -/
  epochs    : Nat
  /-- 1 bit; 16 R385 DBG HALT; 0. -/
  halt      : Bool
  /-- 1 bit; 16 R385 DBG_STAT.ATTACHED, debug clock seen within 1 ms; 0. -/
  attachedAt : Option Nat
  /-- 2 bits; 01 R411, 16 R385 DBG_STAT.LAST; 0. -/
  dbgLast   : Nat
  /-- 32 bits each; 01 R411: the words returned by the last debug access (model: the port's output); empty. -/
  dbgOut    : List Word
  deriving DecidableEq, Repr

/-- What a decided low-power entry leads to, and why it was decided (R412). -/
structure Entry where
  target : Mode
  nap    : Bool
  deriving DecidableEq, Repr

/-- An action that waits for its reply to leave the port (R59, R357). -/
inductive DefAct where
  | resetCore | resetFull | sleep (m : Mode) | seal | rearmReset
  deriving DecidableEq, Repr

/-- A deferred action with the operation whose reply it waits for, and the origin of its packet (R59). -/
structure Deferred where
  act    : DefAct
  opId   : Nat
  origin : Origin
  ready  : Nat
  /-- base value; 03 R59: when the last byte of the reply leaves, once the port transmits it; none before. -/
  sent   : Option Nat
  /-- its reply has left the port, or none is sent. -/
  left   : Bool
  deriving DecidableEq, Repr

/-- Supply, modes and residency: PWR_STAT (R108), R112 to R122. -/
structure Pwr where
  /-- 1 bit; 05 R106: VREG above the BOR level; 1 (reset is the state at tick 0 of a cold start). -/
  powered   : Bool
  /-- 1 bit; 04 R76: NRST low; 0. -/
  nrstLow   : Bool
  /-- 1 bit; 05 R106, R108 PWR_STAT.BOW; 0. -/
  bow       : Bool
  /-- 1 bit; 05 R108 PWR_STAT.BOW_SEEN (w1c, ret); 0. -/
  bowSeen   : Bool
  /-- 16 bits; 05 R108 PWR_STAT.BOW_COUNT (ret, saturating); 0. -/
  bowCount  : Nat
  /-- base value; 05 R108, 14 R354: when BOW last asserted; 0. -/
  bowAt     : Nat
  /-- base value; 05 R106: when the brown-out comparator was last released, or first clocked; 0. -/
  bowOffAt  : Nat
  /-- 3 bits; 05 R108 PWR_STAT.VMIN_STEP (rc, ret); 0. -/
  vminStep  : Nat
  /-- 1 bit; 05 R105 PWR_STAT.VDDIO_OK; DC 4: 1. -/
  vddioOk   : Bool
  /-- 1 bit; 04 R80: VDDIO at or above its minimum of 1.8 V (R103); DC 4: 1. -/
  vddioMin  : Bool
  /-- mode; 05 R112; run (counted as Watch until Lode first starts, R122). -/
  mode      : Mode
  /-- 48 bits; 05 R122 residency counter Watch (ret); 0. -/
  resWatch  : Nat
  /-- 48 bits; 05 R122 residency counter Watch-L (ret); 0. -/
  resWatchL : Nat
  /-- 48 bits; 05 R122 residency counter Doze (ret); 0. -/
  resDoze   : Nat
  /-- 48 bits; 05 R122 residency counter Run (ret); 0. -/
  resRun    : Nat
  /-- 48 bits; 05 R122 residency counter Burst (ret); 0. -/
  resBurst  : Nat
  /-- hold; 03 R59: the WAKE hold; none. -/
  hold      : Hold
  /-- entry; 05 R412: a decided entry not yet completed; none. -/
  entry     : Option Entry
  /-- 1 bit; 05 R117, R119: the bank current stands at or above WAKE_MA; 0. -/
  loadA     : Bool
  /-- 1 bit; 05 R117, R119: as loadA, for Bank B; 0. -/
  loadB     : Bool
  /-- base value; 05 R117: when a packet last arrived or a current last stood at WAKE_MA; 0. -/
  idleSince : Nat
  /-- base value; 05 R119, 09 R205: when the part last entered a low-power mode; 0. -/
  sleptAt   : Nat
  /-- list; 03 R59: actions that wait for their reply to leave; empty. -/
  deferred  : List Deferred
  deriving DecidableEq, Repr

/-! ## Timers (08_timers.md) -/

/-- A compare channel (R177 to R179, R384). -/
structure Cmp where
  /-- 32 bits; 08 R177, 16 R384 VAL; 0. -/
  val    : Nat
  /-- 8 bits; 08 R179, 16 R384 MODE; 0. -/
  mode   : BitVec 8
  /-- 1 bit; 16 R384 FIRED (w1c); 0. -/
  fired  : Bool
  /-- base value; 00 R9: the edge at which FIRED was last set (a clear at that same edge does not undo it); 0. -/
  firedAt : Nat
  /-- 64 bits; 08 R177: target (TGT_HI reads its high word); 0. -/
  target : Nat
  /-- 8 bits; 08 R178 LATE; 0. -/
  late   : Nat
  /-- 8 bits; 08 R178 MISSED (rc, saturating); 0. -/
  missed : Nat
  /-- 16 bits; 08 R178 MATCH_CNT (rc, saturating); 0. -/
  match_ : Nat
  deriving DecidableEq, Repr

/-- A countdown counter (R180 to R184, R384). -/
structure Cdn where
  /-- 32 bits; 08 R180 v; 0. -/
  v      : Nat
  /-- 32 bits; 08 R180 BUF; 0. -/
  buf    : Nat
  /-- 16 bits; 08 R180 N as written; 1. -/
  n      : Nat
  /-- 8 bits; 08 R180 F as written; 0. -/
  f      : Nat
  /-- 8 bits; 08 R183 source byte as written (RESTART reads 0); 0. -/
  src    : BitVec 8
  /-- 16 bits; 08 R183 N in force; 1. -/
  actN   : Nat
  /-- 8 bits; 08 R183 F in force; 0. -/
  actF   : Nat
  /-- 8 bits; 08 R183 source and TOUT action in force; 0. -/
  actSrc : BitVec 8
  /-- 1 bit; 08 R183: written fields wait for the next zero tick; 0. -/
  dirty  : Bool
  /-- 24 bits; 08 R181 P; 0. -/
  p      : Nat
  /-- 1 bit; 08 R182 ZERO (w1c); 0. -/
  zero   : Bool
  /-- base value; 00 R9: the edge at which ZERO was last set; 0. -/
  zeroedAt : Nat
  /-- 16 bits; 08 R182 ZCOUNT (rc, saturating); 0. -/
  zcount : Nat
  deriving DecidableEq, Repr

/-- A capture queue (R185, R186, R384): entries are (stamp, coarse). -/
structure Capq where
  /-- at most 4 × 8 bytes; 08 R185: entries held, oldest first; empty. -/
  held    : List (Nat × Bool)
  /-- 16 bits; 08 R186 LOST (saturating), less the arrivals in `late`; 0. -/
  lost    : Nat
  /-- at most 4 × 8 bytes; 08 R186: arrivals at the full queue with the latest stamp, which a read at that very edge would
  still let in; they count in LOST; empty. -/
  late    : List (Nat × Bool)
  /-- at most 4 × 8 bytes; 16 R384: the entries removed by the last POP; empty. -/
  popped  : List (Nat × Bool)
  /-- 16 bits; 16 R384 POP_STAT LOST; 0. -/
  popLost : Nat
  deriving DecidableEq, Repr

/-- A TOUT pin (R188). -/
structure Tout where
  /-- 1 bit; 08 R188 TOUT_STATE; 0. -/
  level : Bool
  /-- 1 bit; 08 R188: an action has changed the pin since it was enabled; 0. -/
  acted : Bool
  /-- 1 bit; 08 R188: the level the pin still carries where an action at the present TMR edge changes it at the next one;
  none. -/
  shown : Option Bool
  deriving DecidableEq, Repr

/-- The timer block (TMR, AON). -/
structure Tmr where
  /-- 64 bits; 08 R173 the sidereal base; 0. -/
  base     : Nat
  /-- 1 bit; 08 R176 COARSE flag of the internal origin class (w1c, ret); 0. -/
  coarseInt   : Bool
  /-- 1 bit; 08 R176 COARSE flag host; 0. -/
  coarseHost  : Bool
  /-- 1 bit; 08 R176 COARSE flag field; 0. -/
  coarseField : Bool
  /-- 1 bit; 08 R176 COARSE flag link; 0. -/
  coarseLink  : Bool
  /-- 1 bit; 08 R176 COARSE flag debug; 0. -/
  coarseDbg   : Bool
  /-- base value; 00 R9: the last coarse step; 0. -/
  coarseAt    : Nat
  /-- base value; 08 R175: the AON edge at which a capture asked for through the debug port latches shadow set 0; none. -/
  sbCap       : Option Nat
  /-- base values; 08 R187: the AON edge at which the edge detector last saw an edge on TIN0 and on TIN1; none. -/
  tin0At      : Option Nat
  tin1At      : Option Nat
  /-- AON ticks, at most 65 536; 01 R19: the count of the Forge A watchdog since the core was released, as far as it can have
  run without service; 0. -/
  wdA         : Nat
  /-- as wdA, for Forge B; 0. -/
  wdB         : Nat
  /-- 64 bits; 08 R175 shadow set 0 (SB_LO, SB_HI); 0. -/
  shadow0  : Nat
  /-- 64 bits; 08 R175 shadow set 1 (of SB_CAPTURE); 0. -/
  shadow1  : Nat
  /-- 64 bits; 08 R176 EPOCH_BASE (ret); 0. -/
  epoch    : Nat
  /-- 8 channels; 08 R177; all disabled. -/
  cmp      : Vector Cmp 8
  /-- 4 counters; 08 R180; all stopped. -/
  cdn      : Vector Cdn 4
  /-- 4 queues; 08 R185; all empty. -/
  capq     : Vector Capq 4
  /-- pin TOUT0; 08 R188. -/
  tout0    : Tout
  /-- pin TOUT1; 08 R188. -/
  tout1    : Tout
  /-- 32 bits; 08 R189 RTC_SEC; 0. -/
  rtcSec   : Nat
  /-- 15 bits; 08 R189 RTC_SUB; 0. -/
  rtcSub   : Nat
  /-- 1 bit; 08 R189 RTC_VALID; 0. -/
  rtcValid : Bool
  /-- 16 bits signed, ppm; 08 R190 RTC_SLEW; 0. -/
  rtcSlew  : Int
  /-- base value; 08 R190: the last slew adjustment; 0. -/
  slewAt   : Nat
  /-- 32 bits; 16 R384 RTC_ANCHOR seconds; 0. -/
  anchorSec  : Nat
  /-- 64 bits; 16 R384 RTC_ANCHOR base; 0. -/
  anchorBase : Nat
  deriving DecidableEq, Repr

/-! ## Analogue front end and integrators (06_front_end_integrators.md) -/

/-- Over-current state of one bank (R131, R132). -/
structure Oc where
  /-- filter count; 06 R131 OC1 discharge; 0. -/
  cntDsg  : Nat
  /-- filter count; 06 R131 OC1 charge; 0. -/
  cntChg  : Nat
  /-- filter count; 06 R131 SC discharge; 0. -/
  cntSc   : Nat
  /-- base values; 06 R131: up to where the samples of OC1 discharge, OC1 charge and SC have been counted; 0. -/
  atDsg   : Nat
  atChg   : Nat
  atSc    : Nat
  /-- base value; 06 R131: the CBM edge at which the output of the running hold asserts; 0. -/
  assertAt : Nat
  /-- SLOW edge (base value); 06 R132: end of the running hold; none. -/
  holdEnd : Option Nat
  /-- 1 bit; 06 R132, 11 R259: the running hold was started by the OC1 charge comparator; 0. -/
  holdChg : Bool
  /-- stamps; 06 R132, R133: trips not yet older than 60 s; empty. -/
  trips   : List Nat
  /-- 1 bit; 06 R132 LATCHA or LATCHB (ret); 0. -/
  latch   : Bool
  /-- 8 bits; 06 R136 TRIPS_A or TRIPS_B (rc, ret, saturating); 0. -/
  count   : Nat
  deriving DecidableEq, Repr

/-- The protection comparators, balancing switches and front end. -/
structure Afe where
  /-- 16 bits; 06 R130, R136 CELL_FAULT.OV_MAP (ret), cell 1 first; all set. -/
  ov       : Vector Bool 16
  /-- 16 bits; 06 R130 CELL_FAULT.UV_MAP (ret); all clear. -/
  uv       : Vector Bool 16
  /-- 1 bit; 06 R130 PROT_STAT.UVB (ret); 0. -/
  uvb      : Bool
  /-- consecutive scans per cell above CELL_OV; 06 R130; 0. -/
  ovCnt    : Vector Nat 16
  /-- consecutive scans per cell below CELL_UV; 06 R130; 0. -/
  uvCnt    : Vector Nat 16
  /-- consecutive scans below the Bank B threshold; 06 R130; 0. -/
  uvbCnt   : Nat
  /-- 1 bit; 04 R79, 06 R128: PRTA_N and PRTB_N are held low from tick 0 of a cold start until its first ladder scan is
  complete; 1. -/
  startLow : Bool
  /-- 1 bit; 06 R130: the first scan under the configured limits has judged the UV checks; 0. -/
  uvJudged : Bool
  /-- 1 bit; 06 R136 PROT_STAT.EMBER_LIM (ret); 1. -/
  emberLim : Bool
  /-- over-current state of Bank A; 06 R131. -/
  ocA      : Oc
  /-- over-current state of Bank B; 06 R131. -/
  ocB      : Oc
  /-- base value; 06 R129: start of the next ladder scan; AON tick 16. -/
  scanAt   : Nat
  /-- 6 bits each; 06 R138, 16 R383 BAL_DUTY per cell; 0. -/
  duty     : Vector Nat 16
  /-- 1 bit; 06 R139: die temperature above BAL_TDIE; 0. -/
  hot      : Bool
  /-- 1 bit; 06 R127: TBIAS on; 0. -/
  tbias    : Bool
  /-- SAR cycles since tick 0; 06 R127: when TBIAS last switched on; 0. -/
  tbiasAt  : Nat
  deriving DecidableEq, Repr

/-- One charge integrator (R140 to R146). -/
structure Cq where
  /-- 21 bits; 06 R145 CQ_CFG.WIN (ret); 2048. -/
  win      : Nat
  /-- 2 bits; 06 R145 CQ_CFG.ORDER, sinc order minus 1 (ret); 1. -/
  order    : Nat
  /-- window in force in the filter; 06 R143, R86; 2048. -/
  actWin   : Nat
  /-- sinc order in force, 1 to 4; 06 R143, R86; 2. -/
  actOrder : Nat
  /-- outputs still to come before the filter has settled; 06 R143; 2. -/
  settle   : Nat
  /-- CBM edges since tick 0; 06 R143: the last output boundary, or the start of the modulator; 0. -/
  edge     : Nat
  /-- 1 bit; 06 R145 CQ_STAT.OUT_VALID; 0. -/
  outValid : Bool
  /-- 1 bit; 06 R145 CQ_STAT.NEW (w1c); 0. -/
  new      : Bool
  /-- 1 bit; 06 R141, R145 CQ_STAT.SAT (w1c, ret); 0. -/
  sat      : Bool
  /-- 16 bits; 06 R141, R145 SATCNT (rc, ret, saturating); 0. -/
  satCnt   : Nat
  /-- saturated cycles since the last model step; 09 R198; 0. -/
  satStep  : Nat
  /-- 1 bit; 06 R140, R145 MOD_RUN (ret); 0. -/
  modRun   : Bool
  /-- 24 bits signed; 06 R144 CQ_OUT; 0. -/
  out      : Int
  /-- 24 bits signed; 06 R144: the last valid output, source of BA_MA or BB_MA; 0. -/
  lastOut  : Int
  /-- 48 bits signed; 04 R83 the Ember tally; 0. -/
  tally    : Int
  /-- base value; 06 R140: up to where modulator bits have been added to the tally (model); 0. -/
  tallyAt  : Nat
  /-- 48 bits signed; 06 R145, R146 captured tally TALLY_x_LO and TALLY_x_HI, from the capture edge `capAt` on; 0. -/
  cap      : Int
  /-- 48 bits signed; 06 R146: what the words hold until that edge; 0. -/
  capOld   : Int
  deriving DecidableEq, Repr

/-! ## SAR (07_sar_and_accumulators.md) -/

/-- A sequence entry (R150). -/
structure SeqEntry where
  chan    : Nat
  span    : Nat
  sample  : Nat
  mode    : BitVec 8
  acc     : Nat
  trk     : Nat
  repeat_ : Nat
  deriving DecidableEq, Repr

/-- An accumulator, or its snapshot (R162). -/
structure Acc where
  /-- 32 bits; 07 R162 COUNT; 0. -/
  count : Nat
  /-- 48 bits signed; 07 R162 SUM; 0. -/
  sum   : Int
  /-- 64 bits; 07 R162 SSQ; 0. -/
  ssq   : Nat
  /-- 64 bits signed; 07 R162 XPR; 0. -/
  xpr   : Int
  /-- 16 bits; 07 R160 OVR (saturating); 0. -/
  ovr   : Nat
  deriving DecidableEq, Repr

/-- A tracker, or its snapshot (R166). -/
structure Trk where
  /-- 32 bits signed; 07 R166 zenith; −524 288 (empty). -/
  zenith  : Int
  /-- 64 bits; 07 R166 zenith stamp; 0. -/
  zStamp  : Nat
  /-- 32 bits signed; 07 R166 nadir; +524 287 (empty). -/
  nadir   : Int
  /-- 64 bits; 07 R166 nadir stamp; 0. -/
  nStamp  : Nat
  /-- 2 bits; 07 R160 clamp: high, low; 0. -/
  clampHi : Bool
  clampLo : Bool
  deriving DecidableEq, Repr

/-- Where a running pass stands: entry index, channel offset, conversions of that channel done (R155). -/
structure SeqPos where
  entry : Nat
  chan  : Nat
  done  : Nat
  deriving DecidableEq, Repr

/-- A queued Flare (R158). -/
structure Flare where
  chan   : Nat
  gain   : Nat
  sample : Nat
  acc    : Nat
  trk    : Nat
  opId   : Nat
  /-- SAR cycles since tick 0; 07 R158, 02 R32: the edge at which the request has crossed into the SAR domain. -/
  at_    : Nat
  deriving DecidableEq, Repr

/-- A SAR converter: the completion edge of its last conversion in SAR cycles since tick 0, with that conversion's channel
and gain (07 R147, R156). -/
structure Adc where
  free : Nat
  chan : Nat
  gain : Nat
  deriving DecidableEq, Repr

/-- A calibration pair (R167). -/
structure Cal where
  /-- 32 bits signed, 2^-16 code; 07 R167 OFFSET; 0. -/
  offset : Int
  /-- 32 bits; 07 R167 GAIN; nominal. -/
  gain   : Nat
  deriving DecidableEq, Repr

/-- The SAR block with accumulators and trackers. -/
structure Sar where
  /-- 1 bit; 07 R148 SAR_STAT.REF_RDY; 0. -/
  refRdy    : Bool
  /-- 2 bits; 07 R148: the reference selected for the converters; 0. -/
  refSel    : Nat
  /-- at most 16 entries; 07 R153: Routine entries of the firmware; empty until Pour. -/
  routFw    : List SeqEntry
  /-- at most 16 entries; 07 R153: Routine entries of the ports; empty. -/
  routPort  : List SeqEntry
  /-- at most 16 entries; 07 R153: port entries that run from the next pass; none. -/
  routNext  : Option (List SeqEntry)
  /-- 1 bit; 07 R153: the port entries go at the end of the current pass; 0. -/
  routDrop  : Bool
  /-- at most 16 entries; 07 R154: the Burst table; empty. -/
  burst     : List SeqEntry
  /-- position; 07 R157 SAR_STAT.ROUT_RUN: the Routine pass in progress; none. -/
  routPos   : Option SeqPos
  /-- position; 07 R154, R157 SAR_STAT.BURST_RUN: the Burst pass in progress or suspended; none. -/
  burstPos  : Option SeqPos
  /-- 1 bit; 07 R154: Burst passes run; 0. -/
  burstOn   : Bool
  /-- passes left; 07 R154: 0 with burstOn is continuous; 0. -/
  burstLeft : Nat
  /-- 1 bit; 07 R154: stop at the end of the current pass; 0. -/
  burstStop : Bool
  /-- 1 bit; 07 R154 SAR_STAT.GLINT_HOLD; 0. -/
  glintHold : Bool
  /-- 1 bit; 07 R170 SAR_STAT.CAL_RUN; 0. -/
  calRun    : Bool
  /-- base value; 07 R157: when the next Routine pass falls due; none before Pour. -/
  routDue   : Option Nat
  /-- at most 4; 07 R158: the Flare queue; empty. -/
  flares    : List Flare
  /-- 32 bits; 07 INTERLEAVE_GAP (rc, saturating by 16 R385); 0. -/
  gap       : Nat
  /-- 32 bits; 07 PAIR_DROP (rc); 0. -/
  pairDrop  : Nat
  /-- 32 bits; 07 FULL_DROP (rc); 0. -/
  fullDrop  : Nat
  /-- 32 bits; 07 ROUT_LATE (rc); 0. -/
  routLate  : Nat
  /-- 32 accumulators; 07 R162; 0. -/
  acc       : Vector Acc 32
  /-- 32 snapshots; 07 R165; 0. -/
  accSnap   : Vector Acc 32
  /-- 32 × 64 bits; 07 R165 SNAP_STAMP; 0. -/
  snapStamp : Vector Nat 32
  /-- 32 trackers; 07 R166; empty. -/
  trk       : Vector Trk 32
  /-- 32 snapshots; 07 R166; empty. -/
  trkSnap   : Vector Trk 32
  /-- 43 pairs; 07 R167, 16 R392: the calibration table in force; OFFSET 0, GAIN nominal. -/
  cal       : Vector Cal 43
  /-- 2 bits per shunt channel; 07 R161: auto-range gain code of Bank A and Bank B; 0. -/
  autoA     : Nat
  autoB     : Nat
  /-- consecutive low conversions per shunt channel; 07 R161; 0. -/
  autoCntA  : Nat
  autoCntB  : Nat
  /-- the two converters; 07 R155, R156: idle since tick 0, on no channel. -/
  castor    : Adc
  pollux    : Adc
  /-- 5 bits; 07 R156: the cell on which the tap mux stands, 0 for none; 0. -/
  tap       : Nat
  /-- SAR cycles since tick 0; 07 R156: the completion edge of the last conversion of a cell tap; 0. -/
  tapFree   : Nat
  /-- SAR cycles since tick 0; 07 R157: when the pass in progress started or went on; 0. -/
  passAt    : Nat
  /-- SAR cycles since tick 0; 07 R155: Castor's start in the interleave pair in progress; 0. -/
  pairAt    : Nat
  /-- 16 bits; 07 R168, R171: the pair under calibration; 0. -/
  calPair   : Nat
  /-- 16 bits each; 07 R168: CAL_N and CAL_SAMPLE of the calibration; 0. -/
  calN      : Nat
  calTs     : Nat
  /-- SAR cycles since tick 0; 07 R168: when the calibration started; 0. -/
  calAt     : Nat
  /-- 16 bits, 29 bits signed; 07 R168, R171: the codes or outputs taken so far, and their sum; 0. -/
  calCnt    : Nat
  calSum    : Int
  deriving DecidableEq, Repr

/-! ## Gauge model and Glint (09_gauge_model.md) -/

/-- Charge account of one bank (R195). -/
structure Acct where
  /-- 64 bits signed counts; 09 R195 raw charge Q; 0. -/
  q     : Int
  /-- 2^-16 count; 09 R195 A_off; 0. -/
  aOff  : Rat
  /-- µAh; 09 R195 A_self; 0. -/
  aSelf : Rat
  /-- counts; 04 R84, R94: the tally mark M at which Q was true; 0. -/
  mark  : Int
  /-- A; 09 R195 I_step; 0. -/
  iStep : Rat
  /-- A; 09 R219: I_step of the past steps, newest first, at most 600; empty. -/
  past  : List Rat
  /-- mAh; 09 R219: discharged charge since CYCLES last rose; 0. -/
  cycAcc : Rat
  /-- 16 bits; 09 R219 CYCLES; 0. -/
  cycles : Nat
  /-- 1 bit; 09 R198 SAT; 0. -/
  sat   : Bool
  /-- 1 bit; 09 R199 STALE_I; 0. -/
  stale : Bool
  /-- 1 bit; 09 R206, R209 OFFPWR; 0. -/
  offpwr : Bool
  /-- K; 09 R203 pack temperature; DC 5: 0. -/
  temp  : Rat
  /-- K and base value; 09 R218 TINT and the end of its validity; none. -/
  tint  : Option (Rat × Nat)
  /-- mV; 09 R219 bank voltage of the step; 0. -/
  volt  : Rat
  deriving DecidableEq, Repr

/-- The model state of one Bank A cell (R204). -/
structure Cell where
  /-- SOC, 0 to 1; 09 R204; DC 5: 0. -/
  soc : Rat
  /-- mV; 09 R204 vF; 0. -/
  vF  : Rat
  /-- mV; 09 R204 vL; 0. -/
  vL  : Rat
  /-- mV; 09 R204 h; 0. -/
  h   : Rat
  /-- 4 × 4, row by row; 09 R204 covariance P; DC 5: SOC variance 1, others 0. -/
  cov : List Rat
  /-- mV; 09 R204 mean V of the cell's accumulator over the last step; 0. -/
  v   : Rat
  /-- mAh; 10 R238 FCC_n; none until learned or seeded (BA_DESIGN_MAH). -/
  fcc : Option Rat
  /-- µAh; 09 R197, R221 balancing charge since Pour; 0. -/
  bal : Rat
  /-- mAh; 10 R238 balancing charge since the open anchor; 0. -/
  balAnchor : Rat
  deriving DecidableEq, Repr

/-- A published gauge record (R219), in the units of its layout. -/
structure GaugeRec where
  flags   : Nat
  snap    : Nat
  stamp   : Nat
  volt    : Nat
  curr    : Int
  avgCurr : Int
  temp    : Nat
  tint    : Nat
  rsoc    : Nat
  asoc    : Nat
  sigma   : Nat
  rm      : Int
  fcc     : Int
  design  : Int
  c       : Int
  q       : Int
  cycles  : Nat
  cellMin : Int
  cellMax : Int
  pasv    : Nat
  age     : Nat
  deriving DecidableEq, Repr

/-- A published cell record (R221). -/
structure CellRec where
  index : Nat
  flags : Nat
  v     : Int
  ocv   : Nat
  soc   : Nat
  sigma : Nat
  vF    : Int
  vL    : Int
  h     : Int
  rs    : Nat
  rf    : Nat
  rl    : Nat
  temp  : Nat
  bal   : Int
  stamp : Nat
  deriving DecidableEq, Repr

/-- A whole model snapshot (01 R18): everything replies and Forge B read. -/
structure Snap where
  num   : Nat
  stamp : Nat
  recA  : GaugeRec
  recB  : GaugeRec
  cells : List CellRec
  /-- the unrounded quantities the Almanac draws on: RM_A, FCC_A, RM_B in mAh. -/
  rmA   : Rat
  fccA  : Rat
  rmB   : Rat
  /-- the latest valid integrator outputs in mA: BA_MA and BB_MA (R144, R391). -/
  maA   : Rat
  maB   : Rat
  /-- the 49 bytes of the Glint records of Bank A and Bank B (09 R220). -/
  glintA : List Byte
  glintB : List Byte
  deriving DecidableEq, Repr

/-- The gauge model. -/
structure Gauge where
  /-- charge account of Bank A; 09 R195. -/
  a        : Acct
  /-- charge account of Bank B; 09 R195. -/
  b        : Acct
  /-- 16 cells; 09 R204. -/
  cells    : Vector Cell 16
  /-- base value; 09 R195: stamp S of the last capture; 0. -/
  lastS    : Nat
  /-- counts; 09 R195: tallies at the last capture; 0. -/
  lastTA   : Int
  lastTB   : Int
  /-- AON ticks; 09 R196: the residency counters at the last step (Watch, Watch-L, Doze, Run, Burst); 0. -/
  lastRes  : List Nat
  /-- base value; 09 R205: since when |I_step| has stayed below REST_MA; none. -/
  restSince : Option Nat
  /-- 1 bit; 09 R205 REST; 0. -/
  rest     : Bool
  /-- 1 bit; 09 R205: the next step is the first after a wake from Watch or Watch-L; 0. -/
  firstAfterWake : Bool
  /-- counts; 09 R205: tally of Bank A at the last entry to Watch or Watch-L; 0. -/
  sleepT   : Int
  /-- 1 bit; 09 R207 TIME_DEG; 0. -/
  timeDeg  : Bool
  /-- 1 bit; 09 R207 CHG_DEG; 0. -/
  chgDeg   : Bool
  /-- mAh; 09 R208 SD; 0. -/
  sd       : Rat
  /-- mAh squared; 09 R198, R207: enlargement of σ_B in quadrature; 0. -/
  sigBx    : Rat
  /-- mAh; 09 R209: enlargement of σ_B after an interval without power; 0. -/
  sigBAdd  : Rat
  /-- s of RTC_SEC and K; 09 R209: RTC and temperature of the Bank B record a cold start merged, where its RTC was valid;
  none. -/
  offRec   : Option (Nat × Rat)
  /-- 1 bit; 09 R210 EOD; 0. -/
  eod      : Bool
  /-- 2 bits; 09 R211 passivation level; 0. -/
  pasv     : Nat
  /-- AGE, gF, gL; 09 R217 of Bank A; 1. -/
  ageA     : Rat
  gF       : Rat
  gL       : Rat
  /-- AGE; 09 R217 of Bank B; 1. -/
  ageB     : Rat
  /-- K; 09 R217: pack temperatures of Bank A and Bank B when the present rest began; 0. -/
  restTemp : Rat
  restTempB : Rat
  /-- snapshot; 01 R18: the latest published; number 0, all zero before the first Pour. -/
  snap     : Snap
  /-- 1 bit; 09 R193: a step has run since Pour; 0. -/
  stepped  : Bool
  /-- base value; 09 R200: the last coulomb record; 0. -/
  coulAt   : Nat
  /-- count; 15 R362: coulomb transactions since start (every tenth carries CELL records); 0. -/
  coulN    : Nat
  /-- 1024 bytes each; 09 R201: the profile in force in each slot; empty. -/
  profiles : Vector (Option (List Byte)) 4
  /-- (slot, chunk, 128 bytes); 09 R201: MODEL_LOAD chunks received; empty. -/
  staged   : List (Nat × Nat × List Byte)
  /-- 1 bit; 09 R202: the Bank A profile in use was replaced and takes effect at the next step; 0. -/
  profNew  : Bool
  deriving DecidableEq, Repr

/-- Pooled sums of a Glint window (R214). -/
structure Pool where
  n    : Nat
  sI   : Int
  sV   : Int
  ssqI : Nat
  xpr  : Int
  deriving DecidableEq, Repr

/-- One Glint slice of one bank (R212). -/
structure Slice where
  start : Nat
  n     : Nat
  sI    : Int
  sV    : Int
  ssqI  : Nat
  xpr   : Int
  zen   : Int
  zenAt : Nat
  nad   : Int
  nadAt : Nat
  /-- PAIR_DROP as it stood at the end of the slice (R215). -/
  drop  : Nat
  deriving DecidableEq, Repr

/-- An open Glint event (R213 to R215): the number of slice 0, the stamps of the extremes, ΔI in 0.2 µV of shunt voltage,
the pooled windows, the windows found bad (0 the pre-window, 1 to 3 the segments), the lowest slice mean per cell in mV,
and when its after-window closed. -/
structure GlintOpen where
  slice0  : Nat
  stamp   : Nat
  fall    : Bool
  dI      : Int
  pre     : Pool
  seg1    : Pool
  seg10   : Pool
  seg100  : Pool
  /-- windows with a spread or a rise of PAIR_DROP: 0 the pre-window, 1 to 3 the segments (R215). -/
  bad     : List Nat
  /-- segments that the end of the event cut off (R215). -/
  cut     : List Nat
  drops   : Nat
  ended   : Option Nat
  vMin    : Option Rat
  rested  : Bool
  deriving DecidableEq, Repr

/-- A closed Glint event of a bank (R220). -/
structure GlintRec where
  valid  : Bool
  fall   : Bool
  hole   : Bool
  excl   : Bool
  segs   : Nat
  stamp  : Nat
  dI     : Int
  z1     : Rat
  z10    : Rat
  z100   : Rat
  vMin   : Rat
  dip    : Rat
  level  : Nat
  /-- the event follows a rest of at least REST_MIN over which the pack moved less than 0.5 K (R217). -/
  rested : Bool
  deriving DecidableEq, Repr

/-- Glint (R212 to R220). -/
structure Glint where
  /-- 1 bit; 09 R212, R224: Glint runs (GLINT_EN in force); 0 until Pour. -/
  on      : Bool
  /-- base value; 09 R212: the next slice boundary; none. -/
  sliceAt : Option Nat
  /-- 256 slices; 09 R212 ring of Bank A, newest first; empty. -/
  ringA   : List Slice
  /-- 256 slices; 09 R212 ring of Bank B; empty. -/
  ringB   : List Slice
  /-- event; 09 R213: open event of Bank A; none. -/
  openA   : Option GlintOpen
  /-- event; 09 R213: open event of Bank B; none. -/
  openB   : Option GlintOpen
  /-- events; 09 R193 order 6: closed since the previous step, Bank A and Bank B, oldest first; empty. -/
  closedA : List GlintRec
  closedB : List GlintRec
  /-- record; 09 R220: latest event of Bank A that a step has taken; none. -/
  recA    : Option GlintRec
  /-- record; 09 R220: latest event of Bank B that a step has taken; none. -/
  recB    : Option GlintRec
  /-- 32 bits; 09 R220: events since Pour, Bank A; 0. -/
  eventsA : Nat
  eventsB : Nat
  /-- 32 bits; 09 R215, R220: skipped since Pour, Bank A; 0. -/
  skipA   : Nat
  skipB   : Nat
  /-- base value; 09 R213: later stamp of the last step detected in Bank A and in Bank B; none. -/
  stepA   : Option Nat
  stepB   : Option Nat
  deriving DecidableEq, Repr

/-! ## Almanac, Anneal and policy (10_almanac_policy.md) -/

/-- A declared duty (R229). -/
structure Duty where
  start    : Nat
  sea      : Bool
  period   : Nat
  duration : Nat
  current  : Nat
  deriving DecidableEq, Repr

/-- An Almanac record (R235). -/
structure AlmRec where
  flags   : Nat
  snap    : Nat
  stamp   : Nat
  tte     : Nat
  ttr     : Nat
  autonomy : Nat
  dark    : Nat
  sdf     : Nat
  sea     : Nat
  computed : Nat
  inForce : Nat
  floor   : Nat
  load0   : Int
  harv0   : Int
  trend   : Nat
  usable  : Int
  hold    : Nat
  age     : Nat
  deriving DecidableEq, Repr

/-- The Almanac (R225 to R236). -/
structure Almanac where
  /-- 48 bins, 0.1 mA; 10 R226 load bins, none = unlearned. -/
  load      : Vector (Option Rat) 48
  /-- 48 bins, 0.1 mA; 10 R226 harvest bins, none = unlearned. -/
  harv      : Vector (Option Rat) 48
  /-- mAh, at most 14 days, newest first, none for a day without a learned bin; 10 R232 daily harvest sums; empty. -/
  daily     : List (Option Rat)
  /-- mAh; 10 R232: harvest observed since 00:00 UTC, none while no bin was learned; none. -/
  today     : Option Rat
  /-- UTC day on which each bin was last learned; 10 R227; none. -/
  learnedOn : Vector (Option Nat) 48
  /-- mAh; 10 R227: C of both banks when the running bin began; none while the bin cannot qualify. -/
  binStart  : Option Rat
  /-- half-hours of RTC_SEC; 10 R227: the running half-hour; 0. -/
  binIdx    : Nat
  /-- base value; 10 R227: when the running bin began; 0. -/
  binAt     : Nat
  /-- days of RTC_SEC; 10 R236: the running UTC day; 0. -/
  dayIdx    : Nat
  /-- (ID, bytes); 10 R249: seeds of bin parameters that wait for the next boundary; empty. -/
  seeds     : List (Nat × List Byte)
  /-- 1 bit; 10 R228: every step of the running bin has been clean; 0. -/
  binOk     : Bool
  /-- 1 bit; 10 R227: some step of the running bin had I_step above REST_MA; 0. -/
  binChg    : Bool
  /-- base value since which the class in force stands, and Σ SEA_SCALE/256 × ticks over the bin; 10 R227; 0. -/
  seaSince  : Nat
  seaSum    : Rat
  /-- at most 32 entries; 10 R229 declared duty table; empty. -/
  duties    : List Duty
  /-- base value; 10 R230: the last SCHED_LOAD that ended OK; 0. -/
  dutyAt    : Nat
  /-- 1 bit; 10 R230 DUTY_STALE; 0. -/
  dutyStale : Bool
  /-- 3 bits; 10 R231 sea-state class in force; SEA_DEFAULT (2). -/
  sea       : Nat
  /-- base value; 10 R231: the last SEA_STATE that ended OK; 0. -/
  seaAt     : Nat
  /-- 1 bit; 10 R231 SEA_STALE; 0. -/
  seaStale  : Bool
  /-- record; 10 R235: the latest evaluation; none before Cast. -/
  rcd       : Option AlmRec
  /-- days; 10 R234, R246: TTR of the latest evaluation, none where it reads all ones; none. -/
  ttrDays   : Option Rat
  deriving DecidableEq, Repr

/-- The open learning event of Bank A (R237). -/
structure Anchor where
  socs  : List Rat
  c     : Rat
  life  : Nat
  prof  : Nat
  clean : Bool
  tempOk : Bool
  deriving DecidableEq, Repr

/-- Anneal (R237 to R240). -/
structure Anneal where
  /-- anchor; 10 R237 open event of Bank A; none. -/
  anchor   : Option Anchor
  /-- 16 bits; 10 R240 accepted events, Bank A; 0. -/
  accA     : Nat
  /-- 16 bits; 10 R240 rejected events, Bank A; 0. -/
  rejA     : Nat
  /-- 8 bits; 10 R240 last reject reason; 0. -/
  reason   : Nat
  /-- 1 bit; 10 R240 last event accepted; 0. -/
  lastOk   : Bool
  /-- 64 bits; 10 R240 stamp of the last accepted event; 0. -/
  stampA   : Nat
  /-- mAh; 10 R240 last FCC_meas of the lowest cell; 0. -/
  measA    : Rat
  /-- SOC fraction; 10 R240 last depth; 0. -/
  depth    : Rat
  /-- mAh at the five profile temperatures; 10 R239 C_avail; none = BB_DESIGN_MAH. -/
  cAvail   : Option (List Rat)
  /-- 16 bits; 10 R240 updates of Bank B (EOD onsets); 0. -/
  accB     : Nat
  /-- 64 bits; 10 R240 stamp of the last EOD onset; 0. -/
  stampB   : Nat
  /-- mAh; 10 R240 U at the last EOD; 0. -/
  measB    : Rat
  deriving DecidableEq, Repr

/-- The policy engine (R241 to R248). -/
structure Policy where
  /-- 2 bits; 10 R242 computed shed level (committed on change); 0. -/
  computed : Nat
  /-- 2 bits; 10 R241 shed floor; 0. -/
  floor    : Nat
  /-- 2 bits; 10 R241, R244 level the SHED pins carry from `pinsAt` on; 0 (deasserted). -/
  pins     : Nat
  /-- 2 bits; 10 R241: the level they carry until then; 0. -/
  pinsOld  : Nat
  /-- base value; 10 R241: the SLOW edge at which the pins change; 0. -/
  pinsAt   : Nat
  /-- base value; 10 R242: when the computed level last changed; 0. -/
  holdAt   : Nat
  /-- 1 bit; 10 R245: balancing runs; 0. -/
  balOn    : Bool
  /-- 1 bit; 10 R247 DPAS pin; 0. -/
  dpas     : Bool
  /-- mWh; 10 R247 energy of the running pulse; 0. -/
  dpasE    : Rat
  /-- base value; 10 R247: the last 100 ms capture; 0. -/
  dpasCap  : Nat
  /-- counts; 10 R247: tally of Bank B at the last capture; 0. -/
  dpasT    : Int
  /-- base value; 10 R246: when the last pulse ended; none. -/
  dpasEnd  : Option Nat
  /-- RTC_SEC; 10 R246: when the last pulse ended, where the RTC was valid, of an earlier life too; none. -/
  dpasRtc  : Option Nat
  /-- UTC day; 10 R246: the day of the two counts below; 0. -/
  dpasOn   : Nat
  /-- pulses since 00:00 UTC; 10 R246; 0. -/
  dpasN    : Nat
  /-- mWh since 00:00 UTC; 10 R246; 0. -/
  dpasDay  : Rat
  deriving DecidableEq, Repr

/-! ## Sprue (03_sprue_commands.md) -/

/-- An operation in flight in a slot (R63, R66). -/
structure Oper where
  id      : Nat
  op      : Op
  origin  : Origin
  tag     : Byte
  flg     : BitVec 4
  arg     : BitVec 16
  payload : List Byte
  stamp   : Nat
  /-- the sender of a request over the link (12 R302), else 0. -/
  peer    : Nat
  /-- the use-counter value drawn for an AUTH_CHAL (13 R338), else 0. -/
  ctr     : Nat
  /-- not yet started: held back by ORDERED (R50), by a debug halt (R40), or for want of an internal slot (R65). -/
  waiting : Bool
  /-- its reply, which may carry an interim status, has been given to its port (R57). -/
  replied : Bool
  /-- the interim status already answered, ACCEPTED or DEFER (R57, R109). -/
  interim : Option Byte
  /-- past its point of no return (R69). -/
  ponr    : Bool
  /-- its final status and reply payload, once determined. -/
  final   : Option (Byte × List Byte)
  deriving DecidableEq, Repr

/-- A reply ready for its port (R47). -/
structure Reply where
  opId    : Nat
  opc     : Byte
  tag     : Byte
  status  : Byte
  arg     : BitVec 16
  payload : List Byte
  ready   : Nat
  deriving DecidableEq, Repr

/-- A reply without a slot, of a packet refused before it takes one or of an operation that no longer holds one, with the
origin and the sender it goes back to (R56, R63, R64). -/
structure Early where
  origin : Origin
  peer   : Nat
  /-- NOREPLY keeps it back (R52). -/
  quiet  : Bool
  reply  : Reply
  deriving DecidableEq, Repr

/-- A stored final result (R66). -/
structure Result where
  opc     : Byte
  tag     : Byte
  status  : Byte
  payload : List Byte
  urgent  : Bool
  deriving DecidableEq, Repr

/-- The targets of the contention window (R73). -/
inductive Target where
  | param (id : Nat) | word (addr : Nat) | sea | shed | duty | rtc | power
  deriving DecidableEq, Repr

/-- An open contention window (R71). -/
structure Window where
  target : Target
  port   : Port
  stamp  : Nat
  deriving DecidableEq, Repr

/-- The command sequencer. -/
structure Sprue where
  /-- 8 slots; 03 R63, 16 R381 SLOT_BUSY; all free. Slots 0 to 3 are reserved for internal, host, field, link. -/
  slots   : Vector (Option Oper) 8
  /-- operations; 03 R65: internal packets that wait for a slot; empty. -/
  held    : List Oper
  /-- replies; 03 R57, R63, R64: replies without a slot that wait for earlier replies of their port; empty. -/
  early   : List Early
  /-- at most 4; 03 R66 result table of the host; empty. -/
  resHost  : List Result
  /-- at most 4; 03 R66 result table of the field port; empty. -/
  resField : List Result
  /-- at most 4; 03 R66 result table of the link; empty. -/
  resLink  : List Result
  /-- windows; 03 R71; none. -/
  windows : List Window
  /-- OPC and ARG; 03 R73: the last SLEEP or WAKE that executed; DC 6: zero. -/
  lastPwr : Nat × Nat
  /-- model: the number of the next operation; 0. -/
  nextId  : Nat
  /-- model: the answer to the request that a generation 1 or 2 transfer or a Modbus frame last raised; none. -/
  answer  : Option Reply
  deriving DecidableEq, Repr

/-! ## Parameters (16_register_parameter_map.md) -/

/-- An entry of the pending table (15 R365): the value, and the COMMIT that marked it. -/
structure Pend where
  id    : Nat
  value : List Byte
  mark  : Option Nat
  deriving DecidableEq, Repr

/-- Parameter values: an ID not listed has its default (00 R12). -/
structure Par where
  /-- (ID, bytes), IDs rising; 15 R362 committed values; empty. -/
  committed : List (Nat × List Byte)
  /-- at most 64 IDs and 256 body words; 15 R365 pending table; empty. -/
  pending   : List Pend
  /-- (ID, bytes), IDs rising; 16 R388 values in force; empty. -/
  force     : List (Nat × List Byte)
  deriving DecidableEq, Repr

/-! ## Host and field ports (11_host_field_ports.md) -/

/-- The host port. -/
structure HostPort where
  /-- at most 4 replies; 11 R252 reply queue of the native path (SPI or generation 3); empty. -/
  queue    : List Reply
  /-- bytes; 11 R261: bytes of the oldest reply already read on generation 3; 0. -/
  readOff  : Nat
  /-- at most 260 bytes; 11 R260 assembly buffer; empty. -/
  asm      : List Byte
  /-- base value; 11 R261: when the last 0x51 block ended; none. -/
  asmAt    : Option Nat
  /-- 32 bits; 11 R252 HP_DROP (rc); 0. -/
  hpDrop   : Nat
  /-- 32 bits; 11 R255 PEC_ERR (rc); 0. -/
  pecErr   : Nat
  /-- 32 bits; 11 R263 HN_DROP (rc); 0. -/
  hnDrop   : Nat
  /-- 32 bits; 11 R253 SMB_TIMEOUT (rc); 0. -/
  smbTimeout : Nat
  /-- 8 bits; 11 R257 legacy pointer; DC 6: 0. -/
  legPtr   : Nat
  /-- 1 bit; 11 R256 LEG_STATUS.REJ; DC 6: 0. -/
  legRej   : Bool
  /-- 4 bits; 11 R259 BatteryStatus error code; DC 6: 0. -/
  errCode  : Nat
  /-- 1 bit; 11 R259 FULLY_CHARGED with its hysteresis; 0. -/
  fullChg  : Bool
  /-- 1 bit; 11 R259 FULLY_DISCHARGED with its hysteresis; 0. -/
  fullDsg  : Bool
  /-- 16 bits; 11 R262: alarm bits 15 to 8 last seen; 0. -/
  alarms   : Nat
  /-- causes 2 and 3 in their order; 11 R262 SMBALERT# causes; empty. -/
  alerts   : List Nat
  /-- notifications that wait: cause 2, or cause 3 with TAG and OPC, and NACKs so far; 11 R263; empty. -/
  notifies : List (Option (Byte × Byte) × Nat)
  /-- base value; 11 R263: when the alarm notification was last sent; 0. -/
  notifyAt : Nat
  /-- operation and base value; 11 R256: the write whose status SCL is stretched for, until 1 ms after it; none. -/
  ackWait  : Option (Nat × Nat)
  /-- bytes; model: what the MG16 drove in the last host transaction; empty. -/
  out      : List Byte
  /-- 1 bit; model: the last host transaction's last byte was ACKed; 1. -/
  ack      : Bool
  deriving DecidableEq, Repr

/-- A Modbus frame whose Sprue request has no answer yet (R55, R268, R269). -/
structure MbWait where
  unit  : Byte
  fc    : Byte
  /-- the operation of the request. -/
  opId  : Nat
  /-- the writes of the frame still to be made after it. -/
  regs  : List (Nat × Nat)
  /-- the rest of the reply of a write that passes. -/
  ok    : List Byte
  /-- the registers a read returns. -/
  addrs : List Nat
  /-- the answer, once it is there. -/
  ans   : Option Reply
  deriving DecidableEq, Repr

/-- The field port and the SDI-12 line. -/
structure FieldPort where
  /-- replies; 11 R264 native replies that wait; empty. -/
  queue    : List Reply
  /-- frames; 11 R264, R266 Modbus replies that wait; empty. -/
  mbQueue  : List (List Byte)
  /-- 2 bits; 16 R385 PROTO in force; 0. -/
  proto    : Nat
  /-- 32 bits; 11 R274 FP_BAUD in force; 19 200. -/
  baud     : Nat
  /-- 2 bits; 11 R274 FP_FRAME in force; 0. -/
  frame    : Nat
  /-- 8 bits; 11 R274 FP_ADDR in force; 1. -/
  addr     : Nat
  /-- base value; 11 R274: when a COMMIT of new settings ended and the port was last active; none. -/
  reconf   : Option Nat
  /-- base value; 11 R264, R274: when the port was last active; 0. -/
  activeAt : Nat
  /-- base value; 11 R264: when FRX was last active; 0. -/
  rxAt     : Nat
  /-- 32 bits; 11 R265 FP_FRAMEERR (rc); 0. -/
  frameErr : Nat
  /-- 32 bits; 16 R385 MB_CRCERR (rc); 0. -/
  mbCrcErr : Nat
  /-- 32 bits; 16 R385 SDI_NORESP (rc); 0. -/
  sdiNoResp : Nat
  /-- 16 bits; 11 R268 holding register 0 PARAM_ID; 0. -/
  paramId  : Nat
  /-- 32 bits; 11 R268 holding registers 1 and 2 PARAM_VAL; 0. -/
  paramVal : Nat
  /-- 16 bits; 11 R268 LAST_STATUS; 0. -/
  lastStatus : Nat
  /-- text of the values prepared by aM or aC and whether a CRC follows; 11 R272; none. -/
  sdiVals  : Option (List Byte × Bool)
  /-- bytes; 11 R273 the Sprue reply fetched by aXN; none before the first. -/
  sdiReply : Option (List Byte)
  /-- model: operation whose reply aXS awaits; none. -/
  sdiOp    : Option Nat
  /-- model: operation whose reply aXN fetches; none. -/
  sdiLast  : Option Nat
  /-- bytes; model: the last SDI-12 response; empty. -/
  sdiOut   : List Byte
  /-- bytes; model: the last frame or sentence sent on FTX; empty. -/
  tx       : List Byte
  /-- (code, active, base value of the last sentence); 11 R271; none active. -/
  nmeaAct  : List (AlarmCode × Nat)
  /-- base value; 11 R270: the last battery sentences; 0. -/
  nmeaAt   : Nat
  /-- 1 bit; 11 R270: the bank of the next battery sentence of the period; 0 = Bank A. -/
  nmeaBankB : Bool
  /-- base values; 11 R264, 16 R385 PORTF FDE: from and until when FDE is driven high; 0. -/
  fdeFrom  : Nat
  fdeTo    : Nat
  /-- base values; 17 R402, 16 R385 PORTF SDI_BUSY: from and until when GP2 is driven high around a response; 0. -/
  sdiFrom  : Nat
  sdiTo    : Nat
  /-- base value; 11 R273: until when the answer of an aXS command waits for its reply; none. -/
  sdiWait  : Option Nat
  /-- 11 R268, R269: the Modbus frame that waits for the answer of its request; none. -/
  mbWait   : Option MbWait
  deriving DecidableEq, Repr

/-! ## Criuc link (12_criuc_link.md) -/

/-- A frame ready to be sent (R279, R284). -/
structure TxFrame where
  typ     : Nat
  payload : List Byte
  prio    : Nat
  /-- the counter it took when it was formed (R288); none until its first attempt. -/
  ctr     : Option Nat
  tries   : Nat
  /-- the operation whose SPRUE_RPL it carries. -/
  opId    : Option Nat
  /-- base value at which it became ready (R284). -/
  readyAt : Nat
  /-- r of R284: drawn after a collision. -/
  back    : Nat
  deriving DecidableEq, Repr

/-- A Star the part knows (R292, R305). -/
structure Star where
  serial : Nat
  prio   : Nat
  pvMin  : Nat
  pvMax  : Nat
  romMaj : Nat
  romMin : Nat
  report : Option (List Byte)
  /-- beacon number of the period of its last report. -/
  reportBn : Option Nat
  missed : Nat
  /-- beacon number of the first beacon that listed it. -/
  listedBn : Nat
  alarm  : Bool
  deriving DecidableEq, Repr

/-- The link and the constellation state. -/
structure Link where
  /-- role; 12 R291 to R313; silent until Pour. -/
  role     : Role
  /-- base value; 12 R291: start of the join listen; 0. -/
  listenAt : Nat
  /-- 1 bit; 12 R291: a beacon was heard since the listen began; 0. -/
  heard    : Bool
  /-- 15 serials; 12 R292 roster entries 0 to 14, 0 = empty. -/
  roster   : List Nat
  /-- stars; 12 R305: what is known of each listed Star; empty. -/
  stars    : List Star
  /-- 32 bits; 12 R294 Pole serial, 0 = none. -/
  poleSer  : Nat
  /-- 8 bits; 12 R294 Pole's CST_PRIO; 0. -/
  polePrio : Nat
  /-- 32 bits; 12 R294 BN of the last beacon; 0. -/
  bn       : Nat
  /-- beacon numbers; 12 R302: the last 4 delivered; empty. -/
  lastBns  : List Nat
  /-- 32 bits; 12 R294, R300: configuration generation of the last beacon; 0. -/
  bcnGen   : Nat
  /-- 8 bytes; 12 R294, R300: configuration digest of the last beacon; empty before the first. -/
  bcnDigest : List Byte
  /-- 8 bits; 12 R309 PV in force; 0. -/
  pv       : Nat
  /-- base value; 12 R294: reference of the last beacon; none. -/
  refAt    : Option Nat
  /-- 8 bits; 12 R296: consecutive beacons missed; 0. -/
  missed   : Nat
  /-- 1 bit; 12 R296: the Pole is lost; 0. -/
  poleLost : Bool
  /-- 1 bit; 12 R308 CONFIG_SPLIT seen in the last beacon (or set by this Pole); 0. -/
  split    : Bool
  /-- periods; 12 R308: since a report last showed SPLIT; 0. -/
  splitAge : Nat
  /-- 1 bit; 12 R308: this Star's own SPLIT; 0. -/
  ownSplit : Bool
  /-- 1 bit; 12 R300 CFG_NEED; 0. -/
  cfgNeed  : Bool
  /-- beacon number; 12 R300: when the Pole last sent CFG; none. -/
  cfgSentBn : Option Nat
  /-- serial; 12 R293, R312: HEIR of the next beacon with HANDOVER; 0. -/
  heir     : Nat
  /-- 1 bit; 12 R293 HANDOVER to be set; 0. -/
  handover : Bool
  /-- 1 bit; 12 R312 DEMOTE to be set; 0. -/
  demote   : Bool
  /-- 22 bytes; 12 R297, R298 aggregate block held; none. -/
  block    : Option (List Byte)
  /-- base value; 12 R298: own stamp of the reference of the beacon that carried it; 0. -/
  blockAt  : Nat
  /-- mA; 12 R298: CURR of the last blocks, newest first, at most 600; empty. -/
  blockCurr : List Int
  /-- base value; 12 R305: when the last beacon was heard; none. -/
  lastBeacon : Option Nat
  /-- AON ticks signed; 12 R305 RTC error e; 0. -/
  rtcErr   : Int
  /-- 16 bits; 12 R305 Pole changes since Pour; 0. -/
  poleChanges : Nat
  /-- periods; 12 R292: beacons since JOIN was last sent; 0. -/
  joinAge  : Nat
  /-- 32 bits; 12 R288 transmit counter; 0. -/
  ctr      : Nat
  /-- 32 bits; 12 R288 reservation in force; 0. -/
  ctrRes   : Nat
  /-- (serial, CTR), most recently used first, at most 32; 12 R289 receive table; empty. -/
  rxTable  : List (Nat × Nat × List Byte)
  /-- bytes; 12 R299 adopted configuration block; none. -/
  cfg      : Option (List Byte)
  /-- 32 bits; 12 R299 generation in force; 0. -/
  gen      : Nat
  /-- frames; 12 R284 frames that wait for the medium; empty. -/
  txq      : List TxFrame
  /-- base value; 12 R277, 16 R385 TX_ON: while the transmitter is on, when it goes off; none. -/
  txEnd    : Option Nat
  /-- base value; 12 R294: the next scheduled beacon of this Pole; 0. -/
  beaconAt : Nat
  /-- 22 bytes; 12 R297: the aggregate block formed for the next beacon; none. -/
  formed   : Option (List Byte)
  /-- beacon number; 12 R295: of the period in which the own report was sent or skipped; none. -/
  sentBn   : Option Nat
  /-- 1 bit; 12 R304: this Pole leaves with its next beacon; 0. -/
  leaving  : Bool
  /-- frame; 12 R285 the frame being sent; none. -/
  sending  : Option TxFrame
  /-- bytes; model: the last frame sent, from LEN to its CRC; empty. -/
  tx       : List Byte
  /-- 8 bits; 12 R307 CST_PRIO of the present join; 128. -/
  prio     : Nat
  /-- 4 bits; 12 R307 CST_KEY_SLOT of the present join; 0. -/
  keySlot  : Nat
  /-- 16 × 32 bits; 12 R306 counters in their order (saturating); 0. -/
  counters : Vector Nat 16
  /-- 64 bits; 12 R306 stamp of the last clear; 0. -/
  clearAt  : Nat
  /-- (SRC, base value); 12 R282 strangers logged within the hour; empty. -/
  strangers : List (Nat × Nat)
  /-- base value; 12 R276, R277: start of B1 of the last frame sent; 0. -/
  txAt     : Nat
  /-- base value; 12 R283: the instant the medium last went idle, as far as known; 0. -/
  idleAt   : Nat
  /-- base value; 05 R116, 12 R280: the frame of a detected burst is delivered by then; 0. -/
  rxEnd    : Nat
  deriving DecidableEq, Repr

/-! ## Digest engine, Crucible, locks (13_digest_crucible.md) -/

/-- A digest context (R314 to R326). -/
structure Ctx where
  /-- 2 bits; 13 CTX_STAT.STATE; closed. -/
  state     : CtxState
  /-- 8 bits; 13 R315 function code; 0. -/
  func      : Nat
  /-- key slot; 13 R315 CTX_STAT.SLOT and KEYED; none = plain. -/
  slot      : Option Nat
  /-- 16 bits; 13 R325 slot generation at opening; 0. -/
  gen       : Nat
  /-- origin code; 13 R317 CTX_STAT.OWNER; none. -/
  owner     : Option Origin
  /-- 8 words; 13 R325 chaining state; 0. -/
  chain     : List Nat
  /-- bytes; 13 R325 partial block; empty. -/
  part      : List Byte
  /-- 64 bits; 13 R325 bytes absorbed; 0. -/
  absorbed  : Nat
  /-- bytes; 13 R322 held digest; none. -/
  held      : Option (List Byte)
  /-- 1 bit; 13 R323 CTX_STAT.RESTARTED (w1c); 0. -/
  restarted : Bool
  /-- 1 bit; 13 R320 CTX_STAT.ERR (w1c); 0. -/
  err       : Bool
  /-- 32 bits; 13 R320 DMA_SRC; DC 6: 0. -/
  dmaSrc    : Nat
  /-- 16 bits; 13 R320 DLEN; DC 6: 0. -/
  dlen      : Nat
  /-- base value; 13 R320 CTX_STAT.DMA_BUSY: while a transfer runs, when it ends; none. -/
  dmaEnd    : Option Nat
  /-- (address, length) pairs; 13 R321 the descriptors of the DG_DESC that feeds it; DC 6: none. -/
  desc      : List (Nat × Nat)
  deriving DecidableEq, Repr

/-- A key slot (R328). -/
structure KeySlot where
  /-- 2 bits; 13 R328; empty. -/
  state : SlotState
  /-- 16 bits; 13 R328 generation; 0. -/
  gen   : Nat
  /-- words; 13 R328 cached HMAC inner state; empty. -/
  inner : List Nat
  /-- words; 13 R328 cached HMAC outer state; empty. -/
  outer : List Nat
  /-- function of the cached states; 13 R328; 0. -/
  func  : Nat
  /-- 1 bit; 13 R329, R341: stored but not loaded because of a Quench; 0. -/
  quenched : Bool
  deriving DecidableEq, Repr

/-- The lock state of one port (R334 to R337). -/
structure PortLock where
  /-- challenge, target, issue stamp; 13 R334; none. -/
  chal     : Option (List Byte × Nat × Nat)
  /-- response; 13 R336: the response that consumed the last challenge; none. -/
  consumed : Option (List Byte)
  /-- (operation, stamp); 13 R336: UNLOCKs of the open round; empty. -/
  round    : List Nat
  /-- base value; 13 R336: when the open round began; none. -/
  roundAt  : Option Nat
  /-- 8 bits; 13 R337 failure count; 0. -/
  fails    : Nat
  /-- 8 bits; 13 R337 k; 0. -/
  k        : Nat
  /-- base value; 13 R337: end of the lockout in force; none. -/
  until_   : Option Nat
  deriving DecidableEq, Repr

/-- Digest engine and Crucible. -/
structure Sec where
  /-- 6 contexts; 13 R316; all closed. -/
  ctx      : Vector Ctx 6
  /-- 4 KiB, (offset, byte), offsets rising, no zero byte; 13 R321 staging window; DC 6: all zero. -/
  staging  : List (Nat × Byte)
  /-- 16 slots; 13 R328; all empty. -/
  keys     : Vector KeySlot 16
  /-- 2 bits; 13 R332 lock level in force (reads 0 until Pour step 1, 16 R381); sealed until Pour. -/
  lock     : Lock
  /-- base value; 13 R333: last packet of lock class U, or Pour; 0. -/
  lockAt   : Nat
  /-- lock state of the host port; 13 R334. -/
  host     : PortLock
  /-- lock state of the field port; 13 R334. -/
  field    : PortLock
  /-- 32 bits; 13 R338 use counter; 0. -/
  useCtr   : Nat
  /-- 32 bits; 13 R339 committed reservation in force; 0. -/
  useRes   : Nat
  deriving DecidableEq, Repr

/-! ## Tamper and log (14_tamper_quench.md) -/

/-- One tamper source (R342, R345). -/
structure Source where
  /-- 1 bit; 14 R342: in tamper; 0. -/
  inTamper : Bool
  /-- latch with the response applied; 14 R345, R347 TAMP_LATCH; none. -/
  latch    : Option Resp
  /-- 16 bits; 14 R345 COUNT (saturating, ret); 0. -/
  count    : Nat
  /-- 56 bits; 14 R345 first stamp; 0. -/
  first    : Nat
  /-- 56 bits; 14 R345 last stamp; 0. -/
  last     : Nat
  /-- 1 bit; 04 R100, 14 R350: its log entry is still to be written from the latch; 0. -/
  unlogged : Bool
  /-- 32 bits; 14 R353: the value of the last event; 0. -/
  value    : Nat
  /-- base value; 14 R342: samples are counted from here on, the last change of what the source shows; 0. -/
  since    : Nat
  /-- 1 bit; 14 R353 flag bit 1: the last stamp was taken coarse; 0. -/
  coarse   : Bool
  /-- 3 bits; 14 R353: the stage at the last event; 0. -/
  stage    : Nat
  deriving DecidableEq, Repr

/-- A log entry (R353). -/
structure LogEnt where
  index : Nat
  stamp : Nat
  rtc   : Nat
  life  : Nat
  typ   : Nat
  origin : Nat
  flags : Nat
  stage : Nat
  data  : List Byte
  deriving DecidableEq, Repr

/-- Tamper block, log and evidence. -/
structure Tamp where
  /-- source LID; 14 R342. -/
  lid      : Source
  /-- source MESH; 14 R342. -/
  mesh     : Source
  /-- source INGRESS; 14 R342; its inTamper is the ingress advisory and PROT_STAT.INGRESS (R348). -/
  ingress  : Source
  /-- source GLITCH; 14 R342. -/
  glitch   : Source
  /-- source CLOCK; 14 R342. -/
  clock    : Source
  /-- source TEMP; 14 R342. -/
  temp     : Source
  /-- 2 bits; 14 R343 TAMP_STAT.LID_STATE (ret); 2 INDETERMINATE. -/
  lidState : LidState
  /-- base value; 04 R99: since when LID has read INDETERMINATE; tick 0. -/
  lidSince : Option Nat
  /-- 1 bit; 14 TAMP_STAT.GLITCH (w1c, ret); 0. -/
  glitchSeen : Bool
  /-- 1 bit; 14 TAMP_STAT.CLOCK (w1c, ret); 0. -/
  clockSeen : Bool
  /-- 1 bit; 14 TAMP_STAT.Q2_ERASE; 0. -/
  q2Erase  : Bool
  /-- base value; 14 R349 TAMP_STAT.QUENCH_BUSY reads 1 before it; 0. -/
  quenchTo : Nat
  /-- stamp; 14 R353 type 0x47: the event of the running erase; 0. -/
  q2Stamp  : Nat
  /-- at most 128; 14 R353 log entries held, oldest first; empty. -/
  log      : List LogEnt
  /-- 32 bits; 14 R353 index of the next entry (LOG_NEXT); 0. -/
  logNext  : Nat
  /-- 16 bits; 14 R353 LOG_DROP (saturating); 0. -/
  logDrop  : Nat
  /-- at most 32 under BOW; 14 R353 entries raised and not yet committed, oldest first; empty. -/
  logWait  : List LogEnt
  /-- at most 16; 14 R355 evidence entries, oldest first; empty. -/
  evid     : List LogEnt
  /-- 16 bits; 14 R355 EVID_LOST (saturating); 0. -/
  evidLost : Nat
  /-- 32 bits; 14 R357 REARM_CTR; 0. -/
  rearmCtr : Nat
  /-- counter and level; 14 R357: a rearm whose commit is under way; none. -/
  rearming : Option (Nat × Nat × Nat)
  deriving DecidableEq, Repr

/-! ## Ingot store (15_ingot_store.md) -/

/-- What a journal record holds (R362). -/
inductive Body where
  | bytes (b : List Byte)
  | words (w : List Nat)
  | coul (life : Nat) (q : Int) (aOff aSelf : Rat) (mark : Int) (rtc : Nat) (rtcValid : Bool) (temp : Rat)
      (pasv : Nat) (cycles : Nat)
  | cell (c : Cell) (ageA gF gL ageB : Rat)
  | annealA (acc rej : Nat) (opened : Bool)
  | annealB (cAvail : Option (List Rat))
  | bins (b : List (Option Rat))
  | daily (d : List (Option Rat))
  | policy (computed : Nat) (last : Option Nat) (day n : Nat) (mwh : Rat)
  | lock (level : Lock) (hFails hk : Nat) (hOut : Bool) (fFails fk : Nat) (fOut : Bool)
  deriving DecidableEq, Repr

/-- A journal record: TYPE, KEY, LEN in body words, and what it holds (R361, R362). -/
structure Rec where
  typ  : Nat
  key  : Nat
  len  : Nat
  body : Body
  deriving DecidableEq, Repr

/-- A record as stored: TXN, INDEX, LAST, whether all its words and (for LAST) its MARK were written (R361, R363). -/
structure Stored where
  txn    : Nat
  index  : Nat
  last   : Bool
  rcd    : Rec
  whole  : Bool
  marked : Bool
  deriving DecidableEq, Repr

/-- A journal sector (R359, R366). -/
structure Sector where
  recs    : List Stored
  used    : Nat
  retired : Bool
  deriving DecidableEq, Repr

/-- What a queued transaction is for (R364). -/
inductive TxnKind where
  | records
  | key (slot : Nat) (gen : Nat) (wrapped : List Byte) (use : Nat) (empty : Bool)
  deriving DecidableEq, Repr

/-- A transaction in the commit queue or in progress (R363, R364). -/
structure Txn where
  opId  : Option Nat
  stamp : Nat
  kind  : TxnKind
  recs  : List Rec
  /-- the one retry after a brown-out warning (R62), and the one after a word failure (R373). -/
  bowRetry  : Bool
  failRetry : Bool
  deriving DecidableEq, Repr

/-- What the Ingot controller is writing (R364, R366, R368, R373): a journal transaction at record `i` with `w` words of
it written (a COMPACT transaction names its victim sector), a key copy, the blanking of a reclaimed sector, or a header
copy that records a retirement, with the transaction to be retried after it and its victim. -/
inductive Job where
  | journal (t : Txn) (txn i w : Nat) (victim : Option Nat)
  | keyCopy (t : Txn) (copy w : Nat)
  | blank (sector w : Nat)
  | header (second : Bool) (w : Nat) (t : Option Txn) (victim : Option Nat)
  deriving DecidableEq, Repr

/-- One copy in the key area (R368). -/
structure KeyCopy where
  gen     : Nat
  use     : Nat
  wrapped : List Byte
  empty   : Bool
  whole   : Bool
  deriving DecidableEq, Repr

/-- The Ingot store and its controller. -/
structure Nv where
  /-- 1 bit each; 15 R359, R371: the two header copies are valid; DC 7: both. -/
  hdrA     : Bool
  hdrB     : Bool
  /-- 64 bits each; 15 R359, R373 the retired sectors that each header copy records; DC 7: none. -/
  mapA     : List Nat
  mapB     : List Nat
  /-- 1 bit; 15 R371, R375 NVM_STAT.STORE_BAD; 0. -/
  storeBad : Bool
  /-- 64 sectors of 128 words; 15 R359, R366 the journal; DC 7: blank. -/
  sectors  : Vector Sector 64
  /-- 6 bits; 15 R366, R375 NVM_STAT.HEAD; 0. -/
  head     : Nat
  /-- 24 bits; 15 R363 TXN of the next transaction; DC 7: 0. -/
  nextTxn  : Nat
  /-- 24 bits; 15 R375 last committed TXN (0x18); 0. -/
  lastTxn  : Nat
  /-- at most 8; 15 R364 commit queue; empty. -/
  queue    : List Txn
  /-- jobs; 15 R364: what is being written, the interrupted below; none. -/
  jobs     : List Job
  /-- transactions; 15 R109, R372: abandoned under BOW, to be retried after release; none. -/
  held     : List Txn
  /-- 8 bits; 15 R375 NVM_STAT.NVFAILS (rc); 0. -/
  nvfails  : Nat
  /-- 16 slots × 3 copies; 15 R368 key area; DC 7: none written. -/
  keyArea  : Vector (List (Option KeyCopy)) 16
  /-- 64 words; 15 R370 mark plane; blank. -/
  marks    : Vector Word 64
  /-- 4096 words as (offset, word), offsets rising, no blank word; 15 R374 patch area; DC 7: blank. -/
  patch    : List (Nat × Word)
  /-- 12 bits; 15 R375 PATCH_PTR; DC 7: 0. -/
  patchPtr : Nat
  /-- 1 bit; 15 R375 NVM_STAT.PATCH_FULL; 0. -/
  patchFull : Bool
  deriving DecidableEq, Repr

/-! ## Start (04_staged_start.md) -/

/-- The restart state (R88): life number, the model with its tally marks and its snapshot, the Anneal and Almanac working
state, the policy, the constellation. -/
structure Restart where
  life   : Nat
  gauge  : Gauge
  anneal : Anneal
  alm    : Almanac
  pol    : Policy
  link   : Link
  deriving DecidableEq, Repr

/-- A copy of the restart state in the retained block (R88); what its CRC-32 says is known when it is read. -/
structure RetCopy where
  /-- sequence number; 0 = never written. -/
  seq  : Nat
  body : Restart
  deriving DecidableEq, Repr

/-- The start-up sequencer: stage reply (R82), SYS registers (R381). -/
structure Start where
  /-- 2 bits; 04 R77, 16 R381 SYS_STAT.STAGE; 0 Ember. -/
  stage     : Stage
  /-- 4 bits; 04 R82, 16 R381 RESET_CAUSE.REASON; 1 (power-on). -/
  reason    : Nat
  /-- 4 bits; 04 R82, 16 R381 RESET_CAUSE.FAULT; 0. -/
  fault     : Nat
  /-- 16 bits; 16 R381 RESET_CAUSE.WARM_COUNT; 0. -/
  warmCount : Nat
  /-- 1 bit; 04 R82, 16 R381 SYS_STAT.LIFE; 0. -/
  life      : Bool
  /-- 1 bit; 04 R79: Ember is complete; 0. -/
  emberDone : Bool
  /-- 1 bit; 04 R80, 16 R385 PORTH HSEL (strap): 0 I2C, 1 SPI; 0 until latched at AON tick 49. -/
  hsel      : Bool
  /-- base value; 04 R96: tick 0, or the wake or reset of the warm path; 0. -/
  startBase : Nat
  /-- 2 bits; 04 R87: digest checks of this start that mismatched; 0. -/
  romFails  : Nat
  /-- 1 bit; 04 R85: the Forge cores have been released; 0. -/
  released  : Bool
  /-- 1 bit; 04 R90: the patch has been checked in this start; 0. -/
  patchDone : Bool
  /-- 16 bits; 04 R90, 16 R381 PATCH, patch version installed; 0. -/
  patchVer  : Nat
  /-- 1 bit; 04 R97, 16 R381 SYS_STAT.ESTIMATE_CONF; 0. -/
  estConf   : Bool
  /-- 1 bit; 16 R380, R381 SYS_STAT.POKED (w1c); 0. -/
  poked     : Bool
  /-- 32 bits; 04 R84: the AON copy of the life number; 0. -/
  lifeAon   : Nat
  /-- 04 R88: the first copy of the restart state; none written. -/
  retA      : RetCopy
  /-- 04 R88: the second copy of the restart state; none written. -/
  retB      : RetCopy
  /-- 1 bit; 04 R89: a configuration image has been written since the cold start; 0. -/
  imgWhole  : Bool
  /-- 1 bit; 04 R89: the configuration image is marked OVERFLOW; 0. -/
  imgOver   : Bool
  deriving DecidableEq, Repr

/-! ## The whole state -/

/-- The state of the MG16. -/
structure State where
  /-- queue of commands; model; empty. -/
  pending : List Instr
  /-- clocks and debug; 02. -/
  clk   : Clk
  /-- supply and modes; 05. -/
  pwr   : Pwr
  /-- start; 04. -/
  start : Start
  /-- timers; 08. -/
  tmr   : Tmr
  /-- front end; 06. -/
  afe   : Afe
  /-- integrator of Bank A; 06. -/
  cqa   : Cq
  /-- integrator of Bank B; 06. -/
  cqb   : Cq
  /-- 64 bits; 06 R146 stamp of the last tally capture; 0. -/
  capStamp : Nat
  /-- 64 bits; 06 R146: the stamp CAP_STAMP holds until the capture edge; 0. -/
  capStampOld : Nat
  /-- base value; 06 R146: the CBM edge of the last capture, up to which CAPTURE reads 1; 0. -/
  capAt : Nat
  /-- SAR; 07. -/
  sar   : Sar
  /-- gauge model; 09. -/
  gauge : Gauge
  /-- Glint; 09. -/
  glint : Glint
  /-- Almanac; 10. -/
  alm   : Almanac
  /-- Anneal; 10. -/
  anneal : Anneal
  /-- policy; 10. -/
  pol   : Policy
  /-- command sequencer; 03. -/
  sprue : Sprue
  /-- parameters; 16. -/
  par   : Par
  /-- host port; 11. -/
  host  : HostPort
  /-- field port; 11. -/
  field : FieldPort
  /-- Criuc link; 12. -/
  link  : Link
  /-- digest engine and Crucible; 13. -/
  sec   : Sec
  /-- tamper and log; 14. -/
  tamp  : Tamp
  /-- Ingot store; 15. -/
  nv    : Nv
  /-- model: the number of free values drawn so far (assumption log 2). -/
  drawn : Nat
  deriving DecidableEq, Repr

/-! ## Reset -/

/-- A compare channel after a cold start (R384). -/
def Cmp.reset : Cmp := ⟨0, 0, false, 0, 0, 0, 0, 0⟩

/-- A countdown counter after a cold start (R384: N 1, F 0). -/
def Cdn.reset : Cdn := ⟨0, 0, 1, 0, 0, 1, 0, 0, false, 0, false, 0, 0⟩

/-- An empty capture queue (R384). -/
def Capq.reset : Capq := ⟨[], 0, [], [], 0⟩

/-- A bank without trips, hold or latch (R136). -/
def Oc.reset : Oc := ⟨0, 0, 0, 0, 0, 0, 0, none, false, [], false, 0⟩

/-- An integrator before its modulator starts (R86, R145). -/
def Cq.reset : Cq := ⟨2048, 1, 2048, 2, 2, 0, false, false, false, 0, 0, false, 0, 0, 0, 0, 0, 0⟩

/-- A cleared accumulator (R164). -/
def Acc.empty : Acc := ⟨0, 0, 0, 0, 0⟩

/-- An empty tracker (R166). -/
def Trk.empty : Trk := ⟨-524288, 0, 524287, 0, false, false⟩

/-- The nominal GAIN of calibration pair `k` (R149, R171, R392). -/
def calNominal (k : Nat) : Nat :=
  if k < 16 then 8000000
  else if k < 18 then 6400000
  else if k < 26 then
    match (k - 18) % 4 with
    | 0 => 16000000
    | 1 => 4000000
    | 2 => 1000000
    | _ => 250000
  else if k < 35 then 8000000
  else if k < 37 then 0x40000000
  else if k = 40 then 8192000
  else 4000000

/-- A bank account with no charge booked (assumption log 5). -/
def Acct.reset : Acct := ⟨0, 0, 0, 0, 0, [], 0, 0, false, false, false, 0, none, 0⟩

/-- A cell with no stored record (assumption log 5): SOC 0 with a 1-sigma of 100 %. -/
def Cell.reset : Cell := ⟨0, 0, 0, 0, [1, 0, 0, 0, 0, 0, 0, 0, 0, 0, 0, 0, 0, 0, 0, 0], 0, none, 0, 0⟩

/-- A gauge record whose every field is 0. -/
def GaugeRec.zero : GaugeRec := ⟨0, 0, 0, 0, 0, 0, 0, 0, 0, 0, 0, 0, 0, 0, 0, 0, 0, 0, 0, 0, 0⟩

/-- The snapshot held before the first one is published. -/
def Snap.zero : Snap := ⟨0, 0, GaugeRec.zero, GaugeRec.zero, [], 0, 0, 0, 0, 0, List.replicate 49 0, List.replicate 49 0⟩

/-- A closed context. -/
def Ctx.closed : Ctx :=
  { state := .closed, func := 0, slot := none, gen := 0, owner := none, chain := [], part := [], absorbed := 0
    held := none, restarted := false, err := false, dmaSrc := 0, dlen := 0, dmaEnd := none, desc := [] }

/-- An empty key slot. -/
def KeySlot.empty : KeySlot :=
  { state := .empty, gen := 0, inner := [], outer := [], func := 0, quenched := false }

/-- A port with no challenge, no failure and no lockout. -/
def PortLock.reset : PortLock :=
  { chal := none, consumed := none, round := [], roundAt := none, fails := 0, k := 0, until_ := none }

/-- A tamper source at rest. -/
def Source.reset : Source :=
  { inTamper := false, latch := none, count := 0, first := 0, last := 0, unlogged := false, value := 0
    since := 0, coarse := false, stage := 0 }

/-- A blank journal sector. -/
def Sector.blank : Sector :=
  { recs := [], used := 0, retired := false }

/-- Clocks at tick 0 of a cold start (R78, R382). -/
def Clk.reset : Clk :=
  { lode := .off, lodeStart := 0, onLfrc := true, xtalFail := false, lodeUnlock := false, fllLock := false
    xtalQual := false, napDue := true, lockTry := 0, epochs := 0, halt := false, attachedAt := none, dbgLast := 0
    dbgOut := [] }

/-- Supply and modes at tick 0 of a cold start (R108, R122). -/
def Pwr.reset : Pwr :=
  { powered := true, nrstLow := false, bow := false, bowSeen := false, bowCount := 0, bowAt := 0, bowOffAt := 0, vminStep := 0
    vddioOk := true, vddioMin := true, mode := .run, resWatch := 0, resWatchL := 0, resDoze := 0, resRun := 0
    resBurst := 0, hold := .none, entry := none, loadA := false, loadB := false, idleSince := 0, sleptAt := 0
    deferred := [] }

/-- The timers at tick 0 of a cold start (R79, R173). -/
def Tmr.reset : Tmr :=
  { base := 0, coarseInt := false, coarseHost := false, coarseField := false, coarseLink := false, coarseDbg := false
    coarseAt := 0, sbCap := none, tin0At := none, tin1At := none, wdA := 0, wdB := 0
    shadow0 := 0, shadow1 := 0, epoch := 0
    cmp := Vector.replicate 8 Cmp.reset, cdn := Vector.replicate 4 Cdn.reset, capq := Vector.replicate 4 Capq.reset
    tout0 := ⟨false, false, none⟩, tout1 := ⟨false, false, none⟩
    rtcSec := 0, rtcSub := 0, rtcValid := false, rtcSlew := 0, slewAt := 0, anchorSec := 0, anchorBase := 0 }

/-- The front end at tick 0 of a cold start: every OV fault asserted, the Ember limits in force (R130, R136). -/
def Afe.reset : Afe :=
  { ov := Vector.replicate 16 true, uv := Vector.replicate 16 false, uvb := false
    ovCnt := Vector.replicate 16 0, uvCnt := Vector.replicate 16 0, uvbCnt := 0
    startLow := true, uvJudged := false, emberLim := true, ocA := Oc.reset, ocB := Oc.reset, scanAt := 4000
    duty := Vector.replicate 16 0, hot := false, tbias := false, tbiasAt := 0 }

/-- The SAR block after a cold start. -/
def Sar.reset : Sar :=
  { refRdy := false, refSel := 0, routFw := [], routPort := [], routNext := none, routDrop := false, burst := [], routPos := none
    burstPos := none, burstOn := false, burstLeft := 0, burstStop := false, glintHold := false, calRun := false
    routDue := none, flares := [], gap := 0, pairDrop := 0, fullDrop := 0, routLate := 0
    acc := Vector.replicate 32 Acc.empty, accSnap := Vector.replicate 32 Acc.empty
    snapStamp := Vector.replicate 32 0
    trk := Vector.replicate 32 Trk.empty, trkSnap := Vector.replicate 32 Trk.empty
    cal := Vector.ofFn fun k => ⟨0, calNominal k⟩, autoA := 0, autoB := 0, autoCntA := 0, autoCntB := 0
    castor := ⟨0, 0, 0⟩, pollux := ⟨0, 0, 0⟩, tap := 0, tapFree := 0, passAt := 0, pairAt := 0, calPair := 0, calN := 0, calTs := 0
    calAt := 0, calCnt := 0, calSum := 0 }

/-- The gauge model before the first Pour. -/
def Gauge.reset : Gauge :=
  { a := Acct.reset, b := Acct.reset, cells := Vector.replicate 16 Cell.reset, lastS := 0, lastTA := 0, lastTB := 0
    lastRes := [0, 0, 0, 0, 0], restSince := none, rest := false, firstAfterWake := false, sleepT := 0
    timeDeg := false, chgDeg := false, sd := 0, sigBx := 0, sigBAdd := 0, offRec := none, eod := false, pasv := 0, ageA := 1
    gF := 1, gL := 1
    ageB := 1, restTemp := 0, restTempB := 0, snap := Snap.zero, stepped := false, coulAt := 0, coulN := 0
    profiles := Vector.replicate 4 none, staged := [], profNew := false }

/-- Glint before Pour. -/
def Glint.reset : Glint :=
  { on := false, sliceAt := none, ringA := [], ringB := [], openA := none, openB := none, closedA := [], closedB := [], recA := none, recB := none
    eventsA := 0, eventsB := 0, skipA := 0, skipB := 0, stepA := none, stepB := none }

/-- The Almanac after a cold start: nothing learned, SEA_DEFAULT in force (R231). -/
def Almanac.reset : Almanac :=
  { load := Vector.replicate 48 none, harv := Vector.replicate 48 none, daily := [], today := none
    learnedOn := Vector.replicate 48 none, binStart := none, binIdx := 0, binAt := 0, dayIdx := 0, seeds := []
    binOk := false, binChg := false, seaSince := 0, seaSum := 0
    duties := [], dutyAt := 0, dutyStale := false, sea := 2, seaAt := 0, seaStale := false, rcd := none
    ttrDays := none }

/-- Anneal with nothing learned. -/
def Anneal.reset : Anneal :=
  { anchor := none, accA := 0, rejA := 0, reason := 0, lastOk := false, stampA := 0, measA := 0, depth := 0
    cAvail := none, accB := 0, stampB := 0, measB := 0 }

/-- The policy engine after a cold start: lines deasserted (R244). -/
def Policy.reset : Policy :=
  { computed := 0, floor := 0, pins := 0, pinsOld := 0, pinsAt := 0, holdAt := 0, balOn := false, dpas := false, dpasE := 0, dpasCap := 0
    dpasT := 0, dpasEnd := none, dpasRtc := none, dpasOn := 0, dpasN := 0, dpasDay := 0 }

/-- The sequencer with every slot free. -/
def Sprue.reset : Sprue :=
  { slots := Vector.replicate 8 none, held := [], early := [], resHost := [], resField := [], resLink := []
    windows := [], lastPwr := (0, 0), nextId := 0, answer := none }

/-- The host port after a cold start. -/
def HostPort.reset : HostPort :=
  { queue := [], readOff := 0, asm := [], asmAt := none, hpDrop := 0, pecErr := 0, hnDrop := 0, smbTimeout := 0
    legPtr := 0, legRej := false, errCode := 0, fullChg := false, fullDsg := false, alarms := 0, alerts := []
    notifies := [], notifyAt := 0, ackWait := none, out := [], ack := true }

/-- The field port after a cold start, on its default settings (R274). -/
def FieldPort.reset : FieldPort :=
  { queue := [], mbQueue := [], proto := 0, baud := 19200, frame := 0, addr := 1, reconf := none, activeAt := 0, rxAt := 0
    frameErr := 0, mbCrcErr := 0, sdiNoResp := 0, paramId := 0, paramVal := 0, lastStatus := 0, sdiVals := none
    sdiReply := none, sdiOp := none, sdiLast := none, sdiOut := [], tx := [], nmeaAct := [], nmeaAt := 0
    nmeaBankB := false, fdeFrom := 0, fdeTo := 0, sdiFrom := 0, sdiTo := 0, sdiWait := none, mbWait := none }

/-- The link before Pour. -/
def Link.reset : Link :=
  { role := .silent, listenAt := 0, heard := false, roster := List.replicate 15 0, stars := [], poleSer := 0, polePrio := 0
    bn := 0, lastBns := [], bcnGen := 0, bcnDigest := [], pv := 0, refAt := none, missed := 0, poleLost := false
    split := false, splitAge := 0
    ownSplit := false, cfgNeed := false, cfgSentBn := none, heir := 0, handover := false, demote := false
    block := none, blockAt := 0, blockCurr := [], lastBeacon := none, rtcErr := 0, poleChanges := 0, joinAge := 0
    ctr := 0, ctrRes := 0, rxTable := [], cfg := none, gen := 0, txq := [], txEnd := none, beaconAt := 0
    formed := none, sentBn := none, leaving := false
    sending := none, tx := [], prio := 128, keySlot := 0, counters := Vector.replicate 16 0, clearAt := 0
    strangers := [], txAt := 0, idleAt := 0, rxEnd := 0 }

/-- A copy of the retained block that a cold start has cleared (R88). -/
def RetCopy.reset : RetCopy := ⟨0, ⟨0, Gauge.reset, Anneal.reset, Almanac.reset, Policy.reset, Link.reset⟩⟩

/-- The start-up sequencer at tick 0 of a power-on (R79, R82). HSEL is latched at tick 49; that the stage responder, live from
tick 16 on, serves the I2C form until then is a DESIGN CHOICE (R80, R81; assumption log 150). -/
def Start.reset : Start :=
  { stage := .ember, reason := 1, fault := 0, warmCount := 0, life := false, emberDone := false, hsel := false
    startBase := 0, romFails := 0, released := false, patchDone := false, patchVer := 0, estConf := false
    poked := false, lifeAon := 0, retA := RetCopy.reset, retB := RetCopy.reset, imgWhole := false, imgOver := false }

/-- Digest engine and Crucible after a cold start: everything closed and empty; the lock level counts as SEALED until
Pour restores it (R91, R381). -/
def Sec.reset : Sec :=
  { ctx := Vector.replicate 6 Ctx.closed, staging := [], keys := Vector.replicate 16 KeySlot.empty, lock := .sealed
    lockAt := 0, host := PortLock.reset, field := PortLock.reset, useCtr := 0, useRes := 0 }

/-- Tamper block and log after a cold start (R99, R344). -/
def Tamp.reset : Tamp :=
  { lid := Source.reset, mesh := Source.reset, ingress := Source.reset, glitch := Source.reset
    clock := Source.reset, temp := Source.reset, lidState := .indeterminate, lidSince := some 0, glitchSeen := false
    clockSeen := false, q2Erase := false, quenchTo := 0, q2Stamp := 0, log := [], logNext := 0, logDrop := 0, logWait := []
    evid := [], evidLost := 0, rearmCtr := 0, rearming := none }

/-- A formatted, empty Ingot store (assumption log 7). -/
def Nv.reset : Nv :=
  { hdrA := true, hdrB := true, mapA := [], mapB := [], storeBad := false, sectors := Vector.replicate 64 Sector.blank, head := 0, nextTxn := 0
    lastTxn := 0, queue := [], jobs := [], held := [], nvfails := 0, keyArea := Vector.replicate 16 [none, none, none]
    marks := Vector.replicate 64 0xFFFFFFFF, patch := [], patchPtr := 0, patchFull := false }

/-- The machine right after reset: tick 0 of a cold start by power-on (R76, R79), with an empty queue. -/
def State.reset : State :=
  { pending := [], clk := Clk.reset, pwr := Pwr.reset, start := Start.reset, tmr := Tmr.reset, afe := Afe.reset
    cqa := Cq.reset, cqb := Cq.reset, capStamp := 0, capStampOld := 0, capAt := 0, sar := Sar.reset, gauge := Gauge.reset, glint := Glint.reset
    alm := Almanac.reset, anneal := Anneal.reset, pol := Policy.reset, sprue := Sprue.reset, par := ⟨[], [], []⟩
    host := HostPort.reset, field := FieldPort.reset, link := Link.reset, sec := Sec.reset, tamp := Tamp.reset
    nv := Nv.reset, drawn := 0 }

end Sys2Proof.Machine
end

