-- ==== Sys2Proof/Machine/Params.lean ====
section
/-! DEFINITION. Parameters: the table of IDs with length, range, write level and moment of effect
(16_register_parameter_map.md R386 to R392), and the values committed, pending and in force (R388, 15 R365). -/

namespace Sys2Proof.Machine

/-- The write level of a parameter (R389): any level, UNSEALED, OPEN, read only, or write only. -/
inductive Wr where
  | s | u | o | ro | wo
  deriving DecidableEq, Repr

/-- When a new value takes effect (R389): at once, at the next Pour, model step, ladder scan, sequence pass, Burst end,
Almanac evaluation, bin boundary, join or calibration, or after COMMIT and 100 ms of field-port idleness. -/
inductive Moment where
  | atOnce | pour | step | scan | pass | burst | eval | bin | join | cal | field
  deriving DecidableEq, Repr

/-- A parameter: ID, length in bytes, signedness, default (as the number its bytes spell), range, step, write level,
moment of effect (R386 to R389). -/
structure Prm where
  id   : Nat
  len  : Nat
  sgn  : Bool
  dflt : Nat
  lo   : Int
  hi   : Int
  step : Nat
  wr   : Wr
  mom  : Moment
  deriving DecidableEq, Repr

/-- Class 0x01, identity (16 R390). -/
def prmClass01 : List Prm :=
  [⟨0x0101, 4, false, 0, 1, 4294967294, 1, .o, .pour⟩,
   ⟨0x0102, 8, false, 0, 0, 0, 1, .ro, .atOnce⟩,
   ⟨0x0103, 1, false, 66, 0, 0, 1, .ro, .atOnce⟩,
   ⟨0x0104, 2, false, 259, 0, 0, 1, .ro, .atOnce⟩,
   ⟨0x0105, 2, false, 0, 0, 0, 1, .ro, .atOnce⟩,
   ⟨0x0106, 1, false, 0, 0, 1, 1, .ro, .atOnce⟩,
   ⟨0x0107, 2, false, 0, 0, 65535, 1, .o, .atOnce⟩,
   ⟨0x0108, 16, false, 0, 0, 0, 1, .o, .atOnce⟩,
   ⟨0x0109, 16, false, 0, 0, 0, 1, .o, .atOnce⟩,
   ⟨0x010A, 16, false, 0, 0, 0, 1, .u, .atOnce⟩]

/-- Class 0x02, chemistry (16 R391, 09 R224). -/
def prmClass02 : List Prm :=
  [⟨0x0201, 1, false, 4, 2, 16, 1, .u, .pour⟩,
   ⟨0x0202, 1, false, 4, 1, 16, 1, .u, .pour⟩,
   ⟨0x0203, 4, false, 10000, 100, 2000000, 1, .u, .step⟩,
   ⟨0x0204, 4, false, 10000, 100, 2000000, 1, .u, .step⟩,
   ⟨0x0205, 1, false, 1, 0, 1, 1, .u, .pour⟩,
   ⟨0x0210, 8, false, 0, 0, 0, 1, .ro, .atOnce⟩,
   ⟨0x0211, 8, false, 0, 0, 0, 1, .ro, .atOnce⟩,
   ⟨0x0212, 8, false, 0, 0, 0, 1, .ro, .atOnce⟩,
   ⟨0x0213, 8, false, 0, 0, 0, 1, .ro, .atOnce⟩]

/-- Class 0x03, protection (06 R134). -/
def prmClass03 : List Prm :=
  [⟨0x0301, 2, false, 4250, 1000, 5000, 10, .u, .scan⟩,
   ⟨0x0302, 2, false, 50, 10, 500, 1, .u, .scan⟩,
   ⟨0x0303, 2, false, 2500, 800, 4000, 10, .u, .scan⟩,
   ⟨0x0304, 2, false, 100, 10, 500, 1, .u, .scan⟩,
   ⟨0x0305, 1, false, 2, 1, 4, 1, .u, .scan⟩,
   ⟨0x0306, 2, false, 2000, 0, 4000, 10, .u, .scan⟩,
   ⟨0x0307, 2, false, 100, 10, 500, 1, .u, .scan⟩,
   ⟨0x0310, 1, false, 40, 5, 95, 1, .u, .atOnce⟩,
   ⟨0x0311, 1, false, 20, 5, 95, 1, .u, .atOnce⟩,
   ⟨0x0312, 1, false, 80, 10, 150, 1, .u, .atOnce⟩,
   ⟨0x0313, 1, false, 40, 5, 95, 1, .u, .atOnce⟩,
   ⟨0x0314, 1, false, 20, 5, 95, 1, .u, .atOnce⟩,
   ⟨0x0315, 1, false, 80, 10, 150, 1, .u, .atOnce⟩,
   ⟨0x0316, 2, false, 4195, 32, 65535, 1, .u, .atOnce⟩,
   ⟨0x0317, 2, false, 32, 4, 1024, 1, .u, .atOnce⟩,
   ⟨0x0318, 4, false, 2000, 250, 600000, 1, .u, .atOnce⟩,
   ⟨0x0319, 1, false, 3, 0, 15, 1, .u, .atOnce⟩,
   ⟨0x031A, 1, false, 0, 90, 90, 1, .wo, .atOnce⟩]

/-- Class 0x04, measurement (16 R391). -/
def prmClass04 : List Prm :=
  [⟨0x0401, 4, false, 0, 0, 0, 1, .ro, .atOnce⟩,
   ⟨0x0402, 4, false, 0, 0, 0, 1, .ro, .atOnce⟩,
   ⟨0x0403, 4, false, 0, 0, 0, 1, .ro, .atOnce⟩,
   ⟨0x0404, 4, false, 0, 0, 0, 1, .ro, .atOnce⟩,
   ⟨0x0405, 2, false, 0, 0, 0, 1, .ro, .atOnce⟩,
   ⟨0x0410, 4, false, 1000, 100, 100000, 1, .u, .atOnce⟩,
   ⟨0x0411, 4, false, 1000, 100, 100000, 1, .u, .atOnce⟩,
   ⟨0x0420, 4, false, 16384, 32, 1048576, 1, .u, .atOnce⟩,
   ⟨0x0421, 1, false, 3, 1, 4, 1, .u, .atOnce⟩,
   ⟨0x0422, 4, false, 16384, 32, 1048576, 1, .u, .atOnce⟩,
   ⟨0x0423, 1, false, 3, 1, 4, 1, .u, .atOnce⟩,
   ⟨0x0428, 2, false, 100, 10, 5000, 1, .u, .pass⟩,
   ⟨0x0430, 2, false, 64, 16, 1024, 1, .u, .pass⟩,
   ⟨0x0431, 2, false, 3982, 2732, 4232, 1, .u, .scan⟩,
   ⟨0x0440, 1, false, 0, 0, 2, 1, .u, .pass⟩,
   ⟨0x0441, 2, false, 100, 10, 60000, 1, .u, .pass⟩,
   ⟨0x0442, 1, false, 28, 24, 32, 1, .u, .pour⟩,
   ⟨0x0443, 1, false, 4, 1, 64, 1, .u, .pass⟩]

/-- Class 0x05, model (09 R224). -/
def prmClass05 : List Prm :=
  [⟨0x0501, 1, false, 0, 0, 3, 1, .u, .step⟩,
   ⟨0x0502, 1, false, 1, 0, 3, 1, .u, .step⟩,
   ⟨0x0503, 1, false, 0, 0, 1, 1, .u, .step⟩,
   ⟨0x0504, 1, false, 1, 0, 255, 1, .u, .pour⟩,
   ⟨0x0505, 1, false, 2, 0, 255, 1, .u, .pour⟩,
   ⟨0x0506, 2, false, 1000, 500, 10000, 1, .u, .step⟩,
   ⟨0x0507, 2, false, 20, 1, 1000, 1, .u, .step⟩,
   ⟨0x0508, 1, false, 30, 5, 240, 1, .u, .step⟩,
   ⟨0x0509, 2, false, 60, 1, 600, 1, .u, .step⟩,
   ⟨0x050A, 2, false, 200, 0, 500, 1, .u, .step⟩,
   ⟨0x050B, 2, false, 900, 100, 1000, 1, .u, .step⟩,
   ⟨0x050C, 2, false, 60, 10, 3600, 1, .u, .step⟩,
   ⟨0x0510, 1, false, 30, 5, 200, 1, .u, .step⟩,
   ⟨0x0520, 1, false, 1, 0, 1, 1, .u, .burst⟩,
   ⟨0x0521, 2, false, 200, 50, 20000, 1, .u, .step⟩,
   ⟨0x0522, 2, false, 50, 10, 500, 1, .u, .step⟩,
   ⟨0x0523, 2, false, 64, 16, 4096, 1, .u, .step⟩,
   ⟨0x0524, 4, false, 0, 0, 100000, 1, .u, .step⟩,
   ⟨0x0525, 4, false, 0, 0, 100000, 1, .u, .step⟩,
   ⟨0x0526, 2, false, 32, 1, 256, 1, .u, .step⟩,
   ⟨0x0527, 2, false, 20, 12, 1000, 1, .u, .step⟩,
   ⟨0x0530, 2, false, 0, 0, 5000, 1, .u, .step⟩,
   ⟨0x0531, 2, false, 50, 10, 1000, 1, .u, .step⟩,
   ⟨0x0532, 2, false, 200, 20, 2000, 1, .u, .step⟩,
   ⟨0x0533, 2, false, 0, 0, 4000, 1, .u, .step⟩]

/-- Class 0x06, Almanac and Anneal (10 R249). -/
def prmClass06 : List Prm :=
  [⟨0x0601, 2, false, 60, 10, 3600, 1, .u, .eval⟩,
   ⟨0x0602, 2, false, 365, 30, 730, 1, .u, .eval⟩,
   ⟨0x0603, 2, false, 100, 0, 500, 1, .u, .eval⟩,
   ⟨0x0604, 1, false, 16, 1, 128, 1, .u, .eval⟩,
   ⟨0x0605, 1, false, 32, 1, 128, 1, .u, .eval⟩,
   ⟨0x0606, 2, false, 5, 0, 500, 1, .u, .eval⟩,
   ⟨0x0607, 4, false, 0, 0, 4294967295, 1, .u, .eval⟩,
   ⟨0x0608, 2, false, 100, 0, 500, 1, .u, .eval⟩,
   ⟨0x0609, 1, false, 30, 0, 180, 1, .u, .eval⟩,
   ⟨0x060A, 1, false, 2, 0, 7, 1, .u, .eval⟩,
   ⟨0x060B, 2, false, 360, 30, 10080, 1, .u, .eval⟩,
   ⟨0x060C, 1, false, 48, 0, 240, 1, .u, .eval⟩,
   ⟨0x060D, 2, false, 7, 0, 365, 1, .u, .eval⟩,
   ⟨0x060E, 2, false, 30, 1, 365, 1, .u, .eval⟩,
   ⟨0x0610, 2, false, 230, 64, 1024, 1, .u, .eval⟩,
   ⟨0x0611, 2, false, 243, 64, 1024, 1, .u, .eval⟩,
   ⟨0x0612, 2, false, 256, 64, 1024, 1, .u, .eval⟩,
   ⟨0x0613, 2, false, 269, 64, 1024, 1, .u, .eval⟩,
   ⟨0x0614, 2, false, 294, 64, 1024, 1, .u, .eval⟩,
   ⟨0x0615, 2, false, 333, 64, 1024, 1, .u, .eval⟩,
   ⟨0x0616, 2, false, 384, 64, 1024, 1, .u, .eval⟩,
   ⟨0x0617, 2, false, 448, 64, 1024, 1, .u, .eval⟩,
   ⟨0x0620, 2, false, 400, 200, 900, 1, .u, .eval⟩,
   ⟨0x0621, 1, false, 20, 5, 100, 1, .u, .eval⟩,
   ⟨0x0622, 2, false, 2782, 2332, 3232, 1, .u, .eval⟩,
   ⟨0x0623, 2, false, 3182, 2332, 3332, 1, .u, .eval⟩,
   ⟨0x0624, 2, false, 100, 10, 300, 1, .u, .eval⟩,
   ⟨0x0625, 4, false, 0, 100, 2000000, 1, .wo, .atOnce⟩]

/-- Class 0x07, policy and power (10 R249, 05 R115). -/
def prmClass07 : List Prm :=
  [⟨0x0701, 2, false, 300, 0, 3650, 1, .u, .eval⟩,
   ⟨0x0702, 2, false, 140, 0, 3650, 1, .u, .eval⟩,
   ⟨0x0703, 2, false, 50, 0, 3650, 1, .u, .eval⟩,
   ⟨0x0704, 2, false, 20, 0, 300, 1, .u, .eval⟩,
   ⟨0x0705, 2, false, 360, 60, 4320, 1, .u, .eval⟩,
   ⟨0x0706, 1, false, 1, 0, 1, 1, .u, .eval⟩,
   ⟨0x0710, 1, false, 1, 0, 1, 1, .u, .eval⟩,
   ⟨0x0711, 1, false, 32, 1, 32, 1, .u, .eval⟩,
   ⟨0x0712, 2, false, 15, 5, 500, 1, .u, .eval⟩,
   ⟨0x0713, 1, false, 5, 1, 200, 1, .u, .eval⟩,
   ⟨0x0714, 2, false, 0, 0, 5000, 1, .u, .eval⟩,
   ⟨0x0715, 1, false, 2, 1, 4, 1, .u, .eval⟩,
   ⟨0x0720, 1, false, 1, 0, 1, 1, .u, .eval⟩,
   ⟨0x0721, 2, false, 600, 0, 1440, 1, .u, .eval⟩,
   ⟨0x0722, 2, false, 960, 0, 1440, 1, .u, .eval⟩,
   ⟨0x0723, 4, false, 5000, 100, 600000, 1, .u, .eval⟩,
   ⟨0x0724, 2, false, 100, 1, 10000, 1, .u, .eval⟩,
   ⟨0x0725, 4, false, 500, 1, 100000, 1, .u, .eval⟩,
   ⟨0x0726, 1, false, 6, 1, 48, 1, .u, .eval⟩,
   ⟨0x0727, 2, false, 60, 10, 3600, 1, .u, .eval⟩,
   ⟨0x0728, 1, false, 7, 0, 90, 1, .u, .eval⟩,
   ⟨0x0729, 2, false, 30, 0, 365, 1, .u, .eval⟩,
   ⟨0x0730, 1, false, 1, 0, 1, 1, .u, .atOnce⟩,
   ⟨0x0731, 2, false, 5, 1, 1000, 1, .u, .atOnce⟩,
   ⟨0x0732, 1, false, 0, 0, 2, 1, .u, .atOnce⟩,
   ⟨0x0733, 4, false, 600, 10, 86400, 1, .u, .atOnce⟩,
   ⟨0x0734, 2, false, 500, 50, 20000, 1, .u, .atOnce⟩,
   ⟨0x0735, 2, false, 60, 0, 1440, 1, .u, .atOnce⟩,
   ⟨0x0736, 2, false, 31, 0, 31, 1, .u, .atOnce⟩]

/-- Class 0x08, ports (11 R274, 16 R392). -/
def prmClass08 : List Prm :=
  [⟨0x0801, 1, false, 0, 0, 1, 1, .u, .atOnce⟩,
   ⟨0x0802, 1, false, 0, 0, 1, 1, .u, .atOnce⟩,
   ⟨0x0803, 1, false, 0, 0, 1, 1, .u, .atOnce⟩,
   ⟨0x0804, 2, false, 0, 0, 65535, 1, .s, .atOnce⟩,
   ⟨0x0805, 2, false, 2, 0, 1000, 1, .u, .atOnce⟩,
   ⟨0x0810, 1, false, 0, 0, 3, 1, .u, .field⟩,
   ⟨0x0811, 4, false, 19200, 1200, 921600, 1, .u, .field⟩,
   ⟨0x0812, 1, false, 0, 0, 3, 1, .u, .field⟩,
   ⟨0x0813, 1, false, 1, 1, 247, 1, .u, .field⟩,
   ⟨0x0814, 1, false, 1, 0, 16, 1, .u, .atOnce⟩,
   ⟨0x0815, 1, false, 1, 0, 16, 1, .u, .atOnce⟩,
   ⟨0x0816, 2, false, 10, 1, 3600, 1, .u, .atOnce⟩,
   ⟨0x0817, 2, false, 60, 10, 3600, 1, .u, .atOnce⟩,
   ⟨0x0820, 2, false, 1000, 0, 65535, 1, .u, .atOnce⟩,
   ⟨0x0821, 2, false, 10, 0, 65535, 1, .u, .atOnce⟩,
   ⟨0x0822, 2, false, 3332, 2332, 3982, 1, .u, .atOnce⟩,
   ⟨0x0830, 1, false, 48, 48, 122, 1, .s, .atOnce⟩,
   ⟨0x0831, 1, false, 1, 0, 1, 1, .u, .atOnce⟩]

/-- Class 0x09, link (12 R307). -/
def prmClass09 : List Prm :=
  [⟨0x0901, 1, false, 1, 0, 1, 1, .u, .atOnce⟩,
   ⟨0x0902, 1, false, 128, 0, 255, 1, .u, .join⟩,
   ⟨0x0903, 1, false, 0, 0, 15, 1, .u, .join⟩,
   ⟨0x0904, 1, false, 20, 2, 200, 1, .u, .atOnce⟩,
   ⟨0x0905, 1, false, 6, 3, 20, 1, .u, .atOnce⟩,
   ⟨0x0906, 2, false, 1000, 200, 4000, 1, .u, .atOnce⟩,
   ⟨0x0907, 1, false, 1, 0, 1, 1, .u, .atOnce⟩]

/-- Class 0x0A, security (13 R340). -/
def prmClass0A : List Prm :=
  [⟨0x0A01, 2, false, 60, 10, 600, 1, .u, .atOnce⟩,
   ⟨0x0A02, 2, false, 60, 5, 1440, 1, .u, .atOnce⟩,
   ⟨0x0A03, 1, false, 2, 0, 2, 1, .ro, .atOnce⟩,
   ⟨0x0A04, 6, false, 0, 0, 0, 1, .ro, .atOnce⟩,
   ⟨0x0A05, 6, false, 0, 0, 0, 1, .ro, .atOnce⟩,
   ⟨0x0A06, 4, false, 0, 0, 0, 1, .ro, .atOnce⟩]

/-- Class 0x0B, tamper (14 R358). -/
def prmClass0B : List Prm :=
  [⟨0x0B01, 1, false, 2, 0, 3, 1, .u, .atOnce⟩,
   ⟨0x0B02, 1, false, 3, 0, 3, 1, .u, .atOnce⟩,
   ⟨0x0B03, 1, false, 1, 1, 3, 1, .u, .atOnce⟩,
   ⟨0x0B04, 1, false, 2, 0, 3, 1, .u, .atOnce⟩,
   ⟨0x0B05, 1, false, 1, 0, 3, 1, .u, .atOnce⟩,
   ⟨0x0B06, 1, false, 1, 0, 3, 1, .u, .atOnce⟩,
   ⟨0x0B07, 1, false, 1, 0, 1, 1, .u, .atOnce⟩,
   ⟨0x0B08, 1, false, 0, 0, 1, 1, .u, .atOnce⟩,
   ⟨0x0B10, 2, false, 4, 1, 4096, 1, .u, .atOnce⟩,
   ⟨0x0B11, 2, false, 2000, 100, 60000, 1, .u, .atOnce⟩,
   ⟨0x0B12, 1, false, 3, 1, 16, 1, .u, .atOnce⟩,
   ⟨0x0B13, 4, false, 2000, 100, 100000, 1, .u, .atOnce⟩,
   ⟨0x0B14, 2, false, 500, 10, 10000, 1, .u, .atOnce⟩,
   ⟨0x0B15, 1, false, 4, 1, 64, 1, .u, .atOnce⟩,
   ⟨0x0B16, 2, false, 60, 1, 3600, 1, .u, .atOnce⟩,
   ⟨0x0B17, 2, false, 2182, 1732, 2732, 1, .u, .atOnce⟩,
   ⟨0x0B18, 2, false, if Config.variantQX then 3982 else 3782, 3232, 4232, 1, .u, .atOnce⟩,
   ⟨0x0B20, 40, false, 0, 0, 0, 1, .wo, .atOnce⟩,
   ⟨0x0B21, 1, false, 0, 0, 63, 1, .wo, .atOnce⟩,
   ⟨0x0B22, 4, false, 0, 0, 0, 1, .ro, .atOnce⟩,
   ⟨0x0B23, 2, false, 0, 0, 0, 1, .ro, .atOnce⟩]

/-- Class 0x0C, timers (08 R192). -/
def prmClass0C : List Prm :=
  [⟨0x0C01, 1, false, 1, 0, 3, 1, .s, .atOnce⟩,
   ⟨0x0C02, 1, false, 1, 0, 3, 1, .s, .atOnce⟩,
   ⟨0x0C03, 1, false, 0, 0, 255, 1, .s, .atOnce⟩,
   ⟨0x0C04, 1, false, 0, 0, 2, 1, .s, .atOnce⟩,
   ⟨0x0C05, 1, false, 0, 0, 15, 1, .u, .atOnce⟩,
   ⟨0x0C10, 4, false, 0, 0, 4294967295, 1, .s, .atOnce⟩,
   ⟨0x0C11, 4, false, 0, 0, 4294967295, 1, .s, .atOnce⟩,
   ⟨0x0C12, 4, false, 0, 0, 4294967295, 1, .s, .atOnce⟩,
   ⟨0x0C13, 4, false, 0, 0, 4294967295, 1, .s, .atOnce⟩]

/-- Class 0x0D, logs (16 R392). -/
def prmClass0D : List Prm :=
  [⟨0x0D01, 4, false, 0, 0, 0, 1, .ro, .atOnce⟩,
   ⟨0x0D02, 1, false, 0, 0, 0, 1, .ro, .atOnce⟩,
   ⟨0x0D03, 1, false, 0, 0, 0, 1, .ro, .atOnce⟩,
   ⟨0x0D04, 2, false, 0, 0, 0, 1, .ro, .atOnce⟩]

/-- Class 0x0E, calibration (07 R168). -/
def prmClass0E : List Prm :=
  [⟨0x0E01, 2, false, 4096, 256, 65535, 1, .u, .cal⟩,
   ⟨0x0E02, 2, false, 64, 4, 1024, 1, .u, .cal⟩]

/-- The default KEY_USE of slot `n` (13 R340). -/
def keyUseDefault (n : Nat) : Nat :=
  if n = 0 then 0x1001 else if n = 1 then 0x0201 else if n = 2 then 0x0401 else if n = 3 then 0x0801 else 0x0101

/-- The listed parameters of a class. -/
def prmClass (c : Nat) : List Prm :=
  match c with
  | 1 => prmClass01
  | 2 => prmClass02
  | 3 => prmClass03
  | 4 => prmClass04
  | 5 => prmClass05
  | 6 => prmClass06
  | 7 => prmClass07
  | 8 => prmClass08
  | 9 => prmClass09
  | 10 => prmClass0A
  | 11 => prmClass0B
  | 12 => prmClass0C
  | 13 => prmClass0D
  | 14 => prmClass0E
  | _ => []

/-- The parameter that an ID names, or none (R386): the arrays PROF_DATA, L, H, KEY_USE and CAL_PAIR by formula, the
others by their tables. -/
def prmOf (id : Nat) : Option Prm :=
  if 0x0220 ≤ id ∧ id ≤ 0x023F then some ⟨id, 128, false, 0, 0, 0, 1, .ro, .atOnce⟩
  else if 0x0640 ≤ id ∧ id ≤ 0x066F then some ⟨id, 4, true, 0x80000000, -100000, 1000000, 1, .u, .bin⟩
  else if 0x0670 ≤ id ∧ id ≤ 0x069F then some ⟨id, 4, false, 0xFFFFFFFF, 0, 1000000, 1, .u, .bin⟩
  else if 0x0A10 ≤ id ∧ id ≤ 0x0A1F then some ⟨id, 2, false, keyUseDefault (id - 0x0A10), 0, 65535, 1, .o, .atOnce⟩
  else if 0x0E80 ≤ id ∧ id ≤ 0x0EAA then
    some ⟨id, 8, false, calNominal (id - 0x0E80) * 2 ^ 32, 0, 0, 1, .o, .atOnce⟩
  else (prmClass (id / 256)).find? fun p => p.id == id

/-- The bytes of a parameter's default (00 R12). -/
def Prm.default (p : Prm) : List Byte := leBytes p.len p.dflt

/-- The bytes of an ID's default; none for an ID that does not exist. -/
def prmDefault (id : Nat) : List Byte :=
  match prmOf id with
  | some p => p.default
  | none => []

/-- The value a parameter's bytes spell, by its signedness (R387). -/
def Prm.value (p : Prm) (b : List Byte) : Int := if p.sgn then signed (8 * p.len) (leNat b) else leNat b

/-- A text parameter: 0 to 16 printable bytes, then zeros (R390). -/
def textOk (b : List Byte) : Bool :=
  (b.dropWhile fun c => decide (0x20 ≤ c.toNat ∧ c.toNat ≤ 0x7E)).all fun c => c == 0

/-- The baud rates of the field port (11 R274). -/
def baudRates : List Nat := [1200, 2400, 4800, 9600, 19200, 38400, 57600, 115200, 230400, 460800, 921600]

/-- An SDI-12 address: "0" to "9", "A" to "Z", "a" to "z" (11 R274). -/
def sdiAddrOk (v : Nat) : Bool := decide ((48 ≤ v ∧ v ≤ 57) ∨ (65 ≤ v ∧ v ≤ 90) ∨ (97 ≤ v ∧ v ≤ 122))

/-- KEY_USE: a function code 1 to 4, the reserved bits 0, and function 0x01 with LINK, AUTH, UNLOCK_U or UNLOCK_O
(13 R330). -/
def keyUseOk (v : Nat) : Bool :=
  decide (1 ≤ v % 16 ∧ v % 16 ≤ 4 ∧ bitsOf v 7 4 = 0 ∧ bitsOf v 15 13 = 0)
    && (decide (v % 16 = 1) || decide (bitsOf v 12 9 = 0))

/-- DARK_WIN: 0, or a start and an end up to 1439 that differ (10 R249). -/
def darkWinOk (v : Nat) : Bool :=
  decide (v = 0 ∨ (v % 65536 ≤ 1439 ∧ v / 65536 ≤ 1439 ∧ v % 65536 ≠ v / 65536))

/-- A calibration pair: OFFSET within ±8 388 608, GAIN within 0.75 to 1.25 times nominal (R392). -/
def calPairOk (k : Nat) (b : List Byte) : Bool :=
  let off := signed 32 (leAt b 0 4)
  let gain := leAt b 4 4
  decide (-8388608 ≤ off ∧ off ≤ 8388608 ∧ 3 * calNominal k ≤ 4 * gain ∧ 4 * gain ≤ 5 * calNominal k)

/-- A value of the right length lies inside its parameter's range (00 R13). -/
def Prm.inRange (p : Prm) (b : List Byte) : Bool :=
  if 0x0108 ≤ p.id ∧ p.id ≤ 0x010A then textOk b
  else if p.id = 0x0811 then baudRates.contains (leNat b)
  else if p.id = 0x0830 then sdiAddrOk (leNat b)
  else if p.id = 0x0804 then decide (bitsOf (leNat b) 13 8 = 0 ∧ leNat b < 32768)
  else if p.id = 0x0607 then darkWinOk (leNat b)
  else if 0x0A10 ≤ p.id ∧ p.id ≤ 0x0A1F then keyUseOk (leNat b)
  else if 0x0E80 ≤ p.id ∧ p.id ≤ 0x0EAA then calPairOk (p.id - 0x0E80) b
  else if p.id = 0x0B20 then true
  else decide (p.lo ≤ p.value b ∧ p.value b ≤ p.hi ∧ p.value b % (p.step : Int) = 0)

/-! ## Values -/

/-- The committed bytes of an ID, or its default (R12). -/
def Par.committedOf (p : Par) (id : Nat) : List Byte :=
  match sparseGet [] p.committed id with
  | [] => prmDefault id
  | b => b

/-- The value in force of an ID: pending, else committed, else its default (R388; 15 R365). -/
def Par.latest (p : Par) (id : Nat) : List Byte :=
  match p.pending.find? (fun e => e.id == id) with
  | some e => e.value
  | none => p.committedOf id

/-- The moment of effect of an ID. -/
def momentOf (id : Nat) : Moment :=
  match prmOf id with
  | some p => p.mom
  | none => .atOnce

/-- The bytes of an ID that the part acts on (R388): the value in force for a parameter that takes effect at once, else
the value that its moment last applied. -/
def Par.applied (p : Par) (id : Nat) : List Byte :=
  if momentOf id = .atOnce then p.latest id
  else
    match sparseGet [] p.force id with
    | [] => prmDefault id
    | b => b

/-- Apply bytes to an ID. -/
def Par.setForce (p : Par) (id : Nat) (b : List Byte) : Par :=
  { p with force := sparseSet [] id (if b = prmDefault id then [] else b) p.force }

/-- The IDs that hold a value other than by default. -/
def Par.ids (p : Par) : List Nat := p.force.map (·.1) ++ p.committed.map (·.1) ++ p.pending.map (·.id)

/-- Apply a moment: every parameter of that moment takes its value in force (R388). -/
def Par.applyMoment (m : Moment) (p : Par) : Par :=
  (p.ids.filter fun id => momentOf id == m).foldl (fun q id => q.setForce id (p.latest id)) p

/-- Apply every moment, as Pour does: each parameter takes its value in force, those of the field port their committed one
(R388, R391; 11 R274). -/
def Par.applyAll (p : Par) : Par :=
  p.ids.foldl (fun q id => q.setForce id (if momentOf id = .field then p.committedOf id else p.latest id)) p

/-- The items of a configuration block: ID and 4-byte value (12 R299). -/
def cfgItems (b : List Byte) : List (Nat × Nat) :=
  (List.range (byteAt b 4)).map fun i => (leAt b (8 + 6 * i) 2, leAt b (10 + 6 * i) 4)

/-- The part is an active Star that holds an adopted block while CONFIG_SPLIT is clear, so the block's values are in
force (12 R301). -/
def cfgActive (s : State) : Bool :=
  (s.link.role == .member || s.link.role == .pole) && s.start.stage == .cast && !s.link.split

/-- The value the adopted block gives an ID, where it is in force and covers it (12 R301). -/
def cfgValue (s : State) (id : Nat) : Option Nat :=
  match s.link.cfg with
  | none => none
  | some b => if cfgActive s then ((cfgItems b).find? fun it => it.1 == id).map (·.2) else none

/-- The value of a parameter that the part acts on, as a natural number: the adopted block's where it covers the ID
(12 R301). -/
def prm (s : State) (id : Nat) : Nat :=
  match cfgValue s id with
  | some v => v
  | none => leNat (s.par.applied id)

/-- The value in force of a parameter as a natural number, applied or not. -/
def prmLatest (s : State) (id : Nat) : Nat := leNat (s.par.latest id)

/-- The value in force of a parameter: the adopted block's where it covers the ID (12 R301), else the latest (R388). -/
def prmForce (s : State) (id : Nat) : Nat :=
  match cfgValue s id with
  | some v => v
  | none => prmLatest s id

/-- Put a value into the pending table: a new entry, or a new value of an entry, without a mark (15 R365). -/
def Par.setPending (p : Par) (id : Nat) (b : List Byte) : Par :=
  if p.pending.any (fun e => e.id == id) then
    { p with pending := p.pending.map fun e => if e.id = id then ⟨id, b, none⟩ else e }
  else { p with pending := p.pending ++ [⟨id, b, none⟩] }

/-- The body words of a value (15 R362: padded with 0 to words). -/
def bodyWords (id : Nat) : Nat :=
  match prmOf id with
  | some p => (p.len + 3) / 4
  | none => 0

/-- Whether the pending table has room for these IDs: at most 64 IDs and 256 body words (15 R365). -/
def Par.hasRoom (p : Par) (ids : List Nat) : Bool :=
  let all := (p.pending.map (·.id) ++ ids).dedup
  decide (all.length ≤ 64 ∧ (all.map bodyWords).sum ≤ 256)

/-- Discard the pending value of an ID: it returns in force to its committed value or default (15 R365; the field-port
settings, which wait for idleness, stay as they are, 11 R274). -/
def Par.revert (p : Par) (id : Nat) : Par :=
  if p.pending.any (fun e => e.id == id) then
    let q := { p with pending := p.pending.filter fun e => e.id != id }
    if momentOf id = .field ∨ momentOf id = .atOnce then q else q.setForce id (p.committedOf id)
  else p

/-! ## Checks over several parameters -/

/-- The chemistry code of a profile slot (09 R201), none for an empty slot. -/
def profChem (s : State) (slot : Nat) : Option Nat := (s.gauge.profiles.toList.getD slot none).map fun b => byteAt b 0

/-- The number of set bits among the low eight. -/
def popcount8 (v : Nat) : Nat := ((List.range 8).map fun i => v / 2 ^ i % 2).sum

/-- A list falls strictly. -/
def falls : List Nat → Bool
  | a :: b :: r => decide (a > b) && falls (b :: r)
  | _ => true

/-- The combination of protocol, rate and frame the field port allows: NMEA runs at 4800 or 38 400 baud in 8N1 (11 R270). -/
def fieldComboOk (g : Nat → Nat) (hit : Nat → Bool) : Bool :=
  (!hit 0x810 && !hit 0x811 && !hit 0x812) || decide (g 0x810 ≠ 2 ∨ ((g 0x811 = 4800 ∨ g 0x811 = 38400) ∧ g 0x812 = 0))

/-- The relations a SET may not break, judged on the values `g` that would stand (06 R135, 09 R202, R203, R224,
10 R249, 14 R358, 11 R270); `hit` says which IDs the packet carries. -/
def relationsOk (s : State) (g : Nat → Nat) (hit : Nat → Bool) : Bool :=
  ((!hit 0x310 && !hit 0x312) || decide (g 0x310 < g 0x312))
  && ((!hit 0x313 && !hit 0x315) || decide (g 0x313 < g 0x315))
  && (!hit 0x501 || (match profChem s (g 0x501) with | some c => decide (c < 0x10) | none => false))
  && (!hit 0x502 || (match profChem s (g 0x502) with | some c => decide (0x10 ≤ c) | none => false))
  && ((!hit 0x504 && !hit 0x505) || decide (popcount8 (Nat.lor (g 0x504) (g 0x505)) ≤ 3))
  && ((!hit 0x531 && !hit 0x532) || decide (g 0x531 < g 0x532))
  && ((!hit 0x701 && !hit 0x702 && !hit 0x703) || falls ([g 0x701, g 0x702, g 0x703].filter fun v => v != 0))
  && ((!hit 0x712 && !hit 0x713) || decide (g 0x713 < g 0x712))
  && ((!hit 0x721 && !hit 0x722) || decide (g 0x721 < g 0x722))
  && ((!hit 0xB13 && !hit 0xB14) || decide (g 0xB14 < g 0xB13))
  && fieldComboOk g hit

/-- ACC_PORT_FIRST below 28 and GLINT_EN at 1 exclude each other, in force or pending (07 R152, 09 R224). -/
def glintPortOk (s : State) (g : Nat → Nat) (hit : Nat → Bool) : Bool :=
  (!hit 0x442 || decide (28 ≤ g 0x442 ∨ (g 0x520 = 0 ∧ prm s 0x520 = 0)))
  && (!hit 0x520 || decide (g 0x520 = 0 ∨ (28 ≤ g 0x442 ∧ 28 ≤ prm s 0x442)))

/-- The values that would stand after a packet that carries these items (ID, bytes). -/
def overlay (s : State) (items : List (Nat × List Byte)) (id : Nat) : Nat :=
  match (items.reverse.find? fun it => it.1 == id) with
  | some it => leNat it.2
  | none => prmLatest s id

/-- The values of a SET or SET_BULK lie inside their ranges and keep the relations (R13, step 12 of R54). -/
def itemsInRange (s : State) (items : List (Nat × List Byte)) : Bool :=
  (items.all fun it => match prmOf it.1 with | some p => p.inRange it.2 | none => false)
  && relationsOk s (overlay s items) (fun id => items.any fun it => it.1 == id)
  && glintPortOk s (overlay s items) (fun id => items.any fun it => it.1 == id)

end Sys2Proof.Machine
end

