-- ==== Sys2Proof/Machine/Ops.lean ====
section
/-! DEFINITION. The shared operations: free values, clocks and modes as predicates, log entries, the passing of time
(base, compares, countdowns, RTC, residency), and the start of a wake. -/

namespace Sys2Proof.Machine

/-- The outcome type of a command. -/
abbrev Out := Host.Outcome State Fault Refusal

/-! ## Free values (assumption log 2) -/

/-- Draw a free natural number. -/
def drawNat (s : State) : Nat × State := (Config.freeNat s.drawn, { s with drawn := s.drawn + 1 })

/-- Draw a free rational number. -/
def drawRat (s : State) : Rat × State := (Config.freeRat s.drawn, { s with drawn := s.drawn + 1 })

/-! ## Clocks and modes -/

/-- The supply is present and NRST is high, so the logic is not held in reset (04 R76, 05 R107). -/
def live (s : State) : Bool := s.pwr.powered && !s.pwr.nrstLow

/-- Lode runs: the Lode domains have edges (R37). -/
def lodeOn (s : State) : Bool := s.clk.lode == .on

/-- TMR runs: Lode runs and no debug halt is in force (R37, R174). -/
def tmrRuns (s : State) : Bool := lodeOn s && !s.clk.halt

/-- The part is in Watch, Watch-L or Doze (R112). -/
def lowPower (s : State) : Bool := s.pwr.mode != .run

/-- The part is in Watch or Watch-L. -/
def inWatch (s : State) : Bool := s.pwr.mode == .watch || s.pwr.mode == .watchL

/-- The stage as a number (R77). -/
def Stage.code : Stage → Nat
  | .ember => 0
  | .melt => 1
  | .pour => 2
  | .cast => 3

/-- The stage has been reached. -/
def atLeast (s : State) (g : Stage) : Bool := decide (g.code ≤ s.start.stage.code)

/-- The base the part stamps with (R34). -/
def now (s : State) : Nat := s.tmr.base

/-- A DMA transfer into a context runs (13 R320). -/
def dmaRuns (s : State) (c : Ctx) : Bool := match c.dmaEnd with | some t => decide (now s < t) | none => false

/-- The boot sequencer computes the ROM digest in context 0: from the epoch until the cores are released (04 R85, R87). -/
def romDigestRuns (s : State) : Bool :=
  s.clk.lode == .on && s.start.stage == .ember && !s.start.released && decide (s.start.romFails < 2)

/-- An operation of the digest engine computes in its slot (13 R314, R321, R324, R325). -/
def Oper.computes (o : Oper) : Bool :=
  (o.op == .dgDesc || o.op == .dgExport || o.op == .dgImport) && !o.waiting && o.final.isNone

/-- A digest context computes: a DMA transfer, an operation on it, or the digest of the ROM (R113). -/
def digestRuns (s : State) : Bool :=
  s.sec.ctx.toList.any (dmaRuns s) || romDigestRuns s
    || s.sprue.slots.toList.any fun x => match x with | some o => o.computes | none => false

/-- Replace element `i` of a vector; nothing beyond its end. -/
def vset {α : Type} {n : Nat} (v : Vector α n) (i : Nat) (x : α) : Vector α n := v.setIfInBounds i x

/-- Element `i` of a vector, or a value beyond its end. -/
def vget {α : Type} {n : Nat} (v : Vector α n) (i : Nat) (d : α) : α := v.getD i d

/-- Ticks in a millisecond and in a second of the base (R71). -/
def msTicks (n : Nat) : Nat := n * 8192
def secTicks (n : Nat) : Nat := n * 8192000

/-! ## When the link transmits (12 R276 to R296)

The transmitter is on 44 µs before a frame's B1 begins, so its instant must be known ahead. -/

/-- Microseconds in LINK ticks: the floor of 51.2 to the µs (R276). -/
def linkTicks (us : Nat) : Nat := us * 512 / 10

/-- A link time in ticks of the base, 6.25 LINK ticks to each (R276). -/
def usTicks (us : Nat) : Nat := linkTicks us * 4 / 25

/-- The types whose first burst has the long preamble (R279). -/
def longPre (typ : Nat) : Bool := decide (3 ≤ typ ∧ typ ≤ 8)

/-- The length of a burst in µs from its preamble symbols and its payload length (R277). -/
def burstUs (pre len : Nat) : Nat := (pre + 2) * 8 + (22 + len) * 32

/-- The preamble symbols of the first and of the second burst (R277). -/
def preSyms (typ : Nat) (second : Bool) : Nat := if longPre typ && !second then 4096 else 6

/-- The time from the start of B1 to the end of B2 in µs (R277). -/
def frameUs (typ len : Nat) : Nat := burstUs (preSyms typ false) len + 96 + burstUs 6 len

/-- The ticks from the start of B1 to the end of B2. -/
def frameTicks (typ len : Nat) : Nat := usTicks (frameUs typ len)

/-- A beacon period: 1.000 s of the own base (R294). -/
def period : Nat := 8192000

/-- Key slot `n`. -/
def keyAt (s : State) (n : Nat) : KeySlot := vget s.sec.keys n KeySlot.empty

/-- A slot is loaded for a function. -/
def slotReady (s : State) (slot : Nat) : Bool := (keyAt s slot).state == .loaded

/-- A member of a constellation: listed, or the Pole (R305). -/
def isMember (s : State) : Bool := s.link.role == .member || s.link.role == .pole

/-- LINK_EN. -/
def linkEn (s : State) : Bool := prm s 0x0901 == 1

/-- The transmit counter has reached the reservation in force, or its end: TX_HALT (R288). -/
def txHalt (s : State) : Bool := decide (s.link.ctrRes ≤ s.link.ctr) || decide (0xFFFFFFFF ≤ s.link.ctr)

/-- A LEAVE frame or the last beacon of a Pole that leaves still waits to be sent (R304, R307; 05 R111). -/
def linkLeaving (s : State) : Bool :=
  s.link.leaving || s.link.txq.any fun f => f.typ == 5 || (f.typ == 1 && s.link.role == .silent)

/-- The part may transmit (R42, R97, R288, R291, R307, R313; 05 R109). -/
def canTx (s : State) : Bool :=
  atLeast s .cast && lodeOn s && !s.clk.halt && !s.clk.onLfrc && slotReady s s.link.keySlot && !txHalt s
    && !s.pwr.bow && s.link.sending.isNone && ((linkEn s && s.link.role != .silent) || linkLeaving s)

/-- Own roster entry: 15 for the Pole, none off the roster. -/
def ownEntry (s : State) : Option Nat :=
  if s.link.role = .pole then some 15
  else s.link.roster.findIdx? fun x => x == prm s 0x0101

/-- The start of the period around a base value: `r` is the last reference, whose successors may have been missed
(R294, R296). -/
def periodAt (r t : Nat) : Nat := r + (t - r) / period * period

/-- The length of a waiting frame's payload; a JOIN is formed at its start. -/
def TxFrame.len (f : TxFrame) : Nat := if f.typ = 3 then 24 else f.payload.length

/-- The instant at which a CSMA frame starts its B1 if the medium is idle (R284): the delay of its priority and back-off from
its reference. Frames wait for the CSMA part of the period, which opens at 90 ms, and end by 990 ms; without a reference
there is no period to keep. That a frame which waits for the opening counts its delay from there is DEDUCED (assumption log
142). -/
def csmaDue (s : State) (f : TxFrame) : Nat :=
  let delay := usTicks (48 * (f.prio + 1 + 8 * f.back))
  let t := max f.readyAt s.link.idleAt
  match s.link.refAt with
  | none => t + delay
  | some r =>
    let d := max t (periodAt r t + msTicks 90) + delay
    if d + frameTicks f.typ f.len ≤ periodAt r t + msTicks 990 then d else periodAt r t + period + msTicks 90 + delay

/-- The instants at which the part would next start a frame: of CSMA, a stopped frame that it may send again, the beacon of
a Pole, a report, the first beacon of a founder or of a successor (R284, R286, R291, R294 to R296; 05 R111). -/
def linkStarts (s : State) : List Nat :=
  let own := match s.link.role, s.link.refAt with
    | .pole, some r =>
      s.link.beaconAt :: (if s.link.sentBn = some s.link.bn then [] else [r + msTicks (11 + 5 * 15)])
    | .pole, none => [s.link.beaconAt]
    | .member, some r =>
      match ownEntry s with
      | some i => if s.link.poleLost then [r + (4 + i) * period]
        else if s.link.sentBn = some s.link.bn then [] else [r + msTicks (11 + 5 * i)]
      | none => []
    | .listening, _ =>
      if s.link.heard then [] else [s.link.listenAt + 2 * period + prm s 0x0101 % 8 * msTicks 125]
    | _, _ => []
  own ++ s.link.txq.map fun f => if f.typ ≤ 2 then f.readyAt else csmaDue s f

/-- The transmitter's lead before a B1 that is about to start (R277). -/
def txLead (s : State) : Bool :=
  canTx s && (linkStarts s).any fun d => decide (now s < d ∧ d ≤ now s + usTicks 44)

/-- The transmitter is enabled: TX_ON (R277; 16 R385). -/
def txOn (s : State) : Bool := s.link.txEnd.isSome || txLead s

/-- The digest datapath computes or the link transmitter is on (R113). -/
def bursting (s : State) : Bool := txOn s || digestRuns s

/-- The AON edge at or after a base value. -/
def upAon (t : Nat) : Nat := (t + 249) / 250 * 250

/-- The SLOW edge at or after a base value. -/
def upSlow (t : Nat) : Nat := (t + 1999) / 2000 * 2000

/-- The base value at which the base stands from CBM edge `k` of tick 0 on (R30, R36). -/
def cbmAt (k : Nat) : Nat := (250 * k + 15) / 16

/-- The CBM edges from tick 0 up to a base value. -/
def cbmCount (t : Nat) : Nat := 16 * t / 250

/-- The CBM edge at or after a base value. -/
def upCbm (t : Nat) : Nat := cbmAt ((16 * t + 249) / 250)

/-- The edge at or after `t` of a grid of period `p` that has an edge at `r`. -/
def upGrid (p r t : Nat) : Nat := t + (p - (t + p - r % p) % p) % p

/-- The edges of that grid after `a`, up to `t`. -/
def gridEdges (p r a t : Nat) : Nat := (t + p - r % p) / p - (a + p - r % p) / p

/-- The base value that an event of CBM edge `k` is stamped with: the last TMR edge at or before it (R34). -/
def cbmStamp (k : Nat) : Nat := 250 * k / 16

/-- The edge of the base clock at or after a base value: a TMR edge while TMR runs, an AON edge otherwise (08 R174). -/
def edgeFor (s : State) (t : Nat) : Nat := if tmrRuns s then t else upAon t

/-- The next edge of the base clock, at which a write to TMR takes effect (08 R174, R177; assumption log 10). -/
def nextEdge (s : State) : Nat := if tmrRuns s then now s + 1 else (now s / 250 + 1) * 250

/-! ## Log (14_tamper_quench.md R353, R354) -/

/-- The types of tamper entries (R353). -/
def tamperTyp (t : Nat) : Bool := decide (0x40 ≤ t ∧ t ≤ 0x46)

/-- The flags of an entry raised now: RTC_VALID, coarse stamp, and bit 3 where no Forge core runs (R354). -/
def logFlags (s : State) : Nat :=
  bit s.tmr.rtcValid + 2 * bit (!tmrRuns s) + 8 * bit (!s.start.released || inWatch s)

/-- Put an entry into the buffer of 32: a full buffer displaces its oldest entry that is not a tamper entry, or drops
the new one (R353). -/
def logPush (s : State) (e : LogEnt) : State :=
  if s.tamp.logWait.length < 32 then { s with tamp := { s.tamp with logWait := s.tamp.logWait ++ [e] } }
  else
    let drop := satTo 65535 (s.tamp.logDrop + 1)
    match s.tamp.logWait.findIdx? (fun x => !tamperTyp x.typ) with
    | some i => { s with tamp := { s.tamp with logWait := s.tamp.logWait.eraseIdx i ++ [e], logDrop := drop } }
    | none => { s with tamp := { s.tamp with logDrop := drop } }

/-- Raise an entry now with a given type, origin and data; it takes its index when it is committed (R353). -/
def logRaise (typ origin : Nat) (data : List Byte) (s : State) : State :=
  logPush s ⟨0, now s, s.tmr.rtcSec, s.start.lifeAon, typ, origin, logFlags s, s.start.stage.code, padTo 32 data⟩

/-- The origin of an entry that no packet caused (R353). -/
def noPacket : Nat := 0x0F

/-- Raise an entry that no packet caused. -/
def logEvent (typ : Nat) (data : List Byte) (s : State) : State := logRaise typ noPacket data s

/-! ## Compare channels (08 R177 to R179) -/

/-- The fields of a compare mode byte (R179). -/
def cmpEn (m : BitVec 8) : Bool := m.getLsbD 0
def cmpReload (m : BitVec 8) : Bool := m.getLsbD 1
def cmpTout (m : BitVec 8) : Nat := bitsOf m.toNat 3 2
def cmpWake (m : BitVec 8) : Bool := m.getLsbD 4

/-- The increment of channel `n`: CMPn_INC, or one lap where it is 0 (R178); the firmware's channel 4 steps the model
every second (09 R193), its channel 5 the Almanac every ALM_PERIOD (10 R225). -/
def cmpInc (s : State) (n : Nat) : Nat :=
  if n = 4 then 8192000
  else if n = 5 then 8192000 * prm s 0x0601
  else if n < 4 ∧ prm s (0x0C10 + n) ≠ 0 then prm s (0x0C10 + n)
  else 2 ^ 32

/-- The target of a value that takes effect with the base at `e` (R177). -/
def cmpTarget (e v : Nat) : Nat := e + (v + 2 ^ 32 - e % 2 ^ 32 - 1 + 2 ^ 32) % 2 ^ 32 + 1

/-- How often an armed channel has fired by base value `t`, an AON edge in coarse counting (R178). -/
def cmpFires (coarse reload : Bool) (inc target t : Nat) : Nat :=
  if t < target then 0
  else if !reload then 1
  else if !coarse || decide (250 ≤ inc) then 1 + (t - target) / inc
  else (t - upAon target) / 250 + 1

/-- The base value of the last of the firings by `t`. -/
def cmpLast (coarse reload : Bool) (inc target t : Nat) : Nat :=
  let last := if reload then target + (t - target) / inc * inc else target
  if !coarse then last else if reload && decide (inc < 250) then t / 250 * 250 else upAon last

/-- The overshoot at the last firing (R178 LATE). -/
def cmpLateAt (coarse reload : Bool) (inc target t : Nat) : Nat :=
  if !coarse then 0
  else
    let e := cmpLast coarse reload inc target t
    if !reload || decide (e < target + 250) then e - target
    else e - (target + ((e - 250 - target) / inc + 1) * inc)

/-- A channel at base value `t`: fired, reloaded or disarmed (R178). -/
def cmpPass (coarse : Bool) (inc t : Nat) (c : Cmp) : Cmp :=
  let reload := cmpReload c.mode
  let fires := cmpFires coarse reload inc c.target t
  if !cmpEn c.mode || fires == 0 then c
  else
    let matches_ := if reload then 1 + (t - c.target) / inc else 1
    { c with
      fired := true
      firedAt := cmpLast coarse reload inc c.target t
      match_ := satTo 65535 (c.match_ + fires)
      missed := satTo 255 (c.missed + (matches_ - fires))
      late := cmpLateAt coarse reload inc c.target t
      target := if reload then c.target + matches_ * inc else c.target
      mode := if reload then c.mode else c.mode &&& 0xFE }

/-! ## Countdown counters (08 R180 to R184) -/

/-- The fields of a countdown source byte (R183). -/
def cdnSrc (m : BitVec 8) : Nat := bitsOf m.toNat 2 0
def cdnTout (m : BitVec 8) : Nat := bitsOf m.toNat 4 3
def cdnWake (m : BitVec 8) : Bool := m.getLsbD 5
def cdnRestart (m : BitVec 8) : Bool := m.getLsbD 6

/-- The divisor D of the settings in force (R181). -/
def Cdn.d (c : Cdn) : Nat := 256 * c.actN + c.actF

/-- Source edges of a clocked source between two base values (R180); none for SAR-done and TIN. -/
def srcEdges (src b0 b1 : Nat) : Nat :=
  if src = 0 then b1 - b0
  else if src = 1 then 16 * b1 / 250 - 16 * b0 / 250
  else if src = 2 then b1 / 250 - b0 / 250
  else 0

/-- The base value at which the `m`-th source edge after `b0` falls, `m` at least 1. -/
def srcEdgeAt (src b0 m : Nat) : Nat :=
  if src = 0 then b0 + m
  else if src = 1 then (250 * (16 * b0 / 250 + m) + 15) / 16
  else 250 * (b0 / 250 + m)

/-- Source edges that the next zero tick needs (R181, R182). -/
def Cdn.edgesToZero (c : Cdn) : Nat := (c.v * c.d - c.p + 255) / 256

/-- The zero ticks of `m` counted source edges without a change of settings, by the arithmetic of R184. -/
def Cdn.zeros (c : Cdn) (m : Nat) : Nat :=
  let k := (c.p + 256 * m) / c.d
  if c.v = 0 ∨ k < c.v then 0 else if c.buf = 0 then 1 else 1 + (k - c.v) / c.buf

/-- A counter after `m` source edges without a change of settings (R181, R184); a counter that stops keeps the P it
has after the `e` edges counted when it stops. -/
def Cdn.count (c : Cdn) (m e : Nat) : Cdn :=
  let k := (c.p + 256 * m) / c.d
  if c.v = 0 then c
  else if k < c.v then { c with v := c.v - k, p := (c.p + 256 * m) % c.d }
  else
    { c with
      v := if c.buf = 0 then 0 else c.buf - (k - c.v) % c.buf
      p := if c.buf = 0 then (c.p + 256 * e) % c.d else (c.p + 256 * m) % c.d
      zero := true
      zcount := satTo 65535 (c.zcount + c.zeros m) }

/-- The zero tick at which written settings come into force (R183): P clears and everything written applies. -/
def Cdn.applyAtZero (c : Cdn) : Cdn :=
  { c with
    v := c.buf, p := 0, actN := c.n, actF := c.f, actSrc := c.src, dirty := false, zero := true
    zcount := satTo 65535 (c.zcount + 1) }

/-- The base value of the next zero tick of a counter with a clocked source: an AON edge in coarse counting. -/
def Cdn.zeroAt (coarse : Bool) (b0 : Nat) (c : Cdn) : Nat :=
  let t := srcEdgeAt (cdnSrc c.actSrc) b0 c.edgesToZero
  if coarse then upAon t else t

/-- Source edges counted when a counter stops: up to the zero tick, in coarse counting up to its AON edge (R184). -/
def Cdn.stopEdges (coarse : Bool) (b0 : Nat) (c : Cdn) : Nat :=
  if coarse then srcEdges (cdnSrc c.actSrc) b0 (c.zeroAt coarse b0) else c.edgesToZero

/-- The counter has a clocked source and runs. -/
def Cdn.clocked (c : Cdn) : Bool := decide (cdnSrc c.actSrc ≤ 2) && decide (c.v ≠ 0)

/-- A counter at base value `t`, with the zero ticks on the way; settings that wait take effect at the first of them
(R183). -/
def Cdn.pass (coarse : Bool) (b0 t : Nat) (c : Cdn) : Cdn × Nat :=
  if !c.clocked then (c, 0)
  else
    let m := srcEdges (cdnSrc c.actSrc) b0 t
    let z := c.zeros m
    if z = 0 ∨ !c.dirty then (c.count m (c.stopEdges coarse b0), z)
    else
      let t1 := c.zeroAt coarse b0
      let c1 := c.applyAtZero
      if !c1.clocked then (c1, 1)
      else
        let m1 := srcEdges (cdnSrc c1.actSrc) t1 t
        (c1.count m1 (c1.stopEdges coarse t1), 1 + c1.zeros m1)

/-- The base value of the last zero tick by `t`, where there is one. -/
def Cdn.lastZero (coarse : Bool) (b0 t : Nat) (c : Cdn) : Nat :=
  let lastOf (b : Nat) (c : Cdn) : Nat :=
    let z := c.zeros (srcEdges (cdnSrc c.actSrc) b t)
    let e := ((c.v + (z - 1) * c.buf) * c.d - c.p + 255) / 256
    srcEdgeAt (cdnSrc c.actSrc) b e
  let t1 := c.zeroAt coarse b0
  let c1 := c.applyAtZero
  let r :=
    if !c.dirty then lastOf b0 c
    else if c1.clocked && decide (0 < c1.zeros (srcEdges (cdnSrc c1.actSrc) t1 t)) then lastOf t1 c1 else t1
  if coarse then upAon r else r

/-- A counter after `pass`, with the edge of its last zero tick (00 R9). -/
def Cdn.passed (coarse : Bool) (b0 t : Nat) (c : Cdn) : Cdn :=
  let r := c.pass coarse b0 t
  if r.2 = 0 then r.1 else { r.1 with zeroedAt := c.lastZero coarse b0 t }

/-! ## TOUT (08 R188) -/

/-- `n` applications of a TOUT action to a level: 0 none, 1 high, 2 low, 3 toggle (R179, R183). -/
def toutAct (action n : Nat) (level : Bool) : Bool :=
  if n = 0 ∨ action = 0 then level
  else if action = 1 then true
  else if action = 2 then false
  else if n % 2 = 1 then !level else level

/-- The level a pin has before anything acts on it: the level left by the last action, or the idle level of TOUT_EN
(R188). -/
def toutBase (s : State) (pin : Nat) (t : Tout) : Bool :=
  if t.acted then t.level else decide (prm s 0x0C05 / 2 ^ (2 + pin) % 2 = 1)

/-- The TOUT_EN bit of a pin (R188, R192). -/
def toutEnabled (s : State) (pin : Nat) : Bool := decide (prm s 0x0C05 / 2 ^ pin % 2 = 1)

/-- The edge before one at which the base stands: the AON edge before it in coarse counting. -/
def edgeBefore (coarse : Bool) (t : Nat) : Nat := if coarse then t - 250 else t - 1

/-- The level of a pin after the compare channel `c` and the countdown `d` ran from `b0` to `t`, none where neither acted:
their actions in the order of their edges, the compare first at one edge (R188). -/
def toutActed (coarse : Bool) (inc b0 t : Nat) (c : Cmp) (d : Cdn) (base : Bool) : Option Bool :=
  let ca := cmpTout c.mode
  let da := cdnTout d.src
  let reload := cmpReload c.mode
  let nC := if cmpEn c.mode then cmpFires coarse reload inc c.target t else 0
  let nD := (d.pass coarse b0 t).2
  let tC := cmpLast coarse reload inc c.target t
  let tD := d.lastZero coarse b0 t
  let acts := (decide (0 < nC) && ca != 0) || (decide (0 < nD) && da != 0)
  let setC := ca == 1 || ca == 2
  let setD := da == 1 || da == 2
  let level :=
    if setC && decide (0 < nC) && setD && decide (0 < nD) then (if tC ≤ tD then da == 1 else ca == 1)
    else if setC && decide (0 < nC) then toutAct da (nD - (d.pass coarse b0 (edgeBefore coarse tC)).2) (ca == 1)
    else if setD && decide (0 < nD) then
      toutAct ca (nC - (if cmpEn c.mode then cmpFires coarse reload inc c.target tD else 0)) (da == 1)
    else toutAct da nD (toutAct ca nC base)
  if acts then some level else none

/-- An enabled pin after the timers ran from `b0` to `t` (R188): an action shows at the TMR edge after its own, in coarse
counting at its own edge. What acts on a pin that is not driven leaves its idle level to come. -/
def toutPass (on coarse : Bool) (inc b0 t : Nat) (c : Cmp) (d : Cdn) (base : Bool) (p : Tout) : Tout :=
  if !on then p
  else
    match toutActed coarse inc b0 t c d base with
    | none => { p with shown := none }
    | some l =>
      let before := (toutActed coarse inc b0 (t - 1) c d base).getD base
      ⟨l, true, if coarse || before == l then none else some before⟩

/-! ## RTC (08 R189, R190) -/

/-- The AON ticks between slew adjustments (R190). -/
def slewPeriod (slew : Int) : Nat := (2000000 + slew.natAbs) / (2 * slew.natAbs)

/-- Slew adjustments due by base value `t`. -/
def slewCount (t : Nat) (r : Tmr) : Nat :=
  if r.rtcSlew = 0 then 0 else (t / 250 - r.slewAt / 250) / slewPeriod r.rtcSlew

/-- The RTC after the AON edges up to `t`, with the counts that the slew inserts or withholds (R189, R190). -/
def rtcPass (t : Nat) (r : Tmr) : Tmr :=
  let k := slewCount t r
  let ticks : Int := r.rtcSub + (t / 250 - r.base / 250 : Nat) + (if 0 < r.rtcSlew then (k : Int) else -(k : Int))
  let total : Int := 32768 * r.rtcSec + ticks
  { r with
    rtcSec := (total / 32768 % 2 ^ 32).toNat
    rtcSub := (total % 32768).toNat
    slewAt := if r.rtcSlew = 0 then r.slewAt else r.slewAt + 250 * slewPeriod r.rtcSlew * k }

/-! ## Passing time -/

/-- Add AON edges to the residency counter of the mode (05 R122). -/
def resPass (s : State) (a : Nat) : Pwr :=
  let p := s.pwr
  if s.clk.lode != .off then
    if bursting s then { p with resBurst := (p.resBurst + a) % 2 ^ 48 }
    else { p with resRun := (p.resRun + a) % 2 ^ 48 }
  else if p.mode = .watchL then { p with resWatchL := (p.resWatchL + a) % 2 ^ 48 }
  else if p.mode = .doze then { p with resDoze := (p.resDoze + a) % 2 ^ 48 }
  else { p with resWatch := (p.resWatch + a) % 2 ^ 48 }

/-- The timer block at base value `t` (R173 to R190). -/
def tmrPass (s : State) (t : Nat) : Tmr :=
  let coarse := !tmrRuns s
  let r := rtcPass t s.tmr
  let wd := if s.start.released && !s.clk.halt then t / 250 - s.tmr.base / 250 else 0
  let stepped := coarse && decide (s.tmr.base / 250 < t / 250)
  let c (n : Nat) : Cmp := s.tmr.cmp.toList.getD n Cmp.reset
  let d (n : Nat) : Cdn := s.tmr.cdn.toList.getD n Cdn.reset
  let b0 := s.tmr.base
  { r with
    base := t
    coarseInt := r.coarseInt || stepped, coarseHost := r.coarseHost || stepped
    coarseField := r.coarseField || stepped, coarseLink := r.coarseLink || stepped
    coarseDbg := r.coarseDbg || stepped
    coarseAt := if stepped then t else r.coarseAt
    shadow0 := match r.sbCap with | some e => if e ≤ t then e else r.shadow0 | none => r.shadow0
    sbCap := r.sbCap.filter fun e => decide (t < e)
    wdA := min 65536 (r.wdA + wd)
    wdB := min 65536 (r.wdB + wd)
    cmp := s.tmr.cmp.mapIdx fun n c => cmpPass coarse (cmpInc s n) t c
    cdn := s.tmr.cdn.map fun d => d.passed coarse b0 t
    tout0 := toutPass (toutEnabled s 0) coarse (cmpInc s 0) b0 t (c 0) (d 0) (toutBase s 0 s.tmr.tout0) s.tmr.tout0
    tout1 := toutPass (toutEnabled s 1) coarse (cmpInc s 1) b0 t (c 1) (d 1) (toutBase s 1 s.tmr.tout1) s.tmr.tout1 }

/-- Time passes to base value `t` with the clocks and the transmitter as they are; while TMR is stopped, to the AON edge
at or after it (08 R174). -/
def passClocks (t : Nat) (s : State) : State :=
  let e := edgeFor s t
  if e ≤ s.tmr.base then s
  else { s with tmr := tmrPass s e, pwr := resPass s (e / 250 - s.tmr.base / 250) }

/-- Counter `i` of LINK_STATS goes up; it saturates (12 R306). -/
def linkCount (i : Nat) (s : State) : State :=
  { s with link := { s.link with
      counters := s.link.counters.setIfInBounds i (satTo 0xFFFFFFFF (s.link.counters.getD i 0 + 1)) } }

/-- Change the actions that wait for the reply of an operation (03 R59). -/
def modDeferred (i : Nat) (f : Deferred → Deferred) (s : State) : State :=
  { s with pwr := { s.pwr with deferred := s.pwr.deferred.map fun d => if d.opId = i then f d else d } }

/-- The reply of an operation has left its port, so the actions that wait for it may follow (03 R59). -/
def replyLeft (i : Nat) (s : State) : State := modDeferred i (fun d => { d with left := true }) s

/-- The port transmits the reply of an operation; its last byte leaves at base value `t` (03 R59). -/
def replySent (i t : Nat) (s : State) : State := modDeferred i (fun d => { d with sent := some t }) s

/-- The frame in transmission has been sent whole: TX_FRAMES counts it (12 R277, R306). -/
def txDone (s : State) : State :=
  match s.link.sending with
  | some f =>
    let t := linkCount 0 { s with link := { s.link with sending := none, txEnd := none } }
    match f.opId with
    | some i => replyLeft i t
    | none => t
  | none => { s with link := { s.link with txEnd := none } }

/-- Time passes to base value `t`; a transmission that ends on the way ends at its own instant. -/
def passTx (t : Nat) (s : State) : State :=
  match s.link.txEnd with
  | some e => if e ≤ t then passClocks t (txDone (passClocks e s)) else passClocks t s
  | none => passClocks t s

/-- Insert into an ascending list. -/
def insAsc (x : Nat) : List Nat → List Nat
  | [] => [x]
  | y :: r => if x ≤ y then x :: y :: r else y :: insAsc x r

/-- The ends of running DMA transfers, and the bounds of the transmitter's leads, up to `t`, in order. -/
def passStops (t : Nat) (s : State) : List Nat :=
  let leads := if canTx s then (linkStarts s).flatMap fun d => [d - usTicks 44, d] else []
  ((s.sec.ctx.toList.filterMap Ctx.dmaEnd ++ leads).filter fun e => decide (now s < e ∧ e ≤ t)).foldr insAsc []

/-- Time passes to base value `t`, with every change between Run and Burst at its own instant (05 R113). -/
def passRaw (t : Nat) (s : State) : State := passTx t ((passStops t s).foldl (fun s e => passTx e s) s)

/-- A wake begins (05 R118, R119, R121): Lode starts at this edge. From Doze the stage stays; from Watch and Watch-L
the warm path begins with reason 0x7 (04 R98). In Run a wake source cancels a decided entry. -/
def beginWake (s : State) : State :=
  match s.pwr.mode with
  | .run => { s with pwr := { s.pwr with entry := none } }
  | .doze =>
    { s with
      clk := { s.clk with lode := .locking, lodeStart := now s, lockTry := 0 }
      pwr := { s.pwr with mode := .run, entry := none } }
  | _ =>
    { s with
      clk := { s.clk with lode := .locking, lodeStart := now s, lockTry := 0 }
      pwr := { s.pwr with mode := .run, entry := none, idleSince := now s }
      start := { s.start with
        stage := .ember, reason := 7, fault := 0, warmCount := satTo 65535 (s.start.warmCount + 1), life := true
        startBase := now s, romFails := 0, released := false, patchDone := false } }

/-- The first edge up to `t` at which a compare or countdown with WAKE asserts as a wake source (R178, R182, R119). -/
def firstWake (s : State) (t : Nat) : Option Nat :=
  let coarse := !tmrRuns s
  let cs := s.tmr.cmp.toList.filterMap fun c =>
    if cmpEn c.mode && cmpWake c.mode && decide (edgeFor s c.target ≤ t) then some (edgeFor s c.target) else none
  let ds := s.tmr.cdn.toList.filterMap fun d =>
    if d.clocked && cdnWake d.src && decide (d.zeroAt coarse s.tmr.base ≤ t) then some (d.zeroAt coarse s.tmr.base)
    else none
  (cs ++ ds).min?

/-- Time passes to the edge of the base clock at or after `t`; a compare or countdown with WAKE starts Lode at its own
edge, or in Run cancels a decided entry (05 R118, R119). -/
def elapseTo (t : Nat) (s : State) : State :=
  let e := edgeFor s t
  if lowPower s || s.pwr.entry.isSome then
    match firstWake s e with
    | some w => passRaw e (beginWake (passRaw w s))
    | none => passRaw e s
  else passRaw e s

/-- `dt` edges of the running base clock pass: TMR edges while TMR runs, AON edges otherwise (R174; assumption
log 1). While the logic is held in reset no time is counted. -/
def elapse (dt : Nat) (s : State) : State :=
  if !live s then s
  else if tmrRuns s then elapseTo (s.tmr.base + dt) s
  else elapseTo ((s.tmr.base / 250 + dt) * 250) s

/-- The block idles for one edge of the base clock (assumption log 1). -/
def idle (s : State) : State := elapse 1 s

/-- A command's frame: time passes, then the command acts on a part whose logic is not held in reset. -/
def act (dt : Nat) (f : State → State) (s : State) : Out :=
  if live s then .next (f (elapse dt s)) else .next s

/-- A command that falls due at a deadline: time passes to the deadline, then it acts. -/
def actAt (deadline : State → Option Nat) (f : State → State) (s : State) : Out :=
  if live s then
    match deadline s with
    | some t => .next (f (elapseTo t s))
    | none => .next s
  else .next s

end Sys2Proof.Machine
end

