-- ==== Sys2Proof/Machine/Protect.lean ====
section
/-! DEFINITION. Protection and integrators: the ladder scan, the over-current comparators, the integrator outputs and
the tallies (06_front_end_integrators.md). -/

namespace Sys2Proof.Machine

/-! ## Limits (R134, R136) -/

/-- A protection limit: the Ember limit while EMBER_LIM is set, else the parameter in force (R136). -/
def limit (s : State) (ember id : Nat) : Nat := if s.afe.emberLim then ember else prm s id

/-- The cells the ladder checks: all taps under the Ember limits, BA_SERIES after (R125, R136). -/
def ladderSeries (s : State) : Nat := if s.afe.emberLim then 16 else prm s 0x0201

/-- One fault comparison (R130): `bad` beyond the threshold, `good` beyond the hysteresis on the good side; answers
the consecutive count and the fault. -/
def faultStep (scans : Nat) (bad good : Bool) (cnt : Nat) (fault : Bool) : Nat × Bool :=
  let cnt' := if bad then min (cnt + 1) 255 else 0
  (cnt', if fault then !good else bad && decide (scans ≤ cnt'))

/-- The OV comparison of cell `i` (R130). -/
def ovStep (s : State) (i mv : Nat) : Nat × Bool :=
  let thr := limit s 4450 0x0301
  if ladderSeries s ≤ i then (0, false)
  else faultStep (limit s 1 0x0305) (decide (thr < mv)) (decide (mv + limit s 50 0x0302 < thr))
    (s.afe.ovCnt.toList.getD i 0) (s.afe.ov.toList.getD i true)

/-- A UV comparison (R130): at the first judgement a reading inside the band resolves to the protective side. -/
def uvJudge (s : State) (thr hys mv cnt : Nat) (fault : Bool) : Nat × Bool :=
  let r := faultStep (prm s 0x0305) (decide (mv < thr)) (decide (thr + hys < mv)) cnt fault
  if !s.afe.uvJudged && decide (thr ≤ mv ∧ mv ≤ thr + hys) then (r.1, true) else r

/-- The UV comparison of cell `i`: none under the Ember limits (R136). -/
def uvStep (s : State) (i mv : Nat) : Nat × Bool :=
  if s.afe.emberLim || decide (ladderSeries s ≤ i) then (0, false)
  else uvJudge s (prm s 0x0303) (prm s 0x0304) mv (s.afe.uvCnt.toList.getD i 0) (s.afe.uv.toList.getD i false)

/-- The Bank B UV comparison: BB_UV × BB_SERIES, not evaluated without Bank B, with BB_UV off, or under the Ember
limits (R27, R129, R136). -/
def uvbStep (s : State) (mv : Nat) : Nat × Bool :=
  if s.afe.emberLim || prm s 0x0205 == 0 || prm s 0x0306 == 0 then (0, false)
  else uvJudge s (prm s 0x0306 * prm s 0x0202) (prm s 0x0307 * prm s 0x0202) mv s.afe.uvbCnt s.afe.uvb

/-- The results of one ladder scan reach the faults and outputs (R129, R130). -/
def applyScan (r : ScanIn) (s0 : State) : State :=
  let s := { s0 with par := s0.par.applyMoment .scan }
  let mv (i : Nat) : Nat := r.cells.getD i 0
  { s with afe := { s.afe with
      ov := Vector.ofFn fun i : Fin 16 => (ovStep s i (mv i)).2
      ovCnt := Vector.ofFn fun i : Fin 16 => (ovStep s i (mv i)).1
      uv := Vector.ofFn fun i : Fin 16 => (uvStep s i (mv i)).2
      uvCnt := Vector.ofFn fun i : Fin 16 => (uvStep s i (mv i)).1
      uvb := (uvbStep s r.vbb).2
      uvbCnt := (uvbStep s r.vbb).1
      startLow := false
      uvJudged := !s.afe.emberLim
      scanAt := s.afe.scanAt + 8192 * 250 } }

/-- The end of a ladder scan: its results are applied; a fault that asserts is a wake source (R119). -/
def ladderScan (r : ScanIn) (s : State) : State :=
  let t := applyScan r s
  let newFault := (List.zip t.afe.ov.toList s.afe.ov.toList).any (fun p => p.1 && !p.2)
    || (List.zip t.afe.uv.toList s.afe.uv.toList).any (fun p => p.1 && !p.2) || (t.afe.uvb && !s.afe.uvb)
  if newFault then beginWake t else t

/-! ## Over-current and short-circuit (R131 to R133) -/

/-- The over-current state of a bank. -/
def ocOf (b : Bank) (s : State) : Oc :=
  match b with
  | .a => s.afe.ocA
  | .b => s.afe.ocB

/-- Replace the over-current state of a bank. -/
def setOc (b : Bank) (o : Oc) (s : State) : State :=
  match b with
  | .a => { s with afe := { s.afe with ocA := o } }
  | .b => { s with afe := { s.afe with ocB := o } }

/-- The threshold of a comparator in µV of shunt voltage (R134, R136). -/
def ocThreshold (s : State) (b : Bank) (c : OcCmp) : Int :=
  let base := match b with | .a => 0x0310 | .b => 0x0313
  match c with
  | .oc1Dsg => 1000 * limit s 50 base
  | .oc1Chg => 1000 * limit s 50 (base + 1)
  | .scDsg => 1000 * limit s 95 (base + 2)

/-- A shunt voltage lies beyond a comparator's threshold (R131; charge is positive, R124). -/
def beyond (s : State) (b : Bank) (c : OcCmp) (uv : Int) : Bool :=
  match c with
  | .oc1Chg => decide (ocThreshold s b c < uv)
  | _ => decide (uv < -ocThreshold s b c)

/-- The filter length of a comparator in CBM cycles (R131). -/
def filterLen (s : State) (c : OcCmp) : Nat :=
  match c with
  | .scDsg => limit s 32 0x0317
  | _ => limit s 4195 0x0316

/-- The filter count of a comparator. -/
def Oc.cnt (o : Oc) : OcCmp → Nat
  | .oc1Dsg => o.cntDsg
  | .oc1Chg => o.cntChg
  | .scDsg => o.cntSc

/-- Set the filter count of a comparator. -/
def Oc.setCnt (o : Oc) (c : OcCmp) (n : Nat) : Oc :=
  match c with
  | .oc1Dsg => { o with cntDsg := n }
  | .oc1Chg => { o with cntChg := n }
  | .scDsg => { o with cntSc := n }

/-- The CBM edge after a base value. -/
def nextCbm (t : Nat) : Nat := cbmAt (cbmCount t + 1)

/-- The SLOW edge that ends a hold whose output asserts at `e` (R132). -/
def holdEndAt (s : State) (e : Nat) : Nat := (e / 2000 + (limit s 2000 0x0318 * 4096 + 999) / 1000) * 2000

/-- A trip of a comparator (R131, R132): the hold starts or restarts, the trip is counted, and the latch sets at
OC_LATCH_N trips within 60 s. -/
def trip (b : Bank) (c : OcCmp) (s : State) : State :=
  let o := ocOf b s
  let trips := (o.trips.filter fun t => decide (now s ≤ t + secTicks 60)) ++ [now s]
  let n := limit s 3 0x0319
  setOc b { o.setCnt c 0 with
      holdEnd := some (holdEndAt s (nextCbm (now s)))
      assertAt := if o.holdEnd.isSome then o.assertAt else nextCbm (now s)
      holdChg := c == .oc1Chg
      trips := trips
      latch := o.latch || (decide (n ≠ 0) && decide (n ≤ trips.length))
      count := satTo 255 (o.count + 1) } s

/-- Up to where the samples of a comparator have been counted. -/
def Oc.countedTo (o : Oc) : OcCmp → Nat
  | .oc1Dsg => o.atDsg
  | .oc1Chg => o.atChg
  | .scDsg => o.atSc

/-- The samples of a comparator are counted up to a base value. -/
def Oc.setCountedTo (o : Oc) (c : OcCmp) (t : Nat) : Oc :=
  match c with
  | .oc1Dsg => { o with atDsg := t }
  | .oc1Chg => { o with atChg := t }
  | .scDsg => { o with atSc := t }

/-- A comparator has taken its last `samples` samples at a shunt voltage, one at each CBM edge up to now; samples before
them that no command described lay inside the threshold. At its filter length it trips, which is a wake source
(R119, R131). -/
def ocSamples (b : Bank) (c : OcCmp) (uv : Int) (samples : Nat) (s : State) : State :=
  if !s.cqa.modRun then s
  else
    let o := ocOf b s
    let edges := cbmCount (now s) - cbmCount (o.countedTo c)
    let n := min samples edges
    let cnt := if n < edges then 0 else o.cnt c
    let t := setOc b ((o.setCountedTo c (now s)).setCnt c (if beyond s b c uv then cnt + n else if n = 0 then cnt else 0)) s
    if beyond s b c uv && decide (n ≠ 0) && decide (filterLen s c ≤ cnt + n) then beginWake (trip b c t) else t

/-- The hold of a bank ends: its output is released and the filters re-arm (R132). -/
def holdOver (b : Bank) (s : State) : State :=
  setOc b { ocOf b s with holdEnd := none, holdChg := false, cntDsg := 0, cntChg := 0, cntSc := 0 } s

/-- What PRT_CLEAR clears (R133): the latches and the trip history of both banks. -/
def clearLatches (s : State) : State :=
  { s with afe := { s.afe with
      ocA := { s.afe.ocA with latch := false, trips := [] }
      ocB := { s.afe.ocB with latch := false, trips := [] } } }

/-! ## Integrators (R140 to R146) -/

/-- The integrator of a bank. -/
def cqOf (b : Bank) (s : State) : Cq :=
  match b with
  | .a => s.cqa
  | .b => s.cqb

/-- Replace the integrator of a bank. -/
def setCq (b : Bank) (q : Cq) (s : State) : State :=
  match b with
  | .a => { s with cqa := q }
  | .b => { s with cqb := q }

/-- A value held in a range. -/
def clampI (lo hi v : Int) : Int := if v < lo then lo else if hi < v then hi else v

/-- A 48-bit signed number (R83). -/
def wrap48 (v : Int) : Int := signed 48 (v % 2 ^ 48).toNat

/-- A window and an order written to CQ_CFG, in force within their bounds (R145). -/
def winBound (w : Nat) : Nat := if w < 32 then 32 else if 1048576 < w then 1048576 else w

/-- The shunt of a bank in µΩ (R142). -/
def shuntOf (b : Bank) (s : State) : Nat :=
  match b with
  | .a => prm s 0x0410
  | .b => prm s 0x0411

/-- A shunt output in mA, by R142 and R144. -/
def outMa (b : Bank) (s : State) (out : Int) : Rat := (out : Rat) * 100000000 / (8388608 * (shuntOf b s : Rat))

/-- The output stands at or above WAKE_MA in magnitude (R119). -/
def loaded (b : Bank) (s : State) (out : Int) : Bool :=
  decide (prm s 0x0734 * 8388608 * shuntOf b s ≤ out.natAbs * 100000000)

/-- The base value of the next output boundary: the window in force after the last one (R143). -/
def Cq.outDue (q : Cq) : Nat := cbmAt (q.edge + q.actWin)

/-- The filter at an output boundary (R143, R144): a written window and order take effect, else the output is published
once the filter has settled. -/
def cqBoundary (mean : Int) (q : Cq) : Cq :=
  let q1 := { q with edge := q.edge + q.actWin }
  if q1.actWin ≠ winBound q1.win ∨ q1.actOrder ≠ q1.order + 1 then
    { q1 with actWin := winBound q1.win, actOrder := q1.order + 1, settle := q1.order + 1, outValid := false }
  else if 1 < q1.settle then { q1 with settle := q1.settle - 1 }
  else
    let o := clampI (-8388608) 8388607 mean
    { q1 with settle := 0, outValid := true, new := true, out := o, lastOut := o }

/-- The load of a bank stood at or above WAKE_MA at its last output. -/
def loadOf (b : Bank) (s : State) : Bool := match b with | .a => s.pwr.loadA | .b => s.pwr.loadB

/-- A calibration of an integrator takes this output: sixteen consecutive valid ones (07 R171). -/
def calTake (b : Bank) (q : Cq) (s : State) : State :=
  let mine := s.sar.calRun && s.sar.calPair == (match b with | .a => 0x30 | .b => 0x31)
  if !mine || decide (16 ≤ s.sar.calCnt) then s
  else if !q.outValid then { s with sar := { s.sar with calCnt := 0, calSum := 0 } }
  else { s with sar := { s.sar with calCnt := s.sar.calCnt + 1, calSum := s.sar.calSum + q.out } }

/-- One output boundary; a published output at or above WAKE_MA restarts idleness (R117) and is a wake source (R119): it
wakes a part in a low-power mode (R123), and where the load has only now risen it cancels a decided entry (R118). -/
def cqOutputAt (b : Bank) (mean : Int) (s : State) : State :=
  if !(cqOf b s).modRun then s
  else
    let q := cqBoundary mean (cqOf b s)
    let t := calTake b q (setCq b q s)
    if q.settle ≠ 0 then t
    else
      let l := loaded b s q.out
      let p := match b with | .a => { t.pwr with loadA := l } | .b => { t.pwr with loadB := l }
      let u := { t with pwr := if l then { p with idleSince := now t } else p }
      if l && (lowPower s || !loadOf b s) then beginWake u else u

/-- The sum of `n` bits of +1 and −1 that a count of ones gives; `d` beyond what `n` bits can sum to is held at the
bound (R140). -/
def bitSum (n : Nat) (d : Int) : Int := 2 * clampI 0 n (((n : Int) + d) / 2) - n

/-- The CBM cycles from where the tally was last brought up to date to a base value. -/
def cbmSince (t : Nat) (q : Cq) : Nat := cbmCount t - cbmCount q.tallyAt

/-- Add the modulator bits up to base value `t` to a tally (R83, R140); its saturated cycles, of which there are no more
than cycles, count in SATCNT and set SAT (R141). -/
def tallyAdd (t : Nat) (d : Int) (sat : Nat) (q : Cq) : Cq :=
  if !q.modRun then q
  else
    let n := cbmSince t q
    { q with
      tally := wrap48 (q.tally + bitSum n d)
      satStep := q.satStep + min sat n
      satCnt := satTo 65535 (q.satCnt + min sat n)
      sat := q.sat || decide (0 < min sat n)
      tallyAt := max q.tallyAt t }

/-- Bring both tallies up to a base value (R140). -/
def addBitsTo (t : Nat) (b : Bits) (s : State) : State :=
  { s with cqa := tallyAdd t b.a b.satA s.cqa, cqb := tallyAdd t b.b b.satB s.cqb }

/-- Bring both tallies up to date (R140). -/
def addBits (b : Bits) (s : State) : State := addBitsTo (now s) b s

/-- A capture has been asked for and its CBM edge is still to come: CAPTURE reads 1 (R146). -/
def capturing (s : State) : Bool := decide (now s < s.capAt)

/-- A captured tally as its words show it: the new capture from its edge on (R146). -/
def capWord (s : State) (q : Cq) : Int := if capturing s then q.capOld else q.cap

/-- CAP_STAMP as its words show it (R146). -/
def capStampWord (s : State) : Nat := if capturing s then s.capStampOld else s.capStamp

/-- Capture both tallies at the first CBM edge after the request, with the stamp of that edge (R146; 02 R34). A request
made while the one before still waits for its edge is merged into it. -/
def captureTallies (b : Bits) (s : State) : State :=
  if capturing s then s
  else
    let k := cbmCount (now s) + 1
    let t := addBitsTo (cbmAt k) b s
    { t with
      cqa := { t.cqa with cap := t.cqa.tally, capOld := s.cqa.cap }
      cqb := { t.cqb with cap := t.cqb.tally, capOld := s.cqb.cap }
      capStamp := if tmrRuns s then cbmStamp k else upAon (cbmAt k)
      capStampOld := s.capStamp
      capAt := edgeFor s (cbmAt k) }

end Sys2Proof.Machine
end

