-- ==== Sys2Proof/Machine/TimerOps.lean ====
section
/-! DEFINITION. Operations on the timer block: captures of the base, settings of compares and countdowns, counted
edges, capture queues (08_timers.md). -/

namespace Sys2Proof.Machine

/-! ## Capture of the base (R175, R176) -/

/-- The origin classes of the COARSE flags (R176). -/
inductive CoarseClass where
  | internal | host | field | link | debug
  deriving DecidableEq, Repr

/-- The COARSE flag of a class. -/
def coarseOf (t : Tmr) : CoarseClass → Bool
  | .internal => t.coarseInt
  | .host => t.coarseHost
  | .field => t.coarseField
  | .link => t.coarseLink
  | .debug => t.coarseDbg

/-- Clear the COARSE flag of a class (R176). -/
def clearCoarse (t : Tmr) : CoarseClass → Tmr
  | .internal => { t with coarseInt := false }
  | .host => { t with coarseHost := false }
  | .field => { t with coarseField := false }
  | .link => { t with coarseLink := false }
  | .debug => { t with coarseDbg := false }

/-- The register capture into shadow set 0 (R175): at this TMR edge, or while TMR is stopped at the next AON edge. -/
def captureShadow0 (s : State) : State :=
  if tmrRuns s then { s with tmr := { s.tmr with shadow0 := s.tmr.base } }
  else { s with tmr := { s.tmr with sbCap := some (nextEdge s) } }

/-- The opcode capture into shadow set 1, which reports and clears the COARSE flag of its class (R175, R176). -/
def captureShadow1 (k : CoarseClass) (s : State) : Nat × Bool × State :=
  let t := { s.tmr with shadow1 := s.tmr.base }
  (s.tmr.base, coarseOf s.tmr k, { s with tmr := clearCoarse t k })

/-! ## Settings (R177, R179, R183) -/

/-- CMP_SET of a channel with VAL and MODE (R177, R179): it takes effect at the next edge of the base clock and governs
the evaluation there. The reserved bits of MODE store nothing (00 R5). -/
def cmpSet (n v : Nat) (mode : BitVec 8) (s : State) : State :=
  let c := vget s.tmr.cmp n Cmp.reset
  { s with tmr := { s.tmr with
      cmp := vset s.tmr.cmp n { c with val := v, mode := mode &&& 0x1F, target := cmpTarget (nextEdge s) v } } }

/-- A counter with new settings (R183): a stopped counter, or RESTART, loads and starts at once; a running counter takes
them at its next zero tick. WAKE is read as written; RESTART and the reserved bit store nothing (00 R5). -/
def Cdn.set (buf n f : Nat) (src : BitVec 8) (c : Cdn) : Cdn :=
  let keep := src &&& 0x3F
  let w := { c with buf := buf, n := n, f := f, src := keep }
  if c.v = 0 ∨ cdnRestart src then { w with v := buf, p := 0, actN := n, actF := f, actSrc := keep, dirty := false }
  else { w with dirty := true }

/-- CDN_SET of a counter (R183). -/
def cdnSet (i buf n f : Nat) (src : BitVec 8) (s : State) : State :=
  { s with tmr := { s.tmr with cdn := vset s.tmr.cdn i ((vget s.tmr.cdn i Cdn.reset).set buf n f src) } }

/-- A compare mode byte is in range on a channel (R179). -/
def cmpModeOk (n : Nat) (m : Nat) : Bool := decide (bitsOf m 7 5 = 0) && (decide (n < 2) || decide (bitsOf m 3 2 = 0))

/-- Countdown settings are in range on a counter (R183). -/
def cdnSetOk (i n src : Nat) : Bool :=
  decide (1 ≤ n ∧ n ≤ 65535) && decide (bitsOf src 2 0 ≤ 5) && decide (bitsOf src 7 7 = 0)
    && (decide (i < 2) || decide (bitsOf src 4 3 = 0))

/-! ## Counted edges of SAR-done, TIN0 and TIN1 (R180) -/

/-- `m` source edges at one TMR edge; settings that wait apply at the first zero tick, and edges left then count on
under the same source only (R183, R184). -/
def Cdn.edges (m : Nat) (c : Cdn) : Cdn × Nat :=
  let z := c.zeros m
  if z = 0 ∨ !c.dirty then (c.count m c.edgesToZero, z)
  else
    let c1 := c.applyAtZero
    if cdnSrc c1.actSrc ≠ cdnSrc c.actSrc ∨ c1.v = 0 then (c1, 1)
    else (c1.count (m - c.edgesToZero) c1.edgesToZero, 1 + c1.zeros (m - c.edgesToZero))

/-- A driven pin after `n` actions at the present TMR edge, which show at the next one (R188). -/
def Tout.actNow (action n : Nat) (base : Bool) (p : Tout) : Tout :=
  ⟨toutAct action n base, true, some (p.shown.getD base)⟩

/-- Apply the TOUT action of countdown `i`, `n` times (R182, R188). -/
def cdnToutAct (i n : Nat) (c : Cdn) (s : State) : State :=
  if n = 0 ∨ cdnTout c.src = 0 ∨ !toutEnabled s i then s
  else if i = 0 then
    { s with tmr := { s.tmr with tout0 := s.tmr.tout0.actNow (cdnTout c.src) n (toutBase s 0 s.tmr.tout0) } }
  else if i = 1 then
    { s with tmr := { s.tmr with tout1 := s.tmr.tout1.actNow (cdnTout c.src) n (toutBase s 1 s.tmr.tout1) } }
  else s

/-- `m` edges of an event source reach countdown `i`. -/
def cdnEdgesAt (src m : Nat) (s : State) (i : Nat) : State :=
  let c := vget s.tmr.cdn i Cdn.reset
  if cdnSrc c.actSrc ≠ src ∨ c.v = 0 then s
  else
    let r := c.edges m
    let d := if r.2 = 0 then r.1 else { r.1 with zeroedAt := now s }
    cdnToutAct i r.2 c { s with tmr := { s.tmr with cdn := vset s.tmr.cdn i d } }

/-- `m` edges of an event source (3 SAR-done, 4 TIN0, 5 TIN1) are counted; none while TMR is stopped (R180, R184). -/
def cdnEdges (src m : Nat) (s : State) : State :=
  if tmrRuns s then [0, 1, 2, 3].foldl (cdnEdgesAt src m) s else s

/-! ## Capture queues (R185 to R187) -/

/-- LOST (R186): the arrivals dropped so far. -/
def Capq.lostNow (q : Capq) : Nat := satTo 65535 (q.lost + q.late.length)

/-- A stamp arrives at a queue of four (R186): a full queue drops it and counts it, unless a read at the very edge of the
stamp still lets it in. -/
def Capq.push (stamp : Nat) (coarse : Bool) (q : Capq) : Capq :=
  if q.held.length < 4 then { q with held := q.held ++ [(stamp, coarse)] }
  else
    let past := q.late.filter fun e => decide (e.1 < stamp)
    let late := q.late.filter fun e => decide (stamp ≤ e.1)
    if late.length < 4 then
      { q with lost := satTo 65535 (q.lost + past.length), late := late ++ [(stamp, coarse)] }
    else { q with lost := satTo 65535 (q.lost + past.length + 1), late := late }

/-- The read of R186 at edge `e`: the entries stamped before it, LOST, and the queue that the later arrivals leave. -/
def Capq.read (e : Nat) (q : Capq) : List (Nat × Bool) × Nat × Capq :=
  let kept := (q.held ++ q.late).filter fun x => decide (e ≤ x.1)
  (q.held.filter fun x => decide (x.1 < e),
    satTo 65535 (q.lost + (q.late.filter fun x => decide (x.1 < e)).length),
    { q with held := kept.take 4, late := [], lost := kept.length - 4 })

/-- An empty queue value, for indices beyond the four. -/
def capqAt (s : State) (i : Nat) : Capq := vget s.tmr.capq i Capq.reset

/-- An arrival at queue `i` with a stamp (R34, R185). -/
def capqPushAt (i stamp : Nat) (s : State) : State :=
  { s with tmr := { s.tmr with capq := vset s.tmr.capq i ((capqAt s i).push stamp (!tmrRuns s)) } }

/-- An arrival at queue `i` is stamped now (R34, R185). -/
def capqPush (i : Nat) (s : State) : State := capqPushAt i (now s) s

/-- An arrival at queue 2 or 3, which take no entries while TMR is stopped (R187). -/
def capqPushFine (i stamp : Nat) (s : State) : State := if tmrRuns s then capqPushAt i stamp s else s

/-- The read of R186 at this edge. -/
def capqRead (i : Nat) (s : State) : List (Nat × Bool) × Nat × State :=
  let r := (capqAt s i).read (now s)
  (r.1, r.2.1, { s with tmr := { s.tmr with capq := vset s.tmr.capq i r.2.2 } })

/-- POP: the read of R186, with what it removed kept for the register words (16 R384). -/
def capqPop (i : Nat) (s : State) : State :=
  let r := (capqAt s i).read (now s)
  { s with tmr := { s.tmr with capq := vset s.tmr.capq i { r.2.2 with popped := r.1, popLost := r.2.1 } } }

/-- The bytes of a queue entry: the stamp, with bit 63 set when it was taken coarse (R185). -/
def capqBytes (e : Nat × Bool) : List Byte := leBytes 8 (e.1 % 2 ^ 63 + 2 ^ 63 * bit e.2)

/-! ## RTC (R189) -/

/-- RTC_SET takes effect at this edge: RTC loaded and valid, anchor recorded, the old and new values logged with the
packet's origin (03 R49). -/
def rtcLoad (sec origin : Nat) (s : State) : State :=
  let t := s.tmr
  let back := bit (decide (sec < t.rtcSec) || decide (sec = t.rtcSec ∧ 0 < t.rtcSub))
  let s1 := { s with tmr := { t with
      rtcSec := sec, rtcSub := 0, rtcValid := true, anchorSec := sec, anchorBase := t.base } }
  logRaise 0x08 origin (leBytes 4 t.rtcSec ++ leBytes 2 t.rtcSub ++ leBytes 4 sec ++ leBytes 1 back) s1

/-- The timer registers that are not retained return to their reset values at a start and at entry to Watch (00 R7,
16 R384). -/
def tmrWarm (t : Tmr) : Tmr :=
  { t with
    shadow0 := 0, shadow1 := 0
    sbCap := none
    capq := t.capq.map fun q => { q with popped := [], popLost := 0 } }

end Sys2Proof.Machine
end

