-- ==== Sys2Proof/Machine/SarTime.lean ====
section
/-! DEFINITION. The SAR block in time: where a sequence stands, when its next conversion samples and completes, settle
times, thermistor bias and balancing blanks (07_sar_and_accumulators.md R147, R150 to R159; 06_front_end_integrators.md
R125, R127, R139). Times are SAR cycles since tick 0, four to a TMR tick (02_lode_clock.md R30). -/

namespace Sys2Proof.Machine

/-- The SAR edge at which the base takes its present value. -/
def sarNow (s : State) : Nat := 4 * now s

/-- The base value that an event of SAR edge `c` is stamped with (02 R34). -/
def sarStamp (s : State) (c : Nat) : Nat := if tmrRuns s then c / 4 else c / 1000 * 250

/-! ## Sequence tables (R150 to R155) -/

/-- The entries of the Routine: the firmware's, then the ports' (R153). -/
def routTable (s : State) : List SeqEntry := s.sar.routFw ++ s.sar.routPort

/-- The MODE flags of an entry (R150). -/
def isIntlv (e : SeqEntry) : Bool := e.mode.getLsbD 4
def isTwin (e : SeqEntry) : Bool := e.mode.getLsbD 5

/-- A cell tap, a thermistor (R149). -/
def isCell (chan : Nat) : Bool := decide (1 ≤ chan ∧ chan ≤ 16)
def isTherm (chan : Nat) : Bool := decide (0x20 ≤ chan ∧ chan ≤ 0x27)

/-- A cell above BA_SERIES, which the sequencer ignores (06 R125). -/
def ignoredChan (s : State) (chan : Nat) : Bool := isCell chan && decide (prm s 0x0201 < chan)

/-- A table without entries for a fallback. -/
def SeqEntry.none : SeqEntry := ⟨0, 1, 16, 0, 0xFF, 0xFF, 1⟩

/-- Entry `i` begins a twin pair with the next entry (R150, R155). -/
def twinAt (tbl : List SeqEntry) (i : Nat) : Bool :=
  (match tbl[i]? with | some e => isTwin e | none => false) && decide (i + 1 < tbl.length)

/-- The entries at which the sequencer works, from entry `i` on: the second entry of a twin pair is none of them (R151,
R155). -/
def workEntries : Nat → List SeqEntry → List Nat
  | _, [] => []
  | i, [_] => [i]
  | i, e :: f :: r => if isTwin e then i :: workEntries (i + 2) r else i :: workEntries (i + 1) (f :: r)

/-- The channels an entry converts, as offsets: a cell above BA_SERIES is left out, in a twin pair with its partner
(R155; 06 R125; assumption log 127). -/
def workChans (s : State) (tbl : List SeqEntry) (i : Nat) : List Nat :=
  let e := tbl.getD i SeqEntry.none
  let f := tbl.getD (i + 1) SeqEntry.none
  (List.range e.span).filter fun k =>
    !ignoredChan s (e.chan + k) && !(twinAt tbl i && ignoredChan s (f.chan + k))

/-- The places a pass works through, in table order (R155). -/
def workList (s : State) (tbl : List SeqEntry) : List (Nat × Nat) :=
  (workEntries 0 tbl).flatMap fun i => (workChans s tbl i).map fun k => (i, k)

/-- The first position of a table. -/
def seqStart (s : State) (tbl : List SeqEntry) : Option SeqPos := (workList s tbl).head?.map fun w => ⟨w.1, w.2, 0⟩

/-- The position after a conversion, or none at the end of the pass (R155). -/
def seqNext (s : State) (tbl : List SeqEntry) (p : SeqPos) : Option SeqPos :=
  if p.done + 1 < (tbl.getD p.entry SeqEntry.none).repeat_ then some { p with done := p.done + 1 }
  else
    ((workList s tbl).find? fun w => decide (p.entry < w.1) || (p.entry == w.1 && decide (p.chan < w.2))).map
      fun w => ⟨w.1, w.2, 0⟩

/-- The Burst pass stands at its start. -/
def burstFresh (s : State) : Bool := s.sar.burstPos == seqStart s s.sar.burst

/-- The gain a conversion of an entry uses (R161). -/
def gainOf (s : State) (e : SeqEntry) (chan : Nat) : Nat :=
  let g := bitsOf e.mode.toNat 2 0
  if g ≠ 4 then g else if chan = 0x18 then s.sar.autoA else s.sar.autoB

/-- How the converters serve a position (R155). -/
inductive SlotKind where
  | solo | castor | pollux | twin
  deriving DecidableEq, Repr

/-- The kind of the conversion at a position: in an INTLV entry Castor and Pollux take turns. -/
def kindAt (tbl : List SeqEntry) (p : SeqPos) : SlotKind :=
  if twinAt tbl p.entry then .twin
  else if isIntlv (tbl.getD p.entry SeqEntry.none) then (if p.done % 2 = 1 then .pollux else .castor)
  else .solo

/-- The next conversion of a pass is Pollux's slot of an interleave pair (R155). -/
def polluxSlot (tbl : List SeqEntry) (p : Option SeqPos) : Bool :=
  match p with
  | none => false
  | some p => kindAt tbl p == .pollux

/-! ## Settle times (R156) -/

/-- Cell `n`, or a cell beside it, has a balancing duty (R139, R156). -/
def balancedNear (s : State) (n : Nat) : Bool :=
  [n - 1, n, n + 1].any fun k => decide (1 ≤ k ∧ k ≤ 16) && decide (0 < vget s.afe.duty (k - 1) 0)

/-- The SAR edge from which a converter that is ready at edge `ready` may sample a channel at a gain (R156). A tap change is
requested at once: it crosses into AFE at the second AFE edge, waits 8 AFE ticks or BAL_BLANK, and crosses back in two SAR
edges (02 R32). A cell on which the mux stands already costs what any other channel costs (assumption log 127). -/
def settleFrom (s : State) (u : Adc) (chan gain ready : Nat) : Nat :=
  if isCell chan && s.sar.tap != chan then
    32 * (max ready s.sar.tapFree / 32 + 2 + (if balancedNear s chan then prm s 0x0430 else 8)) + 2
  else if u.chan = chan ∧ u.gain = gain then ready
  else ready + 8

/-- The SAR edge from which a thermistor may be converted: TBIAS has been on for TBIAS_LEAD (06 R127). -/
def biasFrom (s : State) (chan ready : Nat) : Nat :=
  if isTherm chan then max ready (s.afe.tbiasAt + (prm s 0x0428 * 32768 + 999) / 1000) else ready

/-! ## The next conversion (R147, R155) -/

/-- The SAR edge at which the conversion at a position starts to sample: Pollux's half of an interleave pair ⌈T/2⌉ cycles
after Castor's, a twin pair when both converters are ready (R155). -/
def slotStart (s : State) (tbl : List SeqEntry) (p : SeqPos) : Nat :=
  let e := tbl.getD p.entry SeqEntry.none
  let chan := e.chan + p.chan
  let ready (u : Adc) (c : Nat) : Nat := biasFrom s c (max u.free s.sar.passAt)
  let castor := settleFrom s s.sar.castor chan (gainOf s e chan) (ready s.sar.castor chan)
  match kindAt tbl p with
  | .solo => castor
  | .castor => castor
  | .pollux => s.sar.pairAt + (e.sample + 17) / 2
  | .twin =>
    let f := tbl.getD (p.entry + 1) SeqEntry.none
    let chan2 := f.chan + p.chan
    max castor (settleFrom s s.sar.pollux chan2 (gainOf s f chan2) (ready s.sar.pollux chan2))

/-- The hold edge of a conversion that starts to sample at an edge, and its completion edge (R147). -/
def holdAt (start sample : Nat) : Nat := start + sample
def doneAt (start sample : Nat) : Nat := start + sample + 16

/-- The Flare at the head of the queue has crossed into the SAR domain by an edge (R158). -/
def flareBy (s : State) (c : Nat) : Bool := match s.sar.flares with | f :: _ => decide (f.at_ ≤ c) | [] => false

/-- A Flare takes Pollux's slot of an interleave pair, or has left Pollux no time to settle for it (R159). -/
def slotLost (s : State) (tbl : List SeqEntry) (p : SeqPos) : Bool :=
  let e := tbl.getD p.entry SeqEntry.none
  let start := slotStart s tbl p
  kindAt tbl p == .pollux
    && (flareBy s start || decide (start < settleFrom s s.sar.pollux e.chan (gainOf s e e.chan) s.sar.pollux.free))

/-- A Flare goes first: before a twin pair, and before a tap change that its own tap change breaks off (R158, R159). -/
def flareFirst (s : State) (tbl : List SeqEntry) (p : SeqPos) : Bool :=
  let chan := (tbl.getD p.entry SeqEntry.none).chan + p.chan
  let taps := match s.sar.flares with | f :: _ => isCell f.chan && isCell chan && s.sar.tap != chan | [] => false
  flareBy s (slotStart s tbl p) && (kindAt tbl p == .twin || taps)

/-- The SAR edge at which the Flare at the head of the queue starts to sample: after the rest of Pollux's running conversion
and the settle (R158). -/
def flareStart (s : State) (f : Flare) : Nat := settleFrom s s.sar.pollux f.chan f.gain (max f.at_ s.sar.pollux.free)

/-- A pass in progress needs Pollux: a Burst pass, or a twin or INTLV entry of the Routine pass (R170). -/
def polluxNeeded (s : State) : Bool :=
  (s.sar.burstOn && s.sar.burstPos.isSome)
    || (match s.sar.routPos with | some p => kindAt (routTable s) p != .solo | none => false)

/-! ## Thermistor bias (06 R127) -/

/-- The entry at a place converts thermistors, in a twin pair on either converter. -/
def thermAt (tbl : List SeqEntry) (i : Nat) : Bool :=
  isTherm (tbl.getD i SeqEntry.none).chan || (twinAt tbl i && isTherm (tbl.getD (i + 1) SeqEntry.none).chan)

/-- TBIAS when a pass comes to a position at an edge: it switches on at the first thermistor entry, and off when no
thermistor is left to convert. -/
def biasStep (tbl : List SeqEntry) (pos : Option SeqPos) (at_ : Nat) (s : State) : State :=
  match pos with
  | none => { s with afe := { s.afe with tbias := false } }
  | some p =>
    let ahead := (workList s tbl).any fun w => decide (p.entry ≤ w.1) && thermAt tbl w.1
    if thermAt tbl p.entry && !s.afe.tbias then { s with afe := { s.afe with tbias := true, tbiasAt := at_ } }
    else { s with afe := { s.afe with tbias := s.afe.tbias && ahead } }

/-! ## Balancing blanks (06 R139) -/

/-- The conversion at a position holds the balancing switches of its cell and of the cells beside it open now: from BAL_BLANK
before it samples until it ends. -/
def blanksAt (s : State) (tbl : List SeqEntry) (p : SeqPos) (n : Nat) : Bool :=
  let e := tbl.getD p.entry SeqEntry.none
  let chan := e.chan + p.chan
  let start := slotStart s tbl p
  isCell chan && decide (chan ≤ n + 1 ∧ n ≤ chan + 1)
    && decide (start ≤ sarNow s + 32 * prm s 0x0430 ∧ sarNow s < doneAt start e.sample)

/-- A conversion of the pass in progress, or the Flare at the head of the queue, holds the balancing switch of cell `n`
open. -/
def sarBlank (s : State) (n : Nat) : Bool :=
  (match s.sar.routPos, s.sar.burstPos with
    | some p, _ => blanksAt s (routTable s) p n
    | none, some p => s.sar.burstOn && blanksAt s s.sar.burst p n
    | none, none => false)
    || (match s.sar.flares with
      | f :: _ =>
        isCell f.chan && decide (f.chan ≤ n + 1 ∧ n ≤ f.chan + 1)
          && decide (flareStart s f ≤ sarNow s + 32 * prm s 0x0430 ∧ sarNow s < doneAt (flareStart s f) f.sample)
      | [] => false)

end Sys2Proof.Machine
end

