-- ==== Sys2Proof/Machine/SarOps.lean ====
section
/-! DEFINITION. The SAR block: channels, calibrated samples, accumulators, trackers, sequence passes
(07_sar_and_accumulators.md). -/

namespace Sys2Proof.Machine

/-! ## Channels (R149) -/

/-- The index of the calibration pair of a channel and a gain code (16 R392), none for an undefined pair. -/
def pairIdx (chan gain : Nat) : Option Nat :=
  if chan = 0x18 then (if gain < 4 then some (18 + gain) else none)
  else if chan = 0x19 then (if gain < 4 then some (22 + gain) else none)
  else if gain ≠ 0 then none
  else if 1 ≤ chan ∧ chan ≤ 0x10 then some (chan - 1)
  else if chan = 0x11 then some 16
  else if chan = 0x12 then some 17
  else if 0x20 ≤ chan ∧ chan ≤ 0x27 then some (26 + (chan - 0x20))
  else if chan = 0x28 then some 34
  else if chan = 0x30 ∨ chan = 0x31 then some (35 + (chan - 0x30))
  else if 0x38 ≤ chan ∧ chan ≤ 0x3D then some (37 + (chan - 0x38))
  else none

/-- The pair a 16-bit pair code names (R149): bits 7:0 the channel, 9:8 the gain, 15:10 zero. -/
def pairOfCode (code : Nat) : Option Nat := if code < 1024 then pairIdx (code % 256) (code / 256) else none

/-- The pair code of an index (16 R392). -/
def codeOfPair (k : Nat) : Nat :=
  if k < 16 then k + 1
  else if k < 18 then 0x11 + (k - 16)
  else if k < 22 then 0x18 + 256 * (k - 18)
  else if k < 26 then 0x19 + 256 * (k - 22)
  else if k < 34 then 0x20 + (k - 26)
  else if k = 34 then 0x28
  else if k < 37 then 0x30 + (k - 35)
  else 0x38 + (k - 37)

/-- A channel the sequencer converts: defined, and not an integrator channel (R149). -/
def chanOk (chan : Nat) : Bool := (pairIdx chan 0).isSome && chan != 0x30 && chan != 0x31

/-- A shunt channel, bipolar and with four gains (R149). -/
def isShunt (chan : Nat) : Bool := chan == 0x18 || chan == 0x19

/-- The row of the channel table a code stands in (R149, R151). -/
def chanRow (chan : Nat) : Nat :=
  if 1 ≤ chan ∧ chan ≤ 0x10 then 1 else if 0x20 ≤ chan ∧ chan ≤ 0x27 then 0x20 else chan

/-! ## Samples (R160, R167) -/

/-- A quotient rounded to the nearest integer, halves away from zero (R167). -/
def roundDiv (a : Int) (b : Nat) : Int :=
  if 0 ≤ a then (2 * a + b) / (2 * b) else -((2 * -a + b) / (2 * b))

/-- The calibration pair `k` in force. -/
def calOf (s : State) (k : Nat) : Cal := vget s.sar.cal k ⟨0, 0⟩

/-- The calibrated sample of a code (R167). -/
def calSample (c : Cal) (code : Int) : Int := roundDiv ((code * 65536 - c.offset) * c.gain) (2 ^ 32)

/-- How a conversion ended: a sample, or clipped high or low (R160). -/
inductive Smp where
  | good (x : Int)
  | high
  | low
  deriving DecidableEq, Repr

/-- The sample of a raw code on a channel at a gain: raw 4095, raw 0 on a shunt, and values outside ±524 287 are clipped
(R149, R160). -/
def sampleOf (s : State) (chan gain raw : Nat) : Smp :=
  let code : Int := if isShunt chan then (raw : Int) - 2048 else raw
  let x := calSample (calOf s ((pairIdx chan gain).getD 0)) code
  if raw = 4095 then .high
  else if isShunt chan && raw == 0 then .low
  else if 524287 < x then .high
  else if x < -524287 then .low
  else .good x

/-! ## Accumulators and trackers (R160 to R166) -/

/-- A counter of 32 bits that saturates (16 R385). -/
def inc32 (n : Nat) : Nat := satTo 0xFFFFFFFF (n + 1)

/-- An accumulator with one more sample; `y` is the twin sample (R162). -/
def Acc.add (x : Int) (y : Option Int) (a : Acc) : Acc :=
  { a with
    count := a.count + 1
    sum := wrap48 (a.sum + x)
    ssq := (a.ssq + (x * x).toNat) % 2 ^ 64
    xpr := match y with
      | some v => signed 64 ((a.xpr + x * v) % 2 ^ 64).toNat
      | none => a.xpr }

/-- An accumulator is full (R163). -/
def Acc.full (a : Acc) : Bool := decide (16777216 ≤ a.count)

/-- A tracker with one more sample (R166): a sample equal to an extreme keeps the earlier stamp. -/
def Trk.add (x : Int) (stamp : Nat) (t : Trk) : Trk :=
  let t1 := if t.zenith < x then { t with zenith := x, zStamp := stamp } else t
  if x < t1.nadir then { t1 with nadir := x, nStamp := stamp } else t1

/-- A tracker at a clipped conversion (R160). -/
def Trk.clip (high : Bool) (t : Trk) : Trk := if high then { t with clampHi := true } else { t with clampLo := true }

/-- Change accumulator `i`; 0xFF and indices above 31 are none (R150). -/
def modAcc (i : Nat) (f : Acc → Acc) (s : State) : State :=
  { s with sar := { s.sar with acc := vset s.sar.acc i (f (vget s.sar.acc i Acc.empty)) } }

/-- Change tracker `i`. -/
def modTrk (i : Nat) (f : Trk → Trk) (s : State) : State :=
  { s with sar := { s.sar with trk := vset s.sar.trk i (f (vget s.sar.trk i Trk.empty)) } }

/-- A good sample enters its accumulator; a full one ignores it and FULL_DROP counts it (R162, R163). -/
def accTake (i : Nat) (x : Int) (y : Option Int) (s : State) : State :=
  if 32 ≤ i then s
  else if (vget s.sar.acc i Acc.empty).full then { s with sar := { s.sar with fullDrop := inc32 s.sar.fullDrop } }
  else modAcc i (Acc.add x y) s

/-- A clipped conversion raises OVR of its accumulator (R160). -/
def accOvr (i : Nat) (s : State) : State := modAcc i (fun a => { a with ovr := satTo 65535 (a.ovr + 1) }) s

/-- A conversion reaches its tracker with the stamp of its hold edge (R147, R160, R166); the die temperature also judges
BAL_TDIE (06 R139). -/
def trkTake (chan i stamp : Nat) (m : Smp) (s : State) : State :=
  let s1 := match m with
    | .good x => modTrk i (Trk.add x stamp) s
    | .high => modTrk i (Trk.clip true) s
    | .low => modTrk i (Trk.clip false) s
  match m with
  | .good x => if chan = 0x3B then { s1 with afe := { s1.afe with hot := decide (100 * (prm s 0x0431 : Int) < x) } } else s1
  | _ => s1

/-- One conversion outside a twin pair updates its accumulator and tracker (R160, R162). -/
def takeOne (chan gain acc trk stamp raw : Nat) (s : State) : State :=
  let m := sampleOf s chan gain raw
  let s1 := trkTake chan trk stamp m s
  match m with
  | .good x => accTake acc x none s1
  | _ => accOvr acc s1

/-- What one conversion of a pass names: channel, gain, accumulator, tracker. -/
structure Dest where
  chan : Nat
  gain : Nat
  acc  : Nat
  trk  : Nat
  deriving DecidableEq, Repr

/-- An index with an offset: 0xFF stays none (R150). -/
def offIdx (i k : Nat) : Nat := if i = 0xFF then 0xFF else i + k

/-- Channel `k` of an entry goes to accumulator ACC + k and tracker TRK + k (R150). -/
def destOf (s : State) (e : SeqEntry) (k : Nat) : Dest :=
  ⟨e.chan + k, gainOf s e (e.chan + k), offIdx e.acc k, offIdx e.trk k⟩

/-- A twin pair (R160, R162): the product enters both accumulators, and if either sample is clipped neither is
accumulated. The two samples share one stamp (R155). -/
def takeTwin (d e : Dest) (stamp r1 r2 : Nat) (s : State) : State :=
  let m1 := sampleOf s d.chan d.gain r1
  let m2 := sampleOf s e.chan e.gain r2
  let s1 := trkTake e.chan e.trk stamp m2 (trkTake d.chan d.trk stamp m1 s)
  match m1, m2 with
  | .good x, .good y => accTake e.acc y (some x) (accTake d.acc x (some y) s1)
  | _, _ =>
    let s2 := match m1 with | .good _ => s1 | _ => accOvr d.acc s1
    let s3 := match m2 with | .good _ => s2 | _ => accOvr e.acc s2
    { s3 with sar := { s3.sar with pairDrop := inc32 s3.sar.pairDrop } }

/-! ## Auto-ranging (R161) -/

/-- The gain and count of an auto-ranged channel after a conversion: ×1 after a clip, the next higher gain after AUTO_UP
conversions below 384 (R161). -/
def autoNext (s : State) (gain cnt raw : Nat) (clipped : Bool) : Nat × Nat :=
  if clipped then (0, 0)
  else if ((raw : Int) - 2048).natAbs < 384 then
    if prm s 0x0443 ≤ cnt + 1 then (min 3 (gain + 1), 0) else (gain, cnt + 1)
  else (gain, 0)

/-- Note a conversion of an auto-ranged entry. One gain and one count are kept for each shunt channel, and conversions at a
fixed gain and Flares leave them alone: the spec does not say so (DESIGN CHOICE, assumption log 128). -/
def autoTake (e : SeqEntry) (chan gain raw : Nat) (s : State) : State :=
  if bitsOf e.mode.toNat 2 0 ≠ 4 then s
  else
    let clipped := match sampleOf s chan gain raw with | .good _ => false | _ => true
    if chan = 0x18 then
      let r := autoNext s gain s.sar.autoCntA raw clipped
      { s with sar := { s.sar with autoA := r.1, autoCntA := r.2 } }
    else
      let r := autoNext s gain s.sar.autoCntB raw clipped
      { s with sar := { s.sar with autoB := r.1, autoCntB := r.2 } }

/-! ## Passes (R150 to R157) -/

/-- A conversion on Castor, or on Pollux, has completed at an edge (R155, R156). -/
def castorDone (d : Dest) (done : Nat) (s : State) : State :=
  { s with sar := { s.sar with
      castor := ⟨done, d.chan, d.gain⟩
      tap := if isCell d.chan then d.chan else s.sar.tap
      tapFree := if isCell d.chan then done else s.sar.tapFree } }
def polluxDone (d : Dest) (done : Nat) (s : State) : State :=
  { s with sar := { s.sar with
      pollux := ⟨done, d.chan, d.gain⟩
      tap := if isCell d.chan then d.chan else s.sar.tap
      tapFree := if isCell d.chan then done else s.sar.tapFree } }

/-- The SAR-done edge of a completion: one that both converters share counts once (08 R180). -/
def sarDone (other : Adc) (done : Nat) (s : State) : State := if other.free = done then s else cdnEdges 3 1 s

/-- The conversion at a position completes with its raw codes at its own edge, and its sample carries the stamp of its hold
edge (R147, R155, R162). -/
def seqConvert (tbl : List SeqEntry) (p : SeqPos) (raw twin : Nat) (s0 : State) : State :=
  let e := tbl.getD p.entry SeqEntry.none
  let start := slotStart s0 tbl p
  let done := doneAt start e.sample
  let s := elapseTo (sarStamp s0 done) s0
  let stamp := sarStamp s (holdAt start e.sample)
  let d := destOf s e p.chan
  match kindAt tbl p with
  | .solo =>
    autoTake e d.chan d.gain raw (takeOne d.chan d.gain d.acc d.trk stamp raw (sarDone s.sar.pollux done (castorDone d done s)))
  | .castor =>
    let t := castorDone d done { s with sar := { s.sar with pairAt := start } }
    autoTake e d.chan d.gain raw (takeOne d.chan d.gain d.acc d.trk stamp raw (sarDone s.sar.pollux done t))
  | .pollux =>
    autoTake e d.chan d.gain raw (takeOne d.chan d.gain d.acc d.trk stamp raw (sarDone s.sar.castor done (polluxDone d done s)))
  | .twin =>
    let e2 := tbl.getD (p.entry + 1) SeqEntry.none
    let d2 := destOf s e2 p.chan
    let t := cdnEdges 3 1 (polluxDone d2 done (castorDone d done s))
    autoTake e2 d2.chan d2.gain twin (autoTake e d.chan d.gain raw (takeTwin d d2 stamp raw twin t))

/-- Pollux's slot of an interleave pair is gone from the pass where a Flare takes it (R159). -/
def seqLose (tbl : List SeqEntry) (p : SeqPos) (s : State) : Option SeqPos × State :=
  if slotLost s tbl p then (seqNext s tbl p, { s with sar := { s.sar with gap := inc32 s.sar.gap } }) else (some p, s)

/-- Run conversions of a table from a position over the raw codes given; answers where the pass then stands. Codes are left
over where the pass ends, or where a Flare goes first (R159). -/
def seqRun (tbl : List SeqEntry) : Option SeqPos → List (Nat × Nat) → State → Option SeqPos × State
  | none, _, s => (none, s)
  | some p, [], s => seqLose tbl p s
  | some p, c :: r, s =>
    let l := seqLose tbl p s
    match l.1 with
    | none => l
    | some q =>
      if flareFirst l.2 tbl q then l
      else
        let t := seqConvert tbl q c.1 c.2 l.2
        let n := seqNext t tbl q
        seqRun tbl n r (biasStep tbl n (max t.sar.castor.free t.sar.pollux.free) t)

/-- CAPQ3_SRC selects a table (08 R185, R192). -/
def capq3 (s : State) (burst : Bool) : Bool :=
  prm s 0x0C04 == 2 || prm s 0x0C04 == bit burst

/-- The stamp of the last completion edge of a pass (08 R185). -/
def passStamp (s : State) : Nat := sarStamp s (max s.sar.castor.free s.sar.pollux.free)

/-- A Routine pass has ended: its last completion edge is captured where CAPQ3_SRC chooses it (08 R185, R187), and port
entries that were to go are gone (R153). -/
def routEnd (s : State) : State :=
  let t := if capq3 s false then capqPushFine 3 (passStamp s) s else s
  if t.sar.routDrop then { t with sar := { t.sar with routPort := [], routDrop := false } } else t

/-- A Burst pass has ended (R154): the passes count down or stop; Glint's takeover waits for this end (09 R224). -/
def burstEnd (s0 : State) : State :=
  let s := if capq3 s0 true then capqPushFine 3 (passStamp s0) s0 else s0
  if s.sar.burstStop ∨ s.sar.burstLeft = 1 then
    { s with sar := { s.sar with burstOn := false, burstStop := false, burstLeft := 0, burstPos := none } }
  else
    { s with sar := { s.sar with burstLeft := s.sar.burstLeft - 1, burstPos := seqStart s s.sar.burst } }

/-! ## Loss of state (R165) -/

/-- The SAR block at entry to Watch or Watch-L and at every entry to Melt: accumulators cleared, trackers empty, port
entries and the Flare queue gone, calibration as committed. -/
def sarWarm (s : State) : Sar :=
  { Sar.reset with
    cal := Vector.ofFn fun k : Fin 43 =>
      let b := s.par.committedOf (0x0E80 + k)
      ⟨signed 32 (leAt b 0 4), leAt b 4 4⟩ }

/-- The bytes of a calibration pair: OFFSET, then GAIN (16 R379). -/
def calBytes (c : Cal) : List Byte := leBytesS 4 c.offset ++ leBytes 4 c.gain

/-- An accumulator reply: COUNT, SUM, SSQ, XPR, OVR and the stamp of the read (03 R58). -/
def accBytes (a : Acc) (stamp : Nat) : List Byte :=
  leBytes 4 a.count ++ leBytesS 6 a.sum ++ leBytes 8 a.ssq ++ leBytesS 8 a.xpr ++ leBytes 2 a.ovr ++ leBytes 8 stamp

/-- A tracker reply: zenith, stamp, nadir, stamp, clamp (03 R58). -/
def trkBytes (t : Trk) : List Byte :=
  leBytesS 4 t.zenith ++ leBytes 8 t.zStamp ++ leBytesS 4 t.nadir ++ leBytes 8 t.nStamp
    ++ leBytes 1 (bit t.clampHi + 2 * bit t.clampLo)

/-- The ten bytes of a sequence entry (R150). -/
def seqBytes (e : SeqEntry) : List Byte :=
  leBytes 1 e.chan ++ leBytes 1 e.span ++ leBytes 2 e.sample ++ leBytes 1 e.mode.toNat ++ leBytes 1 e.acc
    ++ leBytes 1 e.trk ++ leBytes 2 e.repeat_ ++ [0]

/-- Read an entry from its ten bytes (R150). -/
def seqOfBytes (b : List Byte) : SeqEntry :=
  ⟨byteAt b 0, byteAt b 1, leAt b 2 2, BitVec.ofNat 8 (byteAt b 4), byteAt b 5, byteAt b 6, leAt b 7 2⟩

/-- The fields of an entry lie inside their ranges (R150, R151). -/
def seqFieldsOk (e : SeqEntry) (reserved : Nat) : Bool :=
  decide (1 ≤ e.span ∧ e.span ≤ 16) && decide (4 ≤ e.sample ∧ e.sample ≤ 1024)
  && decide (bitsOf e.mode.toNat 2 0 ≤ 4 ∧ bitsOf e.mode.toNat 3 3 = 0 ∧ bitsOf e.mode.toNat 7 6 = 0)
  && (e.acc == 0xFF || decide (e.acc + e.span - 1 ≤ 31)) && (e.trk == 0xFF || decide (e.trk + e.span - 1 ≤ 31))
  && decide (1 ≤ e.repeat_) && reserved == 0
  && chanOk (e.chan + e.span - 1) && chanRow e.chan == chanRow (e.chan + e.span - 1)
  && (bitsOf e.mode.toNat 2 0 == 0 || isShunt e.chan)
  && !(isIntlv e && (decide (1 < e.span) || isTwin e))

/-- The twin pairs of a load are well formed: a TWIN bit on the second entry of a pair is ignored (R151). -/
def twinsOk : List SeqEntry → Bool
  | [] => true
  | [e] => !isTwin e
  | e :: f :: r =>
    if isTwin e then
      e.span == f.span && e.sample == f.sample && e.repeat_ == f.repeat_
        && !(decide (e.chan ≤ 0x10) && decide (f.chan ≤ 0x10)) && twinsOk r
    else twinsOk (f :: r)

/-- Cut a payload into pieces of `n` bytes. -/
def chunks (n : Nat) : Nat → List Byte → List (List Byte)
  | 0, _ => []
  | k + 1, l => l.take n :: chunks n k (l.drop n)

end Sys2Proof.Machine
end

