-- ==== Sys2Proof/Machine/Aes.lean ====
section
/-! DEFINITION. AES-256 (FIPS 197) and the key wrap of RFC 3394 with the default initial value, which
13_digest_crucible.md R325, R328 and R331 and 14_tamper_quench.md R357 name. Bytes are natural numbers below 256. -/

namespace Sys2Proof.Machine

/-- Multiply by x in GF(2^8) modulo x^8 + x^4 + x^3 + x + 1. -/
def xtime (a : Nat) : Nat := if a < 128 then a * 2 else Nat.xor (a * 2 % 256) 0x1B

/-- Multiply in GF(2^8); `n` bits of the second factor. -/
def gmul : Nat → Nat → Nat → Nat
  | 0, _, _ => 0
  | n + 1, a, b => Nat.xor (if b % 2 = 1 then a else 0) (gmul n (xtime a) (b / 2))

/-- The AES S-box (FIPS 197 figure 7), as one string of hexadecimal rows. -/
def sboxRows : List Nat :=
  [0x637c777bf26b6fc53001672bfed7ab76, 0xca82c97dfa5947f0add4a2af9ca472c0, 0xb7fd9326363ff7cc34a5e5f171d83115,
   0x04c723c31896059a071280e2eb27b275, 0x09832c1a1b6e5aa0523bd6b329e32f84, 0x53d100ed20fcb15b6acbbe394a4c58cf,
   0xd0efaafb434d338545f9027f503c9fa8, 0x51a3408f929d38f5bcb6da2110fff3d2, 0xcd0c13ec5f974417c4a77e3d645d1973,
   0x60814fdc222a908846eeb814de5e0bdb, 0xe0323a0a4906245cc2d3ac629195e479, 0xe7c8376d8dd54ea96c56f4ea657aae08,
   0xba78252e1ca6b4c6e8dd741f4bbd8b8a, 0x703eb5664803f60e613557b986c11d9e, 0xe1f8981169d98e949b1e87e9ce5528df,
   0x8ca1890dbfe6426841992d0fb054bb16]

/-- The S-box at a byte. -/
def sbox (x : Nat) : Nat := sboxRows.getD (x / 16) 0 / 256 ^ (15 - x % 16) % 256

/-- The S-box as a list. -/
def sboxList : List Nat := (List.range 256).map sbox

/-- The inverse S-box at a byte. -/
def invSbox (y : Nat) : Nat := sboxList.idxOf y

/-- XOR two lists of bytes. -/
def xorList (a b : List Nat) : List Nat := List.zipWith Nat.xor a b

/-- Split a list into words of four bytes. -/
def words4 : Nat → List Nat → List (List Nat)
  | 0, _ => []
  | n + 1, l => l.take 4 :: words4 n (l.drop 4)

/-- Key expansion of AES-256: extend by `n` words; the newest word stands first; `i` is the index of the next word. -/
def expandKey : Nat → Nat → Nat → List (List Nat) → List (List Nat)
  | 0, _, _, ws => ws
  | n + 1, i, rcon, ws =>
    let prev := ws.getD 0 []
    let t :=
      if i % 8 = 0 then xorList ((prev.drop 1 ++ prev.take 1).map sbox) [rcon, 0, 0, 0]
      else if i % 8 = 4 then prev.map sbox
      else prev
    expandKey n (i + 1) (if i % 8 = 0 then xtime rcon else rcon) (xorList (ws.getD 7 []) t :: ws)

/-- Group words into round keys of sixteen bytes. -/
def roundKeysOf : Nat → List (List Nat) → List (List Nat)
  | 0, _ => []
  | n + 1, ws => (ws.take 4).flatten :: roundKeysOf n (ws.drop 4)

/-- The fifteen round keys of an AES-256 key. -/
def roundKeys (key : List Nat) : List (List Nat) :=
  roundKeysOf 15 (expandKey 52 8 1 (words4 8 key).reverse).reverse

/-- ShiftRows on the sixteen bytes in column order. -/
def shiftRows (s : List Nat) : List Nat := (List.range 16).map fun i => s.getD ((i + 4 * (i % 4)) % 16) 0

/-- The inverse of ShiftRows. -/
def invShiftRows (s : List Nat) : List Nat := (List.range 16).map fun i => s.getD ((i + 12 * (i % 4)) % 16) 0

/-- MixColumns with the coefficients of the first row. -/
def mixWith (m : List Nat) (s : List Nat) : List Nat :=
  (List.range 16).map fun i =>
    (List.range 4).foldl
      (fun acc k => Nat.xor acc (gmul 8 (s.getD (i / 4 * 4 + k) 0) (m.getD ((k + 4 - i % 4) % 4) 0))) 0

/-- Encrypt one block of sixteen bytes (FIPS 197 5.1). -/
def aesEncrypt (key block : List Nat) : List Nat :=
  let ks := roundKeys key
  let s0 := xorList block (ks.getD 0 [])
  let s1 := ((ks.drop 1).take 13).foldl
    (fun s k => xorList (mixWith [2, 3, 1, 1] (shiftRows (s.map sbox))) k) s0
  xorList (shiftRows (s1.map sbox)) (ks.getD 14 [])

/-- Decrypt one block of sixteen bytes (FIPS 197 5.3). -/
def aesDecrypt (key block : List Nat) : List Nat :=
  let ks := roundKeys key
  let s0 := xorList block (ks.getD 14 [])
  let s1 := ((ks.drop 1).take 13).reverse.foldl
    (fun s k => mixWith [14, 11, 13, 9] (xorList ((invShiftRows s).map invSbox) k)) s0
  xorList ((invShiftRows s1).map invSbox) (ks.getD 0 [])

/-- The default initial value of RFC 3394. -/
def wrapIv : List Nat := List.replicate 8 0xA6

/-- XOR a 64-bit count into eight bytes, most significant byte first. -/
def xorCount (a : List Nat) (t : Nat) : List Nat :=
  xorList a ((List.range 8).map fun i => t / 256 ^ (7 - i) % 256)

/-- Split into blocks of eight bytes. -/
def blocks8 : Nat → List Nat → List (List Nat)
  | 0, _ => []
  | n + 1, l => l.take 8 :: blocks8 n (l.drop 8)

/-- One pass of the wrap over the registers: `t` counts the steps. -/
def wrapPass (key : List Nat) : List Nat → Nat → List (List Nat) → List Nat × List (List Nat)
  | a, _, [] => (a, [])
  | a, t, r :: rs =>
    let b := aesEncrypt key (a ++ r)
    let q := wrapPass key (xorCount (b.take 8) t) (t + 1) rs
    (q.1, b.drop 8 :: q.2)

/-- `k` passes of the wrap. -/
def wrapPasses (key : List Nat) : Nat → Nat → List Nat → List (List Nat) → List Nat × List (List Nat)
  | 0, _, a, rs => (a, rs)
  | k + 1, t, a, rs =>
    let q := wrapPass key a t rs
    wrapPasses key k (t + rs.length) q.1 q.2

/-- One pass of the unwrap; the registers are given last first. -/
def unwrapPass (key : List Nat) : List Nat → Nat → List (List Nat) → List Nat × List (List Nat)
  | a, _, [] => (a, [])
  | a, t, r :: rs =>
    let b := aesDecrypt key (xorCount a t ++ r)
    let q := unwrapPass key (b.take 8) (t - 1) rs
    (q.1, b.drop 8 :: q.2)

/-- `k` passes of the unwrap, last first. -/
def unwrapPasses (key : List Nat) : Nat → Nat → List Nat → List (List Nat) → List Nat × List (List Nat)
  | 0, _, a, rs => (a, rs)
  | k + 1, t, a, rs =>
    let q := unwrapPass key a t rs
    unwrapPasses key k (t - rs.length) q.1 q.2

/-- The bytes of a list as numbers. -/
def nats (l : List Byte) : List Nat := l.map (·.toNat)

/-- Numbers as bytes. -/
def bytesOf (l : List Nat) : List Byte := l.map (BitVec.ofNat 8)

/-- Wrap a plaintext whose length is a multiple of 8 (RFC 3394 2.2.1). -/
def keyWrap (key plain : List Byte) : List Byte :=
  let n := plain.length / 8
  let q := wrapPasses (nats key) 6 1 wrapIv (blocks8 n (nats plain))
  bytesOf (q.1 ++ q.2.flatten)

/-- Unwrap; none when the integrity check fails (RFC 3394 2.2.2). -/
def keyUnwrap (key wrapped : List Byte) : Option (List Byte) :=
  let n := wrapped.length / 8 - 1
  let rs := (blocks8 n ((nats wrapped).drop 8)).reverse
  let q := unwrapPasses (nats key) 6 (6 * n) ((nats wrapped).take 8) rs
  if q.1 = wrapIv then some (bytesOf q.2.reverse.flatten) else none

end Sys2Proof.Machine
end

