-- ==== Sys2Proof/Machine/Sha.lean ====
section
/-! DEFINITION. The hash functions of FIPS 180-4 and HMAC of FIPS 198-1 (13_digest_crucible.md R314), on words held as
natural numbers below 2^32 or 2^64. A function code selects the function: 1 SHA-256, 2 SHA-384, 3 SHA-512,
4 SHA-512/256. -/

namespace Sys2Proof.Machine

/-- Rotate right by `r` in words of `w` bits. -/
def rotr (w r x : Nat) : Nat := (x >>> r ||| x <<< (w - r)) % 2 ^ w

/-- The 64-bit words of a number, `n` of them, the most significant first. -/
def words64 : Nat → Nat → List Nat
  | 0, _ => []
  | n + 1, x => x >>> (64 * n) % 2 ^ 64 :: words64 n x

/-- The constants of the 64-bit functions (FIPS 180-4 4.2.3), four in a number: the fractions of the cube roots of the first
eighty primes, to 64 bits. -/
def rootsCube : List Nat :=
  [0x428a2f98d728ae227137449123ef65cdb5c0fbcfec4d3b2fe9b5dba58189dbbc,
   0x3956c25bf348b53859f111f1b605d019923f82a4af194f9bab1c5ed5da6d8118,
   0xd807aa98a303024212835b0145706fbe243185be4ee4b28c550c7dc3d5ffb4e2,
   0x72be5d74f27b896f80deb1fe3b1696b19bdc06a725c71235c19bf174cf692694,
   0xe49b69c19ef14ad2efbe4786384f25e30fc19dc68b8cd5b5240ca1cc77ac9c65,
   0x2de92c6f592b02754a7484aa6ea6e4835cb0a9dcbd41fbd476f988da831153b5,
   0x983e5152ee66dfaba831c66d2db43210b00327c898fb213fbf597fc7beef0ee4,
   0xc6e00bf33da88fc2d5a79147930aa72506ca6351e003826f142929670a0e6e70,
   0x27b70a8546d22ffc2e1b21385c26c9264d2c6dfc5ac42aed53380d139d95b3df,
   0x650a73548baf63de766a0abb3c77b2a881c2c92e47edaee692722c851482353b] ++
  [0xa2bfe8a14cf10364a81a664bbc423001c24b8b70d0f89791c76c51a30654be30,
   0xd192e819d6ef5218d69906245565a910f40e35855771202a106aa07032bbd1b8,
   0x19a4c116b8d2d0c81e376c085141ab532748774cdf8eeb9934b0bcb5e19b48a8,
   0x391c0cb3c5c95a634ed8aa4ae3418acb5b9cca4f7763e373682e6ff3d6b2b8a3,
   0x748f82ee5defb2fc78a5636f43172f6084c87814a1f0ab728cc702081a6439ec,
   0x90befffa23631e28a4506cebde82bde9bef9a3f7b2c67915c67178f2e372532b,
   0xca273eceea26619cd186b8c721c0c207eada7dd6cde0eb1ef57d4f7fee6ed178,
   0x06f067aa72176fba0a637dc5a2c898a6113f9804bef90dae1b710b35131c471b,
   0x28db77f523047d8432caab7b40c724933c9ebe0a15c9bebc431d67c49c100d4c,
   0x4cc5d4becb3e42b6597f299cfc657e2a5fcb6fab3ad6faec6c44198c4a475817]

/-- The constants of the 64-bit functions one by one. -/
def sha512K : List Nat := rootsCube.flatMap (words64 4)

/-- The constants of SHA-256 (FIPS 180-4 4.2.2): the same fractions for the first sixty-four primes, to 32 bits. -/
def sha256K : List Nat := (sha512K.take 64).map fun k => k >>> 32

/-- The word width of a function in bits (FIPS 180-4). -/
def shaW (func : Nat) : Nat := if func = 1 then 32 else 64

/-- The block length in bytes (R314). -/
def shaBlock (func : Nat) : Nat := if func = 1 then 64 else 128

/-- The digest length in bytes (R314). -/
def shaLen (func : Nat) : Nat := if func = 1 then 32 else if func = 2 then 48 else if func = 3 then 64 else 32

/-- The initial hash value of a 64-bit function (FIPS 180-4 5.3), four words in a number: of SHA-384 the fractions of the
square roots of the ninth to the sixteenth prime, of SHA-512 those of the first eight. -/
def init64 (func : Nat) : List Nat :=
  (if func = 2 then
    [0xcbbb9d5dc1059ed8629a292a367cd5079159015a3070dd17152fecd8f70e5939,
     0x67332667ffc00b318eb44a8768581511db0c2e0d64f98fa747b5481dbefa4fa4]
  else if func = 3 then
    [0x6a09e667f3bcc908bb67ae8584caa73b3c6ef372fe94f82ba54ff53a5f1d36f1,
     0x510e527fade682d19b05688c2b3e6c1f1f83d9abfb41bd6b5be0cd19137e2179]
  else
    [0x22312194fc2bf72c9f555fa3c84c64c22393b86b6f53b151963877195940eabd,
     0x96283ee2a88effe3be5e1e25538639922b0199fc2c85b8aa0eb72ddc81c52ca2]).flatMap (words64 4)

/-- The initial hash value (FIPS 180-4 5.3): that of SHA-256 is that of SHA-512 to 32 bits. -/
def shaInit (func : Nat) : List Nat := if func = 1 then (init64 3).map fun x => x >>> 32 else init64 func

/-- The three amounts of one sigma function; a negative third amount would be a shift, given by `shift`. -/
def sigma (w a b c : Nat) (shift : Bool) (x : Nat) : Nat :=
  Nat.xor (Nat.xor (rotr w a x) (rotr w b x)) (if shift then x >>> c else rotr w c x)

/-- Lowercase sigma 0 of the message schedule. -/
def smallS0 (w x : Nat) : Nat := if w = 32 then sigma w 7 18 3 true x else sigma w 1 8 7 true x
/-- Lowercase sigma 1 of the message schedule. -/
def smallS1 (w x : Nat) : Nat := if w = 32 then sigma w 17 19 10 true x else sigma w 19 61 6 true x
/-- Uppercase sigma 0 of the rounds. -/
def bigS0 (w x : Nat) : Nat := if w = 32 then sigma w 2 13 22 false x else sigma w 28 34 39 false x
/-- Uppercase sigma 1 of the rounds. -/
def bigS1 (w x : Nat) : Nat := if w = 32 then sigma w 6 11 25 false x else sigma w 14 18 41 false x

/-- The words of a block, most significant byte first. -/
def blockWords (n : Nat) : Nat → List Byte → List Nat
  | 0, _ => []
  | k + 1, l => beNat (l.take n) :: blockWords n k (l.drop n)

/-- Extend the message schedule by `k` words; the newest word stands first. -/
def schedule (w : Nat) : Nat → List Nat → List Nat
  | 0, l => l
  | k + 1, l =>
    schedule w k
      ((smallS1 w (l.getD 1 0) + l.getD 6 0 + smallS0 w (l.getD 14 0) + l.getD 15 0) % 2 ^ w :: l)

/-- One round on the working variables a to h. -/
def shaRound (w : Nat) (v : List Nat) (kw : Nat × Nat) : List Nat :=
  match v with
  | [a, b, c, d, e, f, g, h] =>
    let t1 := h + bigS1 w e + Nat.xor (Nat.land e f) (Nat.land (2 ^ w - 1 - e) g) + kw.1 + kw.2
    let t2 := bigS0 w a + Nat.xor (Nat.xor (Nat.land a b) (Nat.land a c)) (Nat.land b c)
    [(t1 + t2) % 2 ^ w, a, b, c, (d + t1) % 2 ^ w, e, f, g]
  | _ => v

/-- Compress one block into the chaining state. -/
def shaCompress (func : Nat) (h : List Nat) (block : List Byte) : List Nat :=
  let w := shaW func
  let ks := if func = 1 then sha256K else sha512K
  let ws := (schedule w (ks.length - 16) (blockWords (w / 8) 16 block).reverse).reverse
  let v := (ks.zip ws).foldl (shaRound w) h
  (h.zip v).map fun p => (p.1 + p.2) % 2 ^ w

/-- Absorb complete blocks from `data`, at most `n` of them; answers the state and what is left. -/
def shaAbsorb (func : Nat) : Nat → List Nat → List Byte → List Nat × List Byte
  | 0, h, l => (h, l)
  | n + 1, h, l =>
    if l.length < shaBlock func then (h, l)
    else shaAbsorb func n (shaCompress func h (l.take (shaBlock func))) (l.drop (shaBlock func))

/-- The padding of a message of `total` bytes, of which `part` stand in the partial block (FIPS 180-4 5.1). -/
def shaPad (func total part : Nat) : List Byte :=
  let blk := shaBlock func
  let lenBytes := if func = 1 then 8 else 16
  let zeros := (blk + blk - 1 - lenBytes - part) % blk
  0x80 :: (List.replicate zeros 0 ++ beBytes lenBytes (8 * total))

/-- The digest a chaining state gives. -/
def shaOut (func : Nat) (h : List Nat) : List Byte :=
  ((h.map (beBytes (shaW func / 8))).flatten).take (shaLen func)

/-- Finish a computation: chaining state, partial block, bytes absorbed so far. -/
def shaFinish (func : Nat) (h : List Nat) (part : List Byte) (total : Nat) : List Byte :=
  shaOut func (shaAbsorb func 3 h (part ++ shaPad func total part.length)).1

/-- The digest of a whole message (FIPS 180-4). -/
def sha (func : Nat) (m : List Byte) : List Byte :=
  let a := shaAbsorb func (m.length / shaBlock func) (shaInit func) m
  shaFinish func a.1 a.2 m.length

/-- The chaining state after one block of the key XORed with a pad byte (FIPS 198-1; 13 R328). -/
def hmacPadState (func : Nat) (key : List Byte) (pad : Byte) : List Nat :=
  shaCompress func (shaInit func) ((padTo (shaBlock func) key).map fun b => b ^^^ pad)

/-- Finish an HMAC from its inner and outer states (13 R322): the inner digest is hashed under the outer state. -/
def hmacFinish (func : Nat) (outer : List Nat) (inner : List Byte) : List Byte :=
  shaFinish func outer inner (shaBlock func + inner.length)

/-- HMAC under cached inner and outer states (13 R328). -/
def hmacWith (func : Nat) (inner outer : List Nat) (m : List Byte) : List Byte :=
  let a := shaAbsorb func (m.length / shaBlock func) inner m
  hmacFinish func outer (shaFinish func a.1 a.2 (shaBlock func + m.length))

/-- HMAC under a raw key of at most one block. -/
def hmac (func : Nat) (key m : List Byte) : List Byte :=
  hmacWith func (hmacPadState func key 0x36) (hmacPadState func key 0x5C) m

end Sys2Proof.Machine
end

