-- ==== Sys2Proof/Machine/SlotOps.lean ====
section
/-! DEFINITION. Operations in flight: origins and ports, slots, final and interim statuses (03_sprue_commands.md R49,
R61 to R66). -/

namespace Sys2Proof.Machine

/-! ## Status codes (R61) -/

def stOk : Byte := 0x00
def stAccepted : Byte := 0x01
def stBusy : Byte := 0x02
def stNoSlot : Byte := 0x03
def stBadLen : Byte := 0x10
def stBadCrc : Byte := 0x11
def stBadOpc : Byte := 0x12
def stBadArg : Byte := 0x13
def stRange : Byte := 0x14
def stLocked : Byte := 0x20
def stAuthFail : Byte := 0x21
def stLockout : Byte := 0x22
def stConflict : Byte := 0x30
def stSuperseded : Byte := 0x31
def stAlready : Byte := 0x32
def stStage : Byte := 0x40
def stTampered : Byte := 0x41
def stQuenched : Byte := 0x42
def stNvFail : Byte := 0x50
def stDefer : Byte := 0x51
def stRemote : Byte := 0x60
def stNoPole : Byte := 0x61

/-! ## Origins (R49) -/

/-- The origin code (R49). -/
def originCode : Origin → Nat
  | .internal => 0
  | .hostNative => 1
  | .gen2 => 2
  | .gen1 => 3
  | .fieldNative => 4
  | .modbus => 5
  | .sdi => 6
  | .link => 7

/-- The port of an origin: all host generations are one port, and so are all field protocols (R63). -/
def originPort : Origin → Port
  | .internal => .internal
  | .hostNative => .host
  | .gen2 => .host
  | .gen1 => .host
  | .fieldNative => .field
  | .modbus => .field
  | .sdi => .field
  | .link => .link

/-- The COARSE class of an origin (08 R176). -/
def originCoarse (o : Origin) : CoarseClass :=
  match originPort o with
  | .internal => .internal
  | .host => .host
  | .field => .field
  | .link => .link

/-- The reserved slot of a port (R63, 16 R381). -/
def portSlot : Port → Nat
  | .internal => 0
  | .host => 1
  | .field => 2
  | .link => 3

/-! ## Slots -/

/-- The operations in flight, slot by slot. -/
def ops (s : State) : List Oper := s.sprue.slots.toList.filterMap id

/-- The operation with an id. -/
def opById (s : State) (i : Nat) : Option Oper := (ops s).find? fun o => o.id == i

/-- A slot free for a port: its reserved slot, else a shared one (R63). -/
def freeSlot (s : State) (p : Port) : Option Nat :=
  [portSlot p, 4, 5, 6, 7].find? fun i => (vget s.sprue.slots i none).isNone

/-- Change every operation that satisfies a test. -/
def mapOps (f : Oper → Oper) (s : State) : State :=
  { s with sprue := { s.sprue with slots := s.sprue.slots.map fun x => x.map f } }

/-- Change the operation with an id. -/
def modOp (i : Nat) (f : Oper → Oper) (s : State) : State := mapOps (fun o => if o.id = i then f o else o) s

/-- The final status and payload of an operation are determined; one already determined stays (R69). -/
def setFinal (i : Nat) (status : Byte) (payload : List Byte) (s : State) : State :=
  modOp i (fun o => match o.final with
    | none => { o with final := some (status, payload), ponr := true }
    | some _ => o) s

/-- Free the slot of an operation (R64). -/
def freeOp (i : Nat) (s : State) : State :=
  { s with sprue := { s.sprue with
      slots := s.sprue.slots.map fun x => match x with
        | some o => if o.id = i then none else some o
        | none => none } }

/-- The operation has passed its point of no return (R69). -/
def setPonr (i : Nat) (s : State) : State := modOp i (fun o => { o with ponr := true }) s

/-- The bits of FLG (R46). -/
def flgOrdered (f : BitVec 4) : Bool := f.getLsbD 0
def flgUrgent (f : BitVec 4) : Bool := f.getLsbD 1
def flgNoReply (f : BitVec 4) : Bool := f.getLsbD 2
def flgForce (f : BitVec 4) : Bool := f.getLsbD 3

end Sys2Proof.Machine
end

