-- ==== Sys2Proof/Machine/NvOps.lean ====
section
/-! DEFINITION. The Ingot store: journal records and transactions, the commit queue, reclaiming, key copies, the mark
plane and replay (15_ingot_store.md). -/

namespace Sys2Proof.Machine

/-! ## Records (R361, R362) -/

/-- The words of a record without its MARK. -/
def Rec.words (r : Rec) : Nat := r.len + 3

/-- The bytes of a value padded with 0 to whole words. -/
def padWords (b : List Byte) : List Byte := padTo ((b.length + 3) / 4 * 4) b

/-- A PARAM record; a value equal to its default is a tombstone (R362, R365). -/
def paramRec (id : Nat) (b : List Byte) : Rec :=
  if 0x0E80 ≤ id ∧ id ≤ 0x0EAA then ⟨0x12, id - 0x0E80, 2, .bytes b⟩
  else if b = prmDefault id then ⟨0x10, id, 0, .bytes []⟩
  else ⟨0x10, id, bodyWords id, .bytes b⟩

/-- A COUNTER record (R362). -/
def counterRec (key v : Nat) : Rec := ⟨0x40, key, 1, .words [v]⟩

/-- The LOCK record of the present lock state (13 R337). -/
def lockRec (s : State) : Rec :=
  ⟨0x41, 0, 4, .lock s.sec.lock s.sec.host.fails s.sec.host.k s.sec.host.until_.isSome
    s.sec.field.fails s.sec.field.k s.sec.field.until_.isSome⟩

/-! ## The journal -/

/-- Sector `i` of the journal. -/
def sectorAt (s : State) (i : Nat) : Sector := vget s.nv.sectors i Sector.blank

/-- Replace sector `i`. -/
def setSector (i : Nat) (x : Sector) (s : State) : State :=
  { s with nv := { s.nv with sectors := vset s.nv.sectors i x } }

/-- A sector that is blank and usable. -/
def Sector.free (x : Sector) : Bool := decide (x.used = 0) && !x.retired

/-- The stored records of a sector up to the first that does not verify (R371). -/
def Sector.readable (x : Sector) : List Stored := x.recs.takeWhile fun r => r.whole

/-- Every stored record that verifies, with its sector. -/
def storedAll (s : State) : List (Nat × Stored) :=
  (List.range 64).flatMap fun i => ((sectorAt s i).readable).map fun r => (i, r)

/-- TXN `a` is later than `b` by serial-number arithmetic mod 2^24 (R363). -/
def txnLater (a b : Nat) : Bool :=
  decide ((a + 2 ^ 24 - b % 2 ^ 24) % 2 ^ 24 < 2 ^ 23) && a % 2 ^ 24 != b % 2 ^ 24

/-- The first three conditions of R363: records 0 to the LAST are present and whole, and the MARK verifies. -/
def txnComplete (all : List (Nat × Stored)) (txn : Nat) : Bool :=
  match all.find? fun r => r.2.txn == txn && r.2.last && r.2.marked with
  | none => false
  | some l => (List.range l.2.index).all fun i => all.any fun r => r.2.txn == txn && r.2.index == i

/-- The committed transactions (R363). -/
def committedTxns (all : List (Nat × Stored)) : List Nat :=
  let done := ((all.map fun r => r.2.txn).dedup).filter (txnComplete all)
  done.filter fun a => done.all fun b => a == b || txnLater a b || txnLater b a

/-- The newest committed record of a TYPE and KEY (R363, R371). -/
def newestIn (all : List (Nat × Stored)) (done : List Nat) (typ key : Nat) : Option (Nat × Stored) :=
  (all.filter fun r => r.2.rcd.typ == typ && r.2.rcd.key == key && done.contains r.2.txn).foldl
    (fun best r => match best with
      | none => some r
      | some x => if txnLater r.2.txn x.2.txn then some r else some x) none

/-- The newest committed record of a TYPE and KEY. -/
def newest (s : State) (typ key : Nat) : Option Rec :=
  let all := storedAll s
  (newestIn all (committedTxns all) typ key).map fun r => r.2.rcd

/-- The newest committed record of every TYPE and KEY, with its sector: the live records (R366). -/
def liveRecs (s : State) : List (Nat × Stored) :=
  let all := storedAll s
  let done := committedTxns all
  ((all.map fun r => (r.2.rcd.typ, r.2.rcd.key)).dedup).filterMap fun k => newestIn all done k.1 k.2

/-- LIVE_WORDS: the words of the live records, the MARK of a LAST record included. -/
def liveWords (s : State) : Nat := ((liveRecs s).map fun r => r.2.rcd.words + bit r.2.last).sum

/-- The live words after a transaction: its records replace the newest of their TYPE and KEY. -/
def liveAfter (s : State) (recs : List Rec) : Nat :=
  (((liveRecs s).filter fun r => !recs.any fun n => n.typ == r.2.rcd.typ && n.key == r.2.rcd.key).map
      fun r => r.2.rcd.words + bit r.2.last).sum
    + (recs.map Rec.words).sum + 1

/-- The retired sectors. -/
def retiredNow (s : State) : List Nat := (List.range 64).filter fun i => (sectorAt s i).retired

/-- How many sectors are retired. -/
def retiredCount (s : State) : Nat := (retiredNow s).length

/-- The blank sectors ahead of the head, in ring order (R366). -/
def blankAhead (s : State) : List Nat :=
  ((List.range 63).map fun i => (s.nv.head + 1 + i) % 64).filter fun i => (sectorAt s i).free

/-- The oldest sector that holds records, from the head onward in ring order (R366). -/
def oldestSector (s : State) : Option Nat :=
  ((List.range 63).map fun i => (s.nv.head + 1 + i) % 64).find? fun i =>
    decide (0 < (sectorAt s i).used) &&
      (!(sectorAt s i).retired || (liveRecs s).any fun r => r.1 == i)

/-- The sector a record of `n` words goes to: the head where it fits and is usable and not left torn, else the next
blank sector (R361, R366; a torn record ends what replay reads of its sector, R371). -/
def placeFor (s : State) (n : Nat) : Nat :=
  let x := sectorAt s s.nv.head
  if !x.retired && decide (x.used + n ≤ 128) && x.recs.all (fun r => r.whole) then s.nv.head
  else (blankAhead s).headD s.nv.head

/-- The words a record needs in its place: with its MARK where it is the last of its transaction. -/
def needWords (recs : List Rec) (i : Nat) : Nat :=
  (match recs[i]? with | some r => r.words | none => 0) + bit (decide (i + 1 = recs.length))

/-- Begin to write record `i` of a transaction: its sector becomes the head and holds it as not yet whole. -/
def beginRec (txn i : Nat) (recs : List Rec) (s : State) : State :=
  match recs[i]? with
  | none => s
  | some r =>
    let p := placeFor s (needWords recs i)
    let x := sectorAt s p
    setSector p { x with recs := x.recs ++ [⟨txn, i, decide (i + 1 = recs.length), r, false, false⟩] }
      { s with nv := { s.nv with head := p } }

/-- One more word of the head sector is written. -/
def useWord (s : State) : State :=
  let x := sectorAt s s.nv.head
  setSector s.nv.head { x with used := x.used + 1 } s

/-- Change the last stored record of the head sector. -/
def modLast (f : Stored → Stored) (s : State) : State :=
  let x := sectorAt s s.nv.head
  setSector s.nv.head { x with recs := match x.recs.reverse with
    | [] => []
    | r :: rest => (f r :: rest).reverse } s

/-! ## What a commit puts in force -/

/-- A committed record takes its place among the committed values (R362): parameters and calibration pairs, the
counters' reservations, and an adopted configuration block. -/
def applyRec (s : State) (r : Rec) : State :=
  match r.typ, r.body with
  | 0x10, .bytes b => { s with par := { s.par with committed := sparseSet [] r.key b s.par.committed } }
  | 0x12, .bytes b => { s with par := { s.par with committed := sparseSet [] (0x0E80 + r.key) b s.par.committed } }
  | 0x50, .bytes b =>
    if s.link.gen ≤ leAt b 0 4 then { s with link := { s.link with cfg := some b, gen := leAt b 0 4 } } else s
  | 0x40, .words [v] =>
    if r.key = 0 then { s with link := { s.link with ctrRes := v } }
    else if r.key = 1 then { s with sec := { s.sec with useRes := v } }
    else { s with tamp := { s.tamp with rearmCtr := v } }
  | _, _ => s

/-- The eight chunks of profile slots that a transaction carries are joined (09 R201). -/
def profileOf (recs : List Rec) (slot : Nat) : Option (List Byte) :=
  let chunk (c : Nat) : Option (List Byte) :=
    (recs.find? fun r => r.typ == 0x11 && r.key == slot * 8 + c).bind fun r => match r.body with
      | .bytes b => some b
      | _ => none
  match (List.range 8).mapM chunk with
  | some cs => some cs.flatten
  | none => none

/-- A committed profile is the content of its slot; a profile in use by Bank A takes effect at the next step
(09 R201, R202). -/
def applyProfile (recs : List Rec) (s : State) (slot : Nat) : State :=
  match profileOf recs slot with
  | none => s
  | some b =>
    { s with gauge := { s.gauge with
        profiles := vset s.gauge.profiles slot (some b)
        profNew := s.gauge.profNew || slot == prm s 0x0501 } }

/-- The bytes that the configuration image takes (04 R89): the lock level and both ports' lockouts, three counters, the
adopted block with its digest, 43 calibration pairs, every other committed parameter with its ID and length, eight store
offsets for each profile, the CRC. The widths of the parts that R89 does not give are a DESIGN CHOICE (assumption log 149). -/
def imageSize (s : State) : Nat :=
  let params := s.par.committed.filter fun e => decide (e.1 < 0x0E80 ∨ 0x0EAA < e.1)
  1 + 2 * 6 + 3 * 4 + (1 + (match s.link.cfg with | some b => b.length + 8 | none => 0)) + 43 * 8
    + (params.map fun e => 3 + e.2.length).sum + 16 * (s.gauge.profiles.toList.filter Option.isSome).length + 4

/-- The image is rewritten with what has been committed; one that outgrows its 3072 bytes is marked OVERFLOW until a cold
start (04 R89). -/
def imageRewrite (s : State) : State :=
  { s with start := { s.start with imgOver := s.start.imgOver || decide (3072 < imageSize s) } }

/-- A transaction has committed: its records count (R363), and the configuration image follows them (04 R89). -/
def applyCommitted (recs : List Rec) (s : State) : State :=
  imageRewrite ([0, 1, 2, 3].foldl (applyProfile recs) (recs.foldl applyRec s))

/-- Write a whole transaction at once, as Pour does with the life number (04 R84, R93). -/
def journalNow (recs : List Rec) (s : State) : State :=
  let txn := s.nv.nextTxn
  let w := (List.range recs.length).foldl (fun s i =>
    let s1 := beginRec txn i recs s
    let s2 := modLast (fun r => { r with whole := true, marked := r.last }) s1
    let x := sectorAt s2 s2.nv.head
    setSector s2.nv.head { x with used := x.used + needWords recs i } s2) s
  applyCommitted recs { w with nv := { w.nv with nextTxn := (txn + 1) % 2 ^ 24, lastTxn := txn } }

/-! ## The commit queue (R364) -/

/-- Whether a transaction's operation gets the interim status DEFER (R109, R372). -/
def deferOp (t : Txn) (s : State) : State :=
  match t.opId with
  | some i => modOp i (fun o => { o with interim := some stDefer }) s
  | none => s

/-- Put a transaction into the queue; an internal one that finds it full waits for room (R364; assumption log 20). Under
BOW its operation gets DEFER, so its one run after the release is its retry (03 R62). -/
def enqueue (t0 : Txn) (s : State) : State :=
  let t := if s.pwr.bow then { t0 with bowRetry := true } else t0
  let s1 := if s.pwr.bow then deferOp t s else s
  if s.nv.queue.length < 8 then { s1 with nv := { s1.nv with queue := s1.nv.queue ++ [t] } }
  else { s1 with nv := { s1.nv with held := s1.nv.held ++ [t] } }

/-- Queue an internal transaction. -/
def commitInternal (recs : List Rec) (s : State) : State :=
  if recs = [] then s else enqueue ⟨none, now s, .records, recs, false, false⟩ s

/-- Queue the transaction of an operation. -/
def commitFor (i : Nat) (kind : TxnKind) (recs : List Rec) (s : State) : State :=
  enqueue ⟨some i, now s, kind, recs, false, false⟩ s

/-- The queue has no room for another operation (R364). -/
def queueFull (s : State) : Bool := decide (8 ≤ s.nv.queue.length)

/-- The transaction a job writes, or is to retry. -/
def Job.txn : Job → Option Txn
  | .journal t _ _ _ _ => some t
  | .keyCopy t _ _ => some t
  | .blank _ _ => none
  | .header _ _ t _ => t

/-- Every transaction that has not ended. -/
def openTxns (s : State) : List Txn := s.nv.queue ++ s.nv.held ++ s.nv.jobs.filterMap Job.txn

/-- A commit of the COUNTER record with this key has not ended. -/
def counterQueued (key : Nat) (s : State) : Bool :=
  (openTxns s).any fun t => t.recs.any fun r => r.typ == 0x40 && r.key == key

/-- The marks of a COMMIT are removed (R365). -/
def unmark (i : Nat) (p : Par) : Par :=
  { p with pending := p.pending.map fun e => if e.mark = some i then { e with mark := none } else e }

/-- A transaction has ended without success: the operation's final status, or a log entry for an internal one (R373,
14 R354), NVFAILS counts, and the marks of a COMMIT are removed (R365). -/
def txnFailed (t : Txn) (s : State) : State :=
  let s1 := { s with nv := { s.nv with nvfails := satTo 255 (s.nv.nvfails + 1) } }
  match t.opId with
  | some i => setFinal i stNvFail [] { s1 with par := unmark i s1.par }
  | none => logEvent 0x23 [0, 0, stNvFail, 0, 0] s1

/-- Move transactions that waited for room into the queue. -/
def refill (s : State) : State :=
  let n := 8 - s.nv.queue.length
  if s.pwr.bow then s
  else { s with nv := { s.nv with queue := s.nv.queue ++ s.nv.held.take n, held := s.nv.held.drop n } }

/-! ## Key area (R368) -/

/-- The copies of a slot. -/
def keyCopies (s : State) (slot : Nat) : List (Option KeyCopy) := vget s.nv.keyArea slot [none, none, none]

/-- A generation is later by 16-bit serial arithmetic. -/
def genLater (a b : Nat) : Bool := decide ((a + 65536 - b % 65536) % 65536 < 32768) && a % 65536 != b % 65536

/-- The index and content of the newest copy that verifies (R368). -/
def newestCopy (s : State) (slot : Nat) : Option (Nat × KeyCopy) :=
  ((keyCopies s slot).zipIdx.filterMap fun x => match x.1 with
    | some c => if c.whole then some (x.2, c) else none
    | none => none).foldl
    (fun best c => match best with
      | none => some c
      | some b => if genLater c.2.gen b.2.gen then some c else some b) none

/-- The stored key of a slot: the newest copy, where it is not an emptying copy (R368). -/
def storedKey (s : State) (slot : Nat) : Option KeyCopy :=
  match newestCopy s slot with
  | some c => if c.2.empty then none else some c.2
  | none => none

/-- The copy a KEY_LOAD writes: the one after the newest (R368). -/
def nextCopy (s : State) (slot : Nat) : Nat :=
  match newestCopy s slot with
  | some c => (c.1 + 1) % 3
  | none => 0

/-- Put a copy into the key area. -/
def putCopy (slot i : Nat) (c : Option KeyCopy) (s : State) : State :=
  { s with nv := { s.nv with keyArea := vset s.nv.keyArea slot ((keyCopies s slot).set i c) } }

/-- Every copy of every slot is erased (R369). -/
def eraseKeys (s : State) : State :=
  { s with nv := { s.nv with keyArea := Vector.replicate 16 [none, none, none] } }

/-! ## Mark plane (R370) -/

/-- The source of a mark word: 7 blank, 0 cleared. -/
def markSource (w : Word) : Nat := bitsOf w.toNat 31 29

/-- The class of a mark word: 1 Q1, 2 Q2 with the erase pending, 3 Q2 erased. -/
def markClass (w : Word) : Nat := bitsOf w.toNat 28 27

/-- A mark word: source, class, and bits 50:24 of the stamp. -/
def markWord (source cls stamp : Nat) : Word :=
  BitVec.ofNat 32 (source * 2 ^ 29 + cls * 2 ^ 27 + stamp / 2 ^ 24 % 2 ^ 27)

/-- A word with a source from 1 to 6 is a mark (R370). -/
def isMark (w : Word) : Bool := decide (1 ≤ markSource w ∧ markSource w ≤ 6)

/-- The quench mark is set: QMARK (16 R385). -/
def qmark (s : State) : Bool := s.nv.marks.toList.any isMark

/-- Write the next blank mark word; none left writes none (R370). -/
def putMark (w : Word) (s : State) : State :=
  match s.nv.marks.toList.findIdx? (fun x => markSource x == 7) with
  | some i => { s with nv := { s.nv with marks := vset s.nv.marks i w } }
  | none => s

/-- A mark of this source and stamp already stands in the plane. -/
def hasMark (source stamp : Nat) (s : State) : Bool :=
  s.nv.marks.toList.any fun w =>
    isMark w && markSource w == source && bitsOf w.toNat 26 0 == stamp / 2 ^ 24 % 2 ^ 27

/-- A mark word of class 2 with its class changed to 3. -/
def markErased (w : Word) : Word := w ||| 0x08000000#32

/-- The rewrite of the marks when a Q2 erase completes: class 2 becomes 3 (R369). -/
def marksErased (s : State) : State :=
  { s with nv := { s.nv with marks := s.nv.marks.map (fun w =>
      if isMark w && markClass w == 2 then markErased w else w) } }

/-- A rearm clears every active mark; without a blank word left the plane is written blank (R370). -/
def clearMarks (s : State) : State :=
  let m := s.nv.marks.map fun w => if isMark w then 0 else w
  { s with nv := { s.nv with
      marks := if m.toList.any (fun w => markSource w == 7) then m else Vector.replicate 64 0xFFFFFFFF } }

/-! ## Replay (R371) -/

/-- The retired sectors by the header copies: the valid copy with more of them (R371). -/
def headerMap (s : State) : List Nat :=
  if s.nv.hdrA && (!s.nv.hdrB || decide (s.nv.mapB.length ≤ s.nv.mapA.length)) then s.nv.mapA else s.nv.mapB

/-- The sectors are retired as the header says. -/
def replayHeader (s : State) : State :=
  { s with nv := { s.nv with sectors := Vector.ofFn fun i : Fin 64 =>
      { sectorAt s i with retired := (headerMap s).contains i.val } } }

/-- The head after replay: the first blank sector after the sector of the newest transaction; without one the head stays
there. -/
def replayHead (s : State) : Nat :=
  let all := storedAll s
  let done := committedTxns all
  let last := (all.filter fun r => done.contains r.2.txn).foldl
    (fun best r => match best with
      | none => some r
      | some x => if txnLater x.2.txn r.2.txn then some x else some r) (none : Option (Nat × Stored))
  match last with
  | none => 0
  | some l =>
    (((List.range 63).map fun i => (l.1 + 1 + i) % 64).find? fun i => (sectorAt s i).free).getD l.1

/-- The TXN after the newest in the journal. -/
def replayTxn (s : State) : Nat :=
  match (storedAll s).foldl (fun best r => match best with
      | none => some r.2.txn
      | some x => if txnLater r.2.txn x then some r.2.txn else some x) (none : Option Nat) with
  | some t => (t + 1) % 2 ^ 24
  | none => 0

/-- The committed parameters that replay finds: PARAM and CAL records (R362, R371). -/
def replayParams (s : State) : List (Nat × List Byte) :=
  (liveRecs s).foldl (fun l r => match r.2.rcd.typ, r.2.rcd.body with
    | 0x10, .bytes b => sparseSet [] r.2.rcd.key b l
    | 0x12, .bytes b => sparseSet [] (0x0E80 + r.2.rcd.key) b l
    | _, _ => l) []

/-- The committed counter of a key, 0 without a record. -/
def replayCounter (s : State) (key : Nat) : Nat :=
  match newest s 0x40 key with
  | some ⟨_, _, _, .words [v]⟩ => v
  | _ => 0

/-- The committed profile of a slot (09 R201). -/
def replayProfile (s : State) (slot : Nat) : Option (List Byte) :=
  match (List.range 8).mapM (fun c => (newest s 0x11 (slot * 8 + c)).bind fun r => match r.body with
      | .bytes b => some b
      | _ => none) with
  | some cs => some cs.flatten
  | none => none

end Sys2Proof.Machine
end

