-- ==== Sys2Proof/Machine/SecOps.lean ====
section
/-! DEFINITION. Digest contexts, key slots, lock level and lockouts (13_digest_crucible.md). -/

namespace Sys2Proof.Machine

/-! ## Contexts (R314 to R326) -/

/-- Context `n`. -/
def ctxAt (s : State) (n : Nat) : Ctx := vget s.sec.ctx n Ctx.closed

/-- Replace context `n`. -/
def setCtx (n : Nat) (c : Ctx) (s : State) : State := { s with sec := { s.sec with ctx := vset s.sec.ctx n c } }

/-- Replace key slot `n`. -/
def setKey (n : Nat) (k : KeySlot) (s : State) : State := { s with sec := { s.sec with keys := vset s.sec.keys n k } }

/-- A function code of R314. -/
def funcOk (f : Nat) : Bool := decide (1 ≤ f ∧ f ≤ 4)

/-- The chaining state a context begins from: the initial hash value, or its slot's inner state (R315). -/
def ctxStart (s : State) (func : Nat) : Option Nat → List Nat
  | none => shaInit func
  | some k => (keyAt s k).inner

/-- Absorb data into a context's running computation (R319). -/
def ctxAbsorb (data : List Byte) (c : Ctx) : Ctx :=
  let all := c.part ++ data
  let r := shaAbsorb c.func (all.length / shaBlock c.func) c.chain all
  { c with chain := r.1, part := r.2, absorbed := (c.absorbed + data.length) % 2 ^ 64 }

/-- Feed data: none changes nothing; data fed to a finished context silently restarts it and keeps the held digest
(R319, R323). -/
def ctxFeed (s : State) (data : List Byte) (c : Ctx) : Ctx :=
  if data = [] then c
  else if c.state = .finished then
    ctxAbsorb data { c with
      state := .opened, chain := ctxStart s c.func c.slot, part := [], absorbed := 0, restarted := true }
  else ctxAbsorb data c

/-- The digest or HMAC that finishing gives (R322); the key block counts in an HMAC's length. -/
def ctxDigest (s : State) (c : Ctx) : List Byte :=
  match c.slot with
  | none => shaFinish c.func c.chain c.part c.absorbed
  | some k => hmacFinish c.func (keyAt s k).outer (shaFinish c.func c.chain c.part (shaBlock c.func + c.absorbed))

/-- Finish a context: it holds its digest (R322). -/
def ctxFinish (s : State) (c : Ctx) : Ctx := { c with state := .finished, held := some (ctxDigest s c), part := [] }

/-- Two origins are one port, so one owner (R317). -/
def sameOwner (c : Ctx) (o : Origin) : Bool :=
  match c.owner with
  | some w => originPort w == originPort o
  | none => true

/-- The 208 bytes of an exported context (R325). -/
def exportPlain (c : Ctx) : List Byte :=
  let fin := c.state == .finished
  [0x01] ++ leBytes 1 c.func ++ leBytes 1 (c.slot.getD 0xFF) ++ leBytes 1 (bit fin + 2 * bit c.restarted)
    ++ leBytes 1 c.part.length ++ [0] ++ leBytes 2 (if c.slot.isSome then c.gen else 0) ++ leBytes 8 c.absorbed
    ++ padTo 64 ((c.chain.map (beBytes (shaW c.func / 8))).flatten)
    ++ padTo 128 (if fin then c.held.getD [] else c.part)

/-- A fused key as its 32 bytes (R327). -/
def fusedKey (f : Nat → Byte) : List Byte := (List.range 32).map f

/-! ## Key slots (R328 to R331) -/

/-- KEY_USE of a slot. -/
def keyUse (s : State) (slot : Nat) : Nat := prm s (0x0A10 + slot)

/-- A usage bit of a slot: 8 DG, 9 AUTH, 10 UNLOCK_U, 11 UNLOCK_O, 12 LINK (R330). -/
def useHas (s : State) (slot b : Nat) : Bool := decide (keyUse s slot / 2 ^ b % 2 = 1)

/-- The cached states of a raw key for a function (R328). -/
def cacheKey (func gen : Nat) (raw : List Byte) : KeySlot :=
  ⟨.loaded, gen, hmacPadState func raw 0x36, hmacPadState func raw 0x5C, func, false⟩

/-- Unwrap the stored key of a slot and rebuild its cache (R329); a slot without one is empty. -/
def loadSlot (s : State) (slot : Nat) : KeySlot :=
  match storedKey s slot with
  | none => { KeySlot.empty with gen := match newestCopy s slot with | some c => c.2.gen | none => 0 }
  | some c =>
    match keyUnwrap (fusedKey Config.wrapKey) c.wrapped with
    | some raw => cacheKey (keyUse s slot % 16) c.gen raw
    | none => ⟨.stored, c.gen, [], [], 0, false⟩

/-- A slot as it stands without its cache: stored where the store holds its key (R329). -/
def unloadSlot (s : State) (quenched : Bool) (slot : Nat) : KeySlot :=
  match storedKey s slot with
  | none => { KeySlot.empty with gen := (keyAt s slot).gen, quenched := quenched }
  | some c => ⟨.stored, c.gen, [], [], 0, quenched⟩

/-- Every slot without its cache. -/
def unloadAll (s : State) (quenched : Bool) : State :=
  { s with sec := { s.sec with keys := Vector.ofFn fun i : Fin 16 => unloadSlot s quenched i } }

/-- Every stored key is unwrapped (R329, 04 R93 step 4). -/
def loadAll (s : State) : State :=
  { s with sec := { s.sec with keys := Vector.ofFn fun i : Fin 16 => loadSlot s i } }

/-- The HMAC-SHA-256 under a slot's cached states. -/
def slotHmac (s : State) (slot : Nat) (m : List Byte) : List Byte :=
  hmacWith 1 (keyAt s slot).inner (keyAt s slot).outer m

/-- A slot that is not loaded because of a Quench answers QUENCHED (R329, 03 R75). -/
def slotQuenched (s : State) (slot : Nat) : Bool := !slotReady s slot && (keyAt s slot).quenched

/-! ## Lock level (R332, R333) -/

/-- The lock level as a number. -/
def Lock.code : Lock → Nat
  | .sealed => 0
  | .unsealed => 1
  | .opened => 2

/-- The lock level a number names; a number above 2 reads as SEALED. -/
def lockOfCode (n : Nat) : Lock := if n = 1 then .unsealed else if n = 2 then .opened else .sealed

/-- The lock state of a port. -/
def plOf (p : LockPort) (s : State) : PortLock :=
  match p with
  | .host => s.sec.host
  | .field => s.sec.field

/-- Replace the lock state of a port. -/
def setPl (p : LockPort) (l : PortLock) (s : State) : State :=
  match p with
  | .host => { s with sec := { s.sec with host := l } }
  | .field => { s with sec := { s.sec with field := l } }

/-- The lock port of an origin; internal and link packets hold no challenge. -/
def lockPortOf (o : Origin) : Option LockPort :=
  match originPort o with
  | .host => some .host
  | .field => some .field
  | _ => none

/-- The port class of unlock messages and log entries (R335). -/
def lockClass : LockPort → Nat
  | .host => 1
  | .field => 2

/-- Change the lock level: every outstanding challenge ends, the change is logged with its cause and the origin of the
packet that made it, and committed (R332, R333, 14 R354; 03 R49). -/
def setLevel (new : Lock) (cause origin : Nat) (s : State) : State :=
  if s.sec.lock = new then s
  else
    let s1 := { s with sec := { s.sec with
        lock := new, lockAt := now s
        host := { s.sec.host with chal := none }, field := { s.sec.field with chal := none } } }
    let s2 := logRaise 0x20 origin (leBytes 1 s.sec.lock.code ++ leBytes 1 new.code ++ leBytes 1 cause) s1
    commitInternal [lockRec s2] s2

/-- The minutes of lockout `k` (R337). -/
def lockoutMinutes (k : Nat) : Nat := if 9 ≤ k then 1440 else min (10 * 2 ^ (k - 1)) 1440

/-- An invalid response counts; the fifth starts the next lockout, logged with the origin of its packet (R337; 03 R49). -/
def countFailure (p : LockPort) (origin : Nat) (s : State) : State :=
  let l := plOf p s
  if l.fails + 1 < 5 then setPl p { l with fails := l.fails + 1 } s
  else
    let k := min (l.k + 1) 255
    let s1 := setPl p { l with
        fails := 0, k := k, chal := none, until_ := some (now s + secTicks (60 * lockoutMinutes k)) } s
    logRaise 0x22 origin (leBytes 1 (lockClass p) ++ leBytes 1 k ++ leBytes 2 (lockoutMinutes k)) s1

/-- The whole seconds left of a lockout (R337). -/
def lockoutSeconds (s : State) (l : PortLock) : Nat :=
  match l.until_ with
  | some t => (t - now s + 8191999) / 8192000
  | none => 0

/-- LOCKOUT_HOST and LOCKOUT_FIELD (R340): failure count, k, seconds remaining. -/
def lockoutBytes (s : State) (l : PortLock) : List Byte :=
  leBytes 1 l.fails ++ leBytes 1 l.k ++ leBytes 4 (lockoutSeconds s l)

/-- The target slot of an unlock: the lowest slot whose usage matches the target (R335; assumption log 31). -/
def unlockSlot (s : State) (target : Nat) : Option Nat :=
  (List.range 16).find? fun i => useHas s i (if target = 1 then 10 else 11) && ((keyAt s i).state != .empty || (keyAt s i).quenched)

/-- The response that verifies a challenge (R335). -/
def unlockResponse (s : State) (p : LockPort) (target slot : Nat) (chal : List Byte) : List Byte :=
  slotHmac s slot (chal ++ leBytes 4 (prm s 0x0101) ++ leBytes 1 target ++ leBytes 1 (lockClass p))

/-! ## Counters with a reservation (R339, 12 R288) -/

/-- A reservation 256 higher is committed when a counter comes within 64 of the one in force (R339). -/
def reserve (key ctr res : Nat) (s : State) : State :=
  if res ≤ ctr + 64 ∧ !counterQueued key s ∧ res < 0xFFFFFFFF then commitInternal [counterRec key (min (res + 256) 0xFFFFFFFF)] s else s

/-! ## Loss of state -/

/-- Contexts close, caches are emptied and challenges end at entry to Watch, Watch-L and Melt (R317, R329, R334); the
staging window is SRAM and is lost with them. -/
def secWarm (s : State) : State :=
  let s1 := unloadAll s false
  { s1 with sec := { s1.sec with
      ctx := Vector.replicate 6 Ctx.closed, staging := []
      host := { s1.sec.host with chal := none, consumed := none, round := [], roundAt := none }
      field := { s1.sec.field with chal := none, consumed := none, round := [], roundAt := none } } }

end Sys2Proof.Machine
end

