-- ==== Sys2Proof/Machine/TamperOps.lean ====
section
/-! DEFINITION. Tamper sources, responses, Quench, the log's commit and the evidence store (14_tamper_quench.md). -/

namespace Sys2Proof.Machine

/-! ## Sources (R342) -/

/-- The code of a source. -/
def srcCode : TampSrc → Nat
  | .lid => 1
  | .mesh => 2
  | .ingress => 3
  | .glitch => 4
  | .clock => 5
  | .temp => 6

/-- The six sources in the order of their codes. -/
def allSources : List TampSrc := [.lid, .mesh, .ingress, .glitch, .clock, .temp]

/-- The state of a source. -/
def srcOf (s : State) : TampSrc → Source
  | .lid => s.tamp.lid
  | .mesh => s.tamp.mesh
  | .ingress => s.tamp.ingress
  | .glitch => s.tamp.glitch
  | .clock => s.tamp.clock
  | .temp => s.tamp.temp

/-- Replace the state of a source. -/
def setSrc (k : TampSrc) (x : Source) (s : State) : State :=
  match k with
  | .lid => { s with tamp := { s.tamp with lid := x } }
  | .mesh => { s with tamp := { s.tamp with mesh := x } }
  | .ingress => { s with tamp := { s.tamp with ingress := x } }
  | .glitch => { s with tamp := { s.tamp with glitch := x } }
  | .clock => { s with tamp := { s.tamp with clock := x } }
  | .temp => { s with tamp := { s.tamp with temp := x } }

/-- A response as its code (R345). -/
def Resp.code : Resp → Nat
  | .log => 0
  | .alarm => 1
  | .q1 => 2
  | .q2 => 3

/-- The response a code names. -/
def respOfCode (n : Nat) : Resp := if n = 0 then .log else if n = 1 then .alarm else if n = 2 then .q1 else .q2

/-- A response of class Q1 or Q2. -/
def Resp.quench (r : Resp) : Bool := decide (2 ≤ r.code)

/-- The response that applies to an event recognised now: the TRESP parameter, capped at ALARM for LID and MESH under
SVC_CAP while the level is UNSEALED or OPEN (R345). -/
def responseOf (s : State) (k : TampSrc) : Resp :=
  let r := prm s (0x0B00 + srcCode k)
  let cap := (k == .lid || k == .mesh) && prm s 0x0B07 == 1 && s.sec.lock != .sealed
  respOfCode (if cap then min r 1 else r)

/-- A source as a LID reading (R353): the state byte of its log entry. -/
def lidByte : LidState → Nat
  | .closed => 0
  | .opened => 1
  | .indeterminate => 2

/-- The data of a tamper log entry (R353). -/
def tamperData (s : State) (k : TampSrc) (r : Resp) : List Byte :=
  leBytes 1 (srcCode k) ++ leBytes 1 r.code ++ leBytes 1 s.sec.lock.code
    ++ leBytes 1 (if k = .lid then lidByte s.tamp.lidState else 1)
    ++ leBytes 4 (srcOf s k).value ++ leBytes 2 (srcOf s k).count

/-- The tamper entry of the last event of a source, with extra flags: the stamp, how it was taken and the stage are those of
the event; an entry written later from the latch carries the RTC, the life number, the lock level and the LID reading of
its writing (R351, R353; assumption log 152). -/
def tamperEntry (s : State) (k : TampSrc) (r : Resp) (stamp extra : Nat) : LogEnt :=
  ⟨0, stamp, s.tmr.rtcSec, s.start.lifeAon, 0x40 + srcCode k, 0x0F,
    bit s.tmr.rtcValid + 2 * bit (srcOf s k).coarse + extra, (srcOf s k).stage, padTo 32 (tamperData s k r)⟩

/-! ## Quench (R349 to R352) -/

/-- The opcodes that hold a key or a context in flight (13 R341). -/
def keyOp (o : Op) : Bool :=
  [Op.dgOpen, .dgFeed, .dgDesc, .dgFinish, .dgExport, .dgImport, .authChal, .unlock, .keyLoad].contains o

/-- Every key operation in flight ends with TAMPERED; one whose final status stands keeps it (R341, R352). -/
def tamperOps (s : State) : State :=
  mapOps (fun o => match o.final with
    | none => if keyOp o.op then { o with final := some (stTampered, []), ponr := true } else o
    | some _ => o) s

/-- A KEY_LOAD copy whose last word, W24, is not yet written is abandoned, running, queued or held (R352). -/
def abandonKeyCopy (s : State) : State :=
  let keep (j : Job) : Bool := match j with | .keyCopy _ _ _ => false | _ => true
  let keepT (t : Txn) : Bool := match t.kind with | .key _ _ _ _ _ => false | _ => true
  { s with nv := { s.nv with
      jobs := s.nv.jobs.filter keep, queue := s.nv.queue.filter keepT, held := s.nv.held.filter keepT } }

/-- What Q1 zeroizes (R345, R349): all contexts and every slot cache, with the key operations in flight; the level is
SEALED, and without its key the part is no member of a constellation (12 R313). -/
def zeroize (s : State) : State :=
  let s1 := unloadAll (abandonKeyCopy (tamperOps s)) true
  let s2 := { s1 with
    sec := { s1.sec with
      ctx := Vector.replicate 6 Ctx.closed
      host := { s1.sec.host with chal := none, round := [], roundAt := none }
      field := { s1.sec.field with chal := none, round := [], roundAt := none } }
    link := { s1.link with role := .silent, txq := [] } }
  setLevel .sealed 3 noPacket s2

/-- The zeroization runs 128 SEC ticks from its start, at most 10.17 µs from the recognition, in which TAMP_STAT.QUENCH_BUSY
reads 1 (R349; assumption log 153). -/
def quenchBusy (s : State) : State := { s with tamp := { s.tamp with quenchTo := now s + 84 } }

/-- Write the quench mark of a source and start the erase of a Q2 (R349, R350). -/
def quenchWrite (k : TampSrc) (r : Resp) (stamp : Nat) (s : State) : State :=
  let s1 := if hasMark (srcCode k) stamp s then s
    else putMark (markWord (srcCode k) (if r = .q2 then 2 else 1) stamp) s
  if r = .q2 then { s1 with tamp := { s1.tamp with q2Erase := true, q2Stamp := stamp } } else s1

/-- The Ingot and the Forge cores can act on a tamper event at once: Pour or Cast with Lode on (R351). -/
def quenchReady (s : State) : Bool := lodeOn s && atLeast s .pour

/-- Keys are loaded in this state, so a Quench zeroizes them (R351). -/
def keysHeld (s : State) : Bool := atLeast s .pour

/-! ## Recognition (R345) -/

/-- The latch, count and stamps of an event (R345). -/
def latchSrc (stamp : Nat) (r : Resp) (value : Nat) (coarse : Bool) (stage : Nat) (x : Source) : Source :=
  { x with
    coarse := coarse
    stage := stage
    since := stamp
    latch := match x.latch with
      | some o => if o.code < r.code then some r else some o
      | none => some r
    count := satTo 65535 (x.count + 1)
    first := if x.count = 0 then stamp % 2 ^ 56 else x.first
    last := stamp % 2 ^ 56
    value := value }

/-- Log an event at once, or note that its entry is to be written from the latch (R350, R351). -/
def logTamper (k : TampSrc) (r : Resp) (stamp : Nat) (s : State) : State :=
  if quenchReady s then logPush s (tamperEntry s k r stamp 0)
  else setSrc k { srcOf s k with unlogged := true } s

/-- The key slot of the link holds a key and the link is enabled, so an ALARM frame can be sent (12 R303). -/
def alarmSendable (s : State) : Bool := prm s 0x0901 == 1 && slotReady s s.link.keySlot

/-- An ALARM frame to be sent: the source, the response and RTC_SEC (12 R279). -/
def alarmFrame (s : State) (k : TampSrc) (r : Resp) : TxFrame :=
  ⟨0x07, leBytes 1 (srcCode k) ++ leBytes 1 r.code ++ leBytes 4 s.tmr.rtcSec, 1, none, 0, none, now s, 0⟩

/-- The newest raised entry is marked as an ALARM that could not be sent: flag bit 2 (R303, R353). -/
def alarmUnsent (s : State) : State :=
  { s with tamp := { s.tamp with logWait := match s.tamp.logWait.reverse with
      | [] => []
      | e :: r => ({ e with flags := e.flags + 4 } :: r).reverse } }

/-- What response ALARM adds once the part runs (R345): the ALARM frame falls due. A Quench empties the key slot before
the frame could start, so its entry records it as unsent (12 R303, R313). -/
def alarmDue (k : TampSrc) (r : Resp) (s : State) : State :=
  if r = .log then s
  else if alarmSendable s && !r.quench then { s with link := { s.link with txq := s.link.txq ++ [alarmFrame s k r] } }
  else alarmUnsent s

/-- The bits of TAMP_STAT that events of GLITCH and CLOCK set; the other sources enter tamper (R342). -/
def enterTamper (k : TampSrc) (s : State) : State :=
  match k with
  | .glitch => { s with tamp := { s.tamp with glitchSeen := true } }
  | .clock => { s with tamp := { s.tamp with clockSeen := true } }
  | _ => setSrc k { srcOf s k with inTamper := true } s

/-- An event of a source is recognised now with its value, and its response is applied (R345, R351): latch, counts and
stamps; the log entry at once or from the latch later; the ALARM frame; for Q1 and Q2 the zeroization, the mark and the
erase as far as the state of the part allows; the wake. -/
def applyTamper (k : TampSrc) (value : Nat) (s0 : State) : State :=
  let r := responseOf s0 k
  let stamp := now s0
  let s1 := enterTamper k s0
  let s2 := setSrc k (latchSrc stamp r value (!tmrRuns s1) s1.start.stage.code (srcOf s1 k)) s1
  let s3 := if quenchReady s2 then alarmDue k r (logPush s2 (tamperEntry s2 k r stamp 0))
    else setSrc k { srcOf s2 k with unlogged := true } s2
  let s4 := if r.quench && keysHeld s3 then quenchBusy (zeroize s3) else s3
  let s5 := if r.quench && quenchReady s4 then quenchWrite k r stamp s4 else s4
  if r = .log then s5 else if lowPower s5 then beginWake s5 else { s5 with pwr := { s5.pwr with entry := none } }

/-- A mark for a Q-class latch of a source stands in the plane. -/
def marked (s : State) (k : TampSrc) (r : Resp) : Bool :=
  s.nv.marks.toList.any fun w => isMark w && markSource w == srcCode k && (r != .q2 || decide (2 ≤ markClass w))

/-- Take up the Quench and log work of a source again, after a wake from Doze or at Pour step 4 (R350, R351): the log
entry from the latch (flag bit 3 at Pour), the ALARM frame, the mark that is missing. -/
def resumeSource (extra : Nat) (s : State) (k : TampSrc) : State :=
  let x := srcOf s k
  match x.latch with
  | none => setSrc k { x with unlogged := false } s
  | some r =>
    let s1 := if x.unlogged then
        alarmDue k r (logPush (setSrc k { x with unlogged := false } s) (tamperEntry s k r x.last extra))
      else s
    if r.quench && !marked s1 k r then quenchWrite k r x.last s1 else s1

/-- The erase of a mark of class 2 runs again from its first word (R350). -/
def resumeErase (s : State) : State :=
  if s.nv.marks.toList.any (fun w => isMark w && markClass w == 2) then
    { s with tamp := { s.tamp with q2Erase := true } }
  else s

/-- A tamper entry of a source that was not committed before the reset is written from the latch instead, with flag bit 3;
one that records an unsent ALARM still does (R350, R353). -/
def rewriteWaiting (s : State) (k : TampSrc) : State :=
  let own (e : LogEnt) : Bool := e.typ == 0x40 + srcCode k
  match (srcOf s k).latch, s.tamp.logWait.reverse.find? own with
  | some r, some e =>
    logPush { s with tamp := { s.tamp with logWait := s.tamp.logWait.filter fun x => !own x } }
      (tamperEntry s k r (srcOf s k).last (8 + 4 * (e.flags / 4 % 2)))
  | _, _ => s

/-- Insert a source behind those whose last event is no later. -/
def insertSrc (s : State) (k : TampSrc) : List TampSrc → List TampSrc
  | [] => [k]
  | j :: r => if (srcOf s k).last < (srcOf s j).last then k :: j :: r else j :: insertSrc s k r

/-- The sources in the order of the stamps of their last events, those with the same stamp in the order of their codes
(R346). -/
def byStamp (s : State) : List TampSrc := allSources.foldl (fun l k => insertSrc s k l) []

/-- The work of all sources is taken up again in the order of their events. -/
def resumeTamper (extra : Nat) (s : State) : State := resumeErase ((byStamp s).foldl (resumeSource extra) s)

/-- The tamper entries that a reset found uncommitted are rewritten in the order of their events (R350). -/
def rewriteAll (s : State) : State := (byStamp s).foldl rewriteWaiting s

/-- At the Pour of a cold start a latched event is judged against the loaded configuration (04 R93, R100). -/
def rejudge (s : State) (k : TampSrc) : State :=
  let x := srcOf s k
  if x.unlogged then setSrc k { x with latch := some (responseOf s k) } s else s

/-- Pour may unwrap no key: a latched event of a source configured for Q1 or Q2, or a mark, remains (04 R95, R350). -/
def unwrapBarred (s : State) : Bool :=
  qmark s || allSources.any fun k => (srcOf s k).latch.isSome && decide (2 ≤ prm s (0x0B00 + srcCode k))

/-- The erase of the key area is complete: the mark is rewritten, the slots are empty, the entry is logged (R345, R353,
R369). -/
def eraseDone (s : State) : State :=
  let s1 := marksErased (eraseKeys s)
  let s2 := unloadAll { s1 with tamp := { s1.tamp with q2Erase := false } } true
  logEvent 0x47 (leBytes 8 s.tamp.q2Stamp) s2

/-! ## Log and evidence (R353, R355) -/

/-- Commit an entry: it takes the next index, and the 129th displaces the oldest; a tamper entry is copied into the
evidence store, which drops new arrivals when it is full (R353, R355). -/
def logStore (e0 : LogEnt) (s : State) : State :=
  let e := { e0 with index := s.tamp.logNext }
  let log := s.tamp.log ++ [e]
  let isT := tamperTyp e.typ
  { s with tamp := { s.tamp with
      log := log.drop (log.length - 128)
      logNext := (s.tamp.logNext + 1) % 2 ^ 32
      evid := if isT && decide (s.tamp.evid.length < 16) then s.tamp.evid ++ [e] else s.tamp.evid
      evidLost := if isT && decide (16 ≤ s.tamp.evid.length) then satTo 65535 (s.tamp.evidLost + 1) else s.tamp.evidLost } }

/-- The 56 bytes of an entry (R353). -/
def logBytes (e : LogEnt) : List Byte :=
  leBytes 4 e.index ++ leBytes 8 e.stamp ++ leBytes 4 e.rtc ++ leBytes 4 e.life ++ leBytes 1 e.typ ++ leBytes 1 e.origin
    ++ leBytes 1 e.flags ++ leBytes 1 e.stage ++ padTo 32 (e.data.take 32)

/-- The entries LOG_READ returns, at most `n`: from the named index on, from the oldest held where the named one is no
longer held, none past the newest. The 16 bits name an index by serial-number arithmetic against the next index (R356;
assumption log 24). -/
def logFrom (l : List LogEnt) (low16 next n : Nat) : List LogEnt :=
  let back := (next + 65536 - low16) % 65536
  if back = 0 ∨ 32768 < back then [] else (l.filter fun e => decide (next ≤ e.index + back)).take n

/-- TAMP_ACK clears the named latches whose response was LOG or ALARM (R347). -/
def tampAck (bits : Nat) (s : State) : State :=
  allSources.foldl (fun s k =>
    let x := srcOf s k
    if bits / 2 ^ (srcCode k - 1) % 2 = 1 then
      match x.latch with
      | some r => if r.quench then s else setSrc k { x with latch := none } s
      | none => s
    else s) s

/-- A rearm clears every latch, count and stamp (R357, 16 R385). -/
def clearSource (x : Source) : Source := { x with latch := none, count := 0, first := 0, last := 0, unlogged := false }

end Sys2Proof.Machine
end

