-- ==== Sys2Proof/Machine/Flags.lean ====
section
/-! DEFINITION. Computed pins and status words: every flag the manual derives from the state. -/

namespace Sys2Proof.Machine

/-! ## Protection (06 R128, R136) -/

/-- PROT_STAT.OVA: at least one cell OV fault. -/
def ova (s : State) : Bool := s.afe.ov.toList.any id

/-- PROT_STAT.UVA: at least one cell UV fault. -/
def uva (s : State) : Bool := s.afe.uv.toList.any id

/-- The ingress advisory is in force (14 R348). -/
def ingressOn (s : State) : Bool := s.tamp.ingress.inTamper

/-- The logic is held in reset, by VREG below BOR or NRST low (04 R76, 05 R104). -/
def heldReset (s : State) : Bool := !live s

/-- The hold of a trip runs: from the CBM edge after the trip on (R131, R132). -/
def holdOn (s : State) (o : Oc) : Bool := o.holdEnd.isSome && decide (o.assertAt ≤ now s)

/-- The latch of a bank holds its output: from the assertion of the trip that set it on (R132). -/
def latchOn (s : State) (o : Oc) : Bool := o.latch && (o.holdEnd.isNone || decide (o.assertAt ≤ now s))

/-- PRTA_N is asserted (R128); at a cold start it is low until the first ladder scan is complete (04 R79). -/
def prtA (s : State) : Bool :=
  heldReset s || s.afe.startLow || ova s || uva s || holdOn s s.afe.ocA || latchOn s s.afe.ocA || ingressOn s

/-- PRTB_N is asserted (R128); at a cold start it is low until the first ladder scan is complete (04 R79). -/
def prtB (s : State) : Bool :=
  heldReset s || s.afe.startLow || s.afe.uvb || holdOn s s.afe.ocB || latchOn s s.afe.ocB || ingressOn s

/-- PROT_STAT (R136). -/
def protStat (s : State) : Nat :=
  bit (prtA s) + 2 * bit (prtB s) + 4 * bit (ova s) + 8 * bit (uva s) + 16 * bit s.afe.uvb
    + 32 * bit (holdOn s s.afe.ocA) + 64 * bit (holdOn s s.afe.ocB)
    + 128 * bit s.afe.ocA.latch + 256 * bit s.afe.ocB.latch + 512 * bit (ingressOn s) + 1024 * bit s.afe.emberLim
    + 65536 * s.afe.ocA.count + 16777216 * s.afe.ocB.count

/-! ## Depassivation pulse (10 R246 to R248) -/

/-- The POLICY record: computed level and depassivation history (15 R362; 10 R246). -/
def policyRec (s : State) : Rec :=
  ⟨0x31, 0, 2, .policy s.pol.computed s.pol.dpasRtc s.pol.dpasOn s.pol.dpasN s.pol.dpasDay⟩

/-- The level that the SHED pins carry: all change together at one SLOW edge after the evaluation (10 R241). -/
def shedPins (s : State) : Nat := if now s < s.pol.pinsAt then s.pol.pinsOld else s.pol.pins

/-- SHED line `n` is asserted, driven high (10 R241). -/
def shedPin (s : State) (n : Nat) : Bool := decide (n < shedPins s)

/-- A running pulse ends: DPAS deasserts, and its energy counts for the day (10 R246, R247). -/
def pulseOver (s : State) : State :=
  if s.pol.dpas then
    { s with
      pol := { s.pol with
        dpas := false, dpasEnd := some (now s), dpasDay := s.pol.dpasDay + s.pol.dpasE
        dpasRtc := if s.tmr.rtcValid then some s.tmr.rtcSec else s.pol.dpasRtc }
      tmr := { s.tmr with cdn := vset s.tmr.cdn 3 { vget s.tmr.cdn 3 Cdn.reset with v := 0, buf := 0 } } }
  else s

/-- The end of a pulse, with its history committed (10 R244, 15 R362). -/
def endPulse (s : State) : State :=
  if s.pol.dpas then (let t := pulseOver s; commitInternal [policyRec t] t) else s

/-- A pulse ends at once when PRTB_N asserts (with a trip: at the CBM edge at which its hold begins), EOD is set or BOW
asserts (10 R248). -/
def dpasGuard (s : State) : State :=
  if prtB s || s.afe.ocB.holdEnd.isSome || s.gauge.eod || s.pwr.bow then endPulse s else s

/-! ## Words -/

/-- A list of bits as a number, the first the least significant. -/
def bitList : List Bool → Nat
  | [] => 0
  | b :: r => bit b + 2 * bitList r

/-- CELL_FAULT (R136). -/
def cellFault (s : State) : Nat := bitList s.afe.ov.toList + 65536 * bitList s.afe.uv.toList

/-- A balancing switch of cell index `i` is held open (R139): a UV fault, the die above BAL_TDIE, a stopped AFE domain, a
debug halt, a ladder scan in progress, a SAR conversion of the cell or of one beside it. -/
def balBlank (s : State) (i : Nat) : Bool :=
  s.afe.uv.toList.getD i false || s.afe.hot || !lodeOn s || s.clk.halt || sarBlank s (i + 1)
    || decide (s.afe.scanAt ≤ now s + 250 ∧ now s ≤ s.afe.scanAt + 32 * 250)

/-- BAL_DUTY of cell index `i` (16 R383). -/
def balDuty (s : State) (i : Nat) : Nat := vget s.afe.duty i 0 + 256 * bit (balBlank s i)

/-- The AFE tick of the balancing period, 0 to 1023: AFE edges come every 8 TMR ticks from the epoch on, where the period
begins (R138; 02 R30; assumption log 123). -/
def balTick (s : State) : Nat := (now s - s.tmr.epoch) / 8 % 1024

/-- The balancing switch of cell index `i` conducts: an odd-numbered cell from AFE tick 0 of the period, an even-numbered
one from tick 512, for 16 ticks a thirty-second of duty, unless it is held open (R138, R139). -/
def balConducts (s : State) (i : Nat) : Bool :=
  let start := if i % 2 = 0 then 0 else 512
  !balBlank s i && decide (start ≤ balTick s ∧ balTick s < start + 16 * min 32 (vget s.afe.duty i 0))

/-- The probe drive in mV, PRB0 against PRB1: a square wave of 512 Hz from SLOW, four SLOW ticks positive and four
negative, in every mode (R126; assumption log 123). -/
def probeDrive (s : State) : Int := if heldReset s then 0 else if now s / 8000 % 2 = 0 then 200 else -200

/-- The pull-up of LID to VREG: on for the AON tick before each SLOW edge (14 R342). -/
def lidPull (s : State) : Bool := !heldReset s && decide (now s / 250 % 8 = 7)

/-- In fine mode the mesh runs from the SEC domain; from Lode off, and until Pour has loaded its parameters, from the AON
domain (14 R342, R344). -/
def meshFine (s : State) : Bool := lodeOn s && atLeast s .pour

/-- MSHO: a pseudo-random bit, a new one every 128 SEC ticks or at each SLOW edge (14 R342); the manual does not give the
sequence. Low in reset (17 R404). -/
def mshoPin (s : State) : Bool := !heldReset s && Config.meshBit (if meshFine s then now s * 25 / 2048 else now s / 2000)

/-! ## Supply, clocks, timers -/

/-- PWR_STAT.DEFER_PEND: a DEFER operation awaits its retry (05 R108). -/
def deferPend (s : State) : Bool := (ops s).any fun o => o.interim == some stDefer && o.final.isNone

/-- PWR_STAT (05 R108). -/
def pwrStat (s : State) : Nat :=
  bit s.pwr.bow + 2 * bit s.pwr.bowSeen + 4 * bit s.pwr.vddioOk + 8 * bit (deferPend s) + 256 * s.pwr.vminStep
    + 65536 * s.pwr.bowCount

/-- CLK_STAT (16 R382). -/
def clkStat (s : State) : Nat :=
  bit (lodeOn s) + 2 * bit s.clk.onLfrc + 4 * bit s.clk.xtalFail + 8 * bit s.clk.lodeUnlock + 16 * bit s.clk.fllLock
    + 32 * bit s.clk.xtalQual + 256 * s.clk.lockTry + 65536 * s.clk.epochs

/-- The word at TMR offset 0x00C: COARSE_NOW and the COARSE flags (16 R384). -/
def coarseWord (s : State) : Nat :=
  bit (!tmrRuns s) + 2 * bit s.tmr.coarseInt + 4 * bit s.tmr.coarseHost + 8 * bit s.tmr.coarseField
    + 16 * bit s.tmr.coarseLink + 32 * bit s.tmr.coarseDbg

/-- The level of a TOUT pin: low through its weak pull-down while its TOUT_EN bit is 0 (08 R188). -/
def toutPin (s : State) (pin : Nat) (t : Tout) : Bool :=
  toutEnabled s pin && s.pwr.vddioOk && t.shown.getD (toutBase s pin t)

/-- TOUT_STATE (08 R188, 16 R384). -/
def toutState (s : State) : Nat := bit (toutPin s 0 s.tmr.tout0) + 2 * bit (toutPin s 1 s.tmr.tout1)

/-! ## SAR, digest, tamper, store -/

/-- SAR_STAT (07). -/
def sarStat (s : State) : Nat :=
  bit s.sar.refRdy + 2 * bit s.sar.routPos.isSome + 4 * bit s.sar.burstPos.isSome + 8 * bit s.sar.glintHold
    + 16 * bit s.sar.calRun + 32 * s.sar.flares.length + 256 * s.sar.routFw.length

/-- A CTX_STAT.STATE code (13). -/
def CtxState.code : CtxState → Nat
  | .closed => 0
  | .opened => 1
  | .finished => 3

/-- CTX_STAT (13); a context computes while a transfer into it runs. -/
def ctxStat (s : State) (c : Ctx) : Nat :=
  (if dmaRuns s c then 2 else c.state.code)
    + 8 * bit c.slot.isSome + 16 * bit c.restarted + 32 * bit (dmaRuns s c) + 64 * bit c.err
    + 256 * (match c.owner with | some o => originCode o | none => 0) + 4096 * c.slot.getD 0 + 65536 * c.func


/-- TAMP_STAT (14). -/
def tampStat (s : State) : Nat :=
  lidByte s.tamp.lidState + 4 * bit s.tamp.mesh.inTamper + 8 * bit s.tamp.ingress.inTamper + 16 * bit s.tamp.glitchSeen
    + 32 * bit s.tamp.clockSeen + 64 * bit s.tamp.temp.inTamper
    + 256 * bit (decide (now s < s.tamp.quenchTo)) + 512 * bit s.tamp.q2Erase

/-- TAMP_LATCH (16 R385). -/
def tampLatch (s : State) : Nat :=
  bitList (allSources.map fun k => (srcOf s k).latch.isSome) + 256 * bit (qmark s)

/-- GP1 is driven low: a latch of ALARM or higher is set and TAMP_PIN_EN is 1 (14 R345); while VDDIO_OK is clear the pad
is high-impedance (05 R105). -/
def gp1 (s : State) : Bool :=
  s.pwr.vddioOk && prm s 0x0B08 == 1 && allSources.any fun k => match (srcOf s k).latch with
    | some r => decide (1 ≤ r.code)
    | none => false

/-- A reclaim is running: a transaction is compacting its sector forward, or a sector is being blanked (15 R366). -/
def reclaiming (s : State) : Bool :=
  s.nv.jobs.any fun j => match j with
    | .journal _ _ _ _ v => v.isSome
    | .blank _ _ => true
    | .keyCopy _ _ _ => false
    | .header _ _ _ v => v.isSome

/-- Words of the store are being written (15 R375). -/
def nvBusy (s : State) : Bool := (!s.nv.jobs.isEmpty && !s.pwr.bow) || s.tamp.q2Erase

/-- Writes are held by BOW (15 R375). -/
def bowHold (s : State) : Bool := s.pwr.bow && (!s.nv.jobs.isEmpty || !s.nv.queue.isEmpty || !s.nv.held.isEmpty)

/-- NVM_STAT (15 R375). -/
def nvmStat (s : State) : Nat :=
  bit (nvBusy s) + 2 * bit (bowHold s) + 4 * bit s.nv.storeBad + 8 * bit (reclaiming s) + 16 * s.nv.queue.length
    + 256 * s.nv.head + 16384 * bit s.nv.patchFull + 65536 * retiredCount s + 16777216 * s.nv.nvfails

/-! ## Ports -/

/-- A result asserts HIRQ_N: its opcode group is not masked, or its operation carried URGENT (03 R67). -/
def hirqResult (s : State) (r : Result) : Bool :=
  r.urgent || decide (prm s 0x0804 / 2 ^ (r.opc.toNat / 16) % 2 = 0)

/-- HIRQ_N is asserted (03 R67). -/
def hirq (s : State) : Bool := s.sprue.resHost.any (hirqResult s)

/-- The HIRQ_N pad is driven low; while VDDIO_OK is clear it is high-impedance (03 R67, 05 R105). -/
def hirqPin (s : State) : Bool := hirq s && s.pwr.vddioOk

/-- GP0 is asserted as SMBALERT# (11 R262); while VDDIO_OK is clear the pad is high-impedance (05 R105). -/
def alertPin (s : State) : Bool := prm s 0x0801 == 1 && !s.start.hsel && !s.host.alerts.isEmpty && s.pwr.vddioOk

/-- FDE is driven high: a transmission on FTX with its guard times runs (11 R264; 05 R105). -/
def fdePin (s : State) : Bool := decide (s.field.fdeFrom ≤ now s ∧ now s < s.field.fdeTo) && s.pwr.vddioOk

/-- `n` bit times of the SDI-12 line at 1200 baud, in ticks of the base. -/
def sdiBits (n : Nat) : Nat := n * 20480 / 3

/-- GP2 is driven high, from 1 bit time before the first start bit of an SDI-12 response to 1 bit time after its last stop
bit, with SDI_EN at 1 (17 R402; 05 R105). -/
def gp2 (s : State) : Bool :=
  decide (s.field.sdiFrom ≤ now s ∧ now s < s.field.sdiTo) && prm s 0x0831 == 1 && s.pwr.vddioOk

/-- SDI_BUSY: a response is on the line, from its first start bit to its last stop bit (16 R385). -/
def sdiBusy (s : State) : Bool :=
  decide (s.field.sdiFrom + sdiBits 1 ≤ now s ∧ now s + sdiBits 1 < s.field.sdiTo)

/-- The levels of a character on FSDI, where high means spacing: a start bit, seven data bits from the lowest on, even
parity, a stop bit (11 R272; 17 R402). -/
def sdiLevels (b : Byte) : List Bool :=
  let data := (List.range 7).map b.getLsbD
  [true] ++ data.map (!·) ++ [!(data.foldl xor false)] ++ [false]

/-- The level FSDI drives: an output only while GP2 is high, an input else (17 R402). -/
def fsdiPin (s : State) : Option Bool :=
  if gp2 s then
    let k := (now s - s.field.sdiFrom) * 3 / 20480
    some (([false] ++ s.field.sdiOut.flatMap sdiLevels).getD k false)
  else none

/-- RDY: the reply queue has room (11 R250, R252). -/
def hostRdy (s : State) : Bool := decide (s.host.queue.length < 4)

/-- The SPI status byte (11 R250). -/
def spiStatus (s : State) : Nat :=
  bit (!s.host.queue.isEmpty) + 2 * bit (hostRdy s) + 4 * bit (hirq s) + 16 * s.start.stage.code

/-- The status word of PORTH (16 R385). -/
def porthStat (s : State) : Nat :=
  bit s.start.hsel + 2 * bit (hostRdy s) + 4 * bit (!s.host.queue.isEmpty) + 8 * bit (alertPin s)

/-- SLOT_BUSY (16 R381). -/
def slotBusy (s : State) : Nat := bitList (s.sprue.slots.toList.map Option.isSome)

/-- SYS_STAT (16 R381): LOCK reads 0 until Pour restores the level. -/
def sysStat (s : State) : Nat :=
  s.start.stage.code + 4 * bit s.start.estConf + 8 * (if atLeast s .pour then s.sec.lock.code else 0) + 32 * bit s.start.poked + 64 * bit s.start.life
    + 256 * slotBusy s + 65536 * s.par.pending.length

/-- RESET_CAUSE (16 R381). -/
def resetCause (s : State) : Nat := s.start.reason + 16 * s.start.fault + 65536 * s.start.warmCount

/-- RESULTS (16 R381). -/
def resultsWord (s : State) : Nat :=
  s.sprue.resHost.length + 16 * s.sprue.resField.length + 256 * s.sprue.resLink.length + 65536 * bit (hirq s)

/-- The link has no key: its slot is not loaded (12 R305). -/
def noKey (s : State) : Bool := !slotReady s s.link.keySlot

/-- The status word of LINK (16 R385). -/
def linkStat (s : State) : Nat :=
  bit (isMember s) + 2 * bit (s.link.role == .pole) + 4 * bit (s.link.role == .dim) + 8 * bit (noKey s)
    + 16 * bit (txOn s)

end Sys2Proof.Machine
end

