-- ==== Sys2Proof/Machine/Regs.lean ====
section
/-! DEFINITION. The register map: the sixteen blocks, what a read returns and clears, what a write does
(16_register_parameter_map.md R376 to R385). -/

namespace Sys2Proof.Machine

/-! ## Words and bytes -/

/-- Word `i` of a byte list, least significant byte first. -/
def wordAt (b : List Byte) (i : Nat) : Nat := leAt b (4 * i) 4

/-- Word `i` of a two's complement number of any width (R4, R6). -/
def wordOf (v : Int) (i : Nat) : Nat := (v / (2 ^ (32 * i) : Nat) % 4294967296).toNat

/-- An accumulator snapshot word (07 R165). -/
def accWord (a : Acc) (stamp i : Nat) : Nat :=
  match i with
  | 0 => a.count
  | 1 => wordOf a.sum 0
  | 2 => wordOf a.sum 1 % 65536
  | 3 => wordOf a.ssq 0
  | 4 => wordOf a.ssq 1
  | 5 => wordOf a.xpr 0
  | 6 => wordOf a.xpr 1
  | 7 => a.ovr
  | 9 => wordOf stamp 0
  | 10 => wordOf stamp 1
  | _ => 0

/-- A tracker snapshot word (07 R166). -/
def trkWord (t : Trk) (i : Nat) : Nat :=
  match i with
  | 0 => wordOf t.zenith 0
  | 1 => wordOf t.zStamp 0
  | 2 => wordOf t.zStamp 1
  | 3 => wordOf t.nadir 0
  | 4 => wordOf t.nStamp 0
  | 5 => wordOf t.nStamp 1
  | 6 => bit t.clampHi + 2 * bit t.clampLo
  | _ => 0

/-- Snapshot accumulator `n`, and clear it where asked (07 R164, R165). -/
def accSnapTake (n : Nat) (clear : Bool) (s : State) : State :=
  let a := vget s.sar.acc n Acc.empty
  { s with sar := { s.sar with
      accSnap := vset s.sar.accSnap n a, snapStamp := vset s.sar.snapStamp n (now s)
      acc := if clear then vset s.sar.acc n Acc.empty else s.sar.acc } }

/-- Snapshot tracker `n`, and empty it where asked (07 R166). -/
def trkSnapTake (n : Nat) (clear : Bool) (s : State) : State :=
  let t := vget s.sar.trk n Trk.empty
  { s with sar := { s.sar with
      trkSnap := vset s.sar.trkSnap n t, trk := if clear then vset s.sar.trk n Trk.empty else s.sar.trk } }

/-- The written value of SNAP acts: bit 0 takes a snapshot, bit 1 with it clears (07 R165). -/
def snapWrite (take : Bool → State → State) (v : Nat) (s : State) : State :=
  if v % 2 = 1 then take (decide (v / 2 % 2 = 1)) s else s

/-! ## Debug halt (02 R37, R40, 01 R19) -/

/-- A halt starts in Run or Burst with Lode on: CORE and TMR stop, and the watchdogs hold their counts while it lasts. -/
def haltOn (s : State) : State := if lodeOn s then { s with clk := { s.clk with halt := true } } else s

/-- A halt ends at the next AON edge (R40), from which the watchdogs count on (01 R19). -/
def haltOff (s : State) : State :=
  if s.clk.halt then
    let t := elapseTo (nextEdge s) s
    { t with clk := { t.clk with halt := false } }
  else s

/-! ## Addresses (R376, R377) -/

/-- The block of an address, none outside the sixteen blocks. -/
def blockOf (addr : Nat) : Option Nat :=
  if 0x40000000 ≤ addr ∧ addr < 0x40100000 then some ((addr - 0x40000000) / 0x10000) else none

/-- The level POKE needs in a block and offset: OPEN for DBG, compares 4 to 7, countdown 3, PATCH_PTR and PATCH_DATA,
UNSEALED else (R376). -/
def pokeOpen (b off : Nat) : Bool :=
  b == 0xF || (b == 7 && (decide (0x140 ≤ off ∧ off < 0x180) || decide (0x260 ≤ off ∧ off < 0x280)))
    || (b == 0xE && (off == 0x40 || off == 0x44))

/-- Whether a table of the manual defines a word (R377). -/
def regDefined (b off : Nat) : Bool :=
  off % 4 == 0 &&
  match b with
  | 0x0 => [0x0, 0x4, 0x8, 0x10, 0x14, 0x18].contains off
  | 0x1 => off == 0x10
  | 0x2 => off == 0x10 || decide (0x20 ≤ off ∧ off < 0x48)
  | 0x3 => off == 0x10 || off == 0x14 || decide (0x40 ≤ off ∧ off < 0x80)
      || (decide (0x100 ≤ off ∧ off < 0x500) && (prmOf (0x300 + (off - 0x100) / 4)).isSome)
  | 0x4 => [0x0, 0x4, 0x8, 0x40, 0x44, 0x48].contains off || decide (0x80 ≤ off ∧ off ≤ 0x98)
  | 0x5 => off == 0x10 || decide (0x20 ≤ off ∧ off ≤ 0x2C)
      || (decide (0x100 ≤ off ∧ off < 0x300) && off % 0x10 != 0xC) || decide (0x400 ≤ off ∧ off < 0x400 + 43 * 8)
  | 0x6 => (decide (off < 0x800) && decide (off % 0x40 ≤ 0x28)) || decide (0x800 ≤ off ∧ off < 0xC00)
  | 0x7 => [0x0, 0x4, 0x8, 0xC, 0x10, 0x14, 0x400].contains off || decide (0x100 ≤ off ∧ off < 0x180)
      || (decide (0x200 ≤ off ∧ off < 0x280) && decide (off % 0x20 ≤ 0x14))
      || (decide (0x300 ≤ off ∧ off < 0x400) && decide (off % 0x40 ≤ 0x28)) || decide (0x500 ≤ off ∧ off ≤ 0x514)
  | 0x8 => off == 0x10 || decide (0x20 ≤ off ∧ off ≤ 0x2C)
  | 0x9 => off == 0x10 || decide (0x20 ≤ off ∧ off ≤ 0x28)
  | 0xA => off == 0x10 || decide (0x100 ≤ off ∧ off < 0x140)
  | 0xB => (decide (0x100 ≤ off ∧ off < 0x280) && decide (off % 0x40 ≤ 0x18)) || decide (0x400 ≤ off ∧ off < 0x580)
      || decide (0x1000 ≤ off ∧ off < 0x2000)
  | 0xD => off == 0x10 || off == 0x14 || decide (0x50 ≤ off ∧ off < 0xB0)
  | 0xE => [0x10, 0x14, 0x18, 0x40, 0x44].contains off
  | 0xF => [0x0, 0x10, 0x14].contains off
  | _ => false

/-! ## Reads -/

/-- The protection register of parameter 0x03nn: the Ember limit of its check while EMBER_LIM is set, else the value in
force (R383); PRT_CLEAR reads 0. -/
def protReg (s : State) (id : Nat) : Nat :=
  if !s.afe.emberLim then prmForce s id
  else
    match id with
    | 0x301 => 4450
    | 0x302 => 50
    | 0x305 => 1
    | 0x310 => 50
    | 0x311 => 50
    | 0x312 => 95
    | 0x313 => 50
    | 0x314 => 50
    | 0x315 => 95
    | 0x316 => 4195
    | 0x317 => 32
    | 0x318 => 2000
    | 0x319 => 3
    | _ => 0

/-- The residency counter of index 0 to 4 (05 R122). -/
def residency (s : State) : Nat → Nat
  | 0 => s.pwr.resWatch
  | 1 => s.pwr.resWatchL
  | 2 => s.pwr.resDoze
  | 3 => s.pwr.resRun
  | _ => s.pwr.resBurst

/-- A word of an integrator (06 R145). -/
def cqWord (q : Cq) (off : Nat) : Nat :=
  if off = 0 then q.win + 16777216 * q.order
  else if off = 4 then bit q.outValid + 2 * bit q.new + 4 * bit q.sat + 8 * bit q.modRun + 65536 * q.satCnt
  else wordOf q.out 0

/-- A word of compare channel (16 R384). -/
def cmpWord (c : Cmp) (i : Nat) : Nat :=
  match i with
  | 0 => c.val
  | 1 => c.mode.toNat + 256 * bit c.fired
  | 2 => c.target / 2 ^ 32
  | _ => c.late + 256 * c.missed + 65536 * c.match_

/-- A word of a countdown (16 R384). -/
def cdnWord (c : Cdn) (i : Nat) : Nat :=
  match i with
  | 0 => c.v
  | 1 => c.buf
  | 2 => c.n + 65536 * c.f
  | 3 => c.src.toNat
  | 4 => bit c.zero + 65536 * c.zcount
  | _ => c.p

/-- A word of a capture queue (16 R384). -/
def capqWord (q : Capq) (i : Nat) : Nat :=
  match i with
  | 0 => q.held.length + 65536 * q.lostNow
  | 1 => 0
  | 10 => q.popped.length + 65536 * q.popLost
  | _ => wordAt ((q.popped.map capqBytes).flatten) (i - 2)

/-- A word of a tamper source: its stamps at 256 ticks and its count (16 R385). -/
def srcWord (x : Source) (i : Nat) : Nat :=
  match i with
  | 0 => x.first / 256 % 2 ^ 32
  | 1 => x.first / 2 ^ 40 % 65536 + 65536 * x.count
  | 2 => x.last / 256 % 2 ^ 32
  | _ => x.last / 2 ^ 40 % 65536

/-- A word of the timer block (16 R384). -/
def tmrWord (s : State) (off : Nat) : Nat :=
  let t := s.tmr
  if 0x300 ≤ off ∧ off < 0x400 then capqWord (capqAt s ((off - 0x300) / 0x40)) (off % 0x40 / 4)
  else if 0x200 ≤ off ∧ off < 0x300 then cdnWord (vget t.cdn ((off - 0x200) / 0x20) Cdn.reset) (off % 0x20 / 4)
  else if 0x100 ≤ off ∧ off < 0x200 then cmpWord (vget t.cmp ((off - 0x100) / 0x10) Cmp.reset) (off % 0x10 / 4)
  else
    match off with
    | 0x000 => bit t.sbCap.isSome
    | 0x004 => wordOf t.shadow0 0
    | 0x008 => wordOf t.shadow0 1
    | 0x00C => coarseWord s
    | 0x010 => wordOf t.epoch 0
    | 0x014 => wordOf t.epoch 1
    | 0x400 => toutState s
    | 0x500 => t.rtcSec
    | 0x504 => t.rtcSub
    | 0x508 => bit t.rtcValid + 65536 * (t.rtcSlew % 65536).toNat
    | 0x50C => t.anchorSec
    | 0x510 => wordOf t.anchorBase 0
    | 0x514 => wordOf t.anchorBase 1
    | _ => 0

/-- CTX_CFG: FUNC, SLOT, GEN at opening (16 R385). -/
def ctxCfg (c : Ctx) : Nat :=
  if c.state = .closed then 0 else c.func + 256 * c.slot.getD 0xFF + 65536 * (if c.slot.isSome then c.gen else 0)

/-- A word of a digest context (13). -/
def ctxWord (s : State) (c : Ctx) (i : Nat) : Nat :=
  match i with
  | 0 => ctxCfg c
  | 1 => ctxStat s c
  | 2 => c.dmaSrc
  | 3 => c.dlen
  | 5 => wordOf c.absorbed 0
  | 6 => wordOf c.absorbed 1
  | _ => 0

/-- The bytes of the staging window from an offset (13 R321). -/
def stagingBytes (s : State) (off n : Nat) : List Byte := (List.range n).map fun i => sparseGet 0 s.sec.staging (off + i)

/-- A word of the digest block. -/
def dgstWord (s : State) (off : Nat) : Nat :=
  if 0x1000 ≤ off then leNat (stagingBytes s (off - 0x1000) 4)
  else if 0x400 ≤ off then wordAt ((ctxAt s ((off - 0x400) / 0x40)).held.getD []) (off % 0x40 / 4)
  else ctxWord s (ctxAt s ((off - 0x100) / 0x40)) (off % 0x40 / 4)

/-- A word of the SAR block (07, R379). -/
def sarWord (s : State) (off : Nat) : Nat :=
  if 0x400 ≤ off then wordAt (calBytes (calOf s ((off - 0x400) / 8))) (off % 8 / 4)
  else if 0x200 ≤ off then
    (match s.sar.burst[(off - 0x200) / 0x10]? with | some e => wordAt (seqBytes e) (off % 0x10 / 4) | none => 0)
  else if 0x100 ≤ off then
    (match (routTable s)[(off - 0x100) / 0x10]? with | some e => wordAt (seqBytes e) (off % 0x10 / 4) | none => 0)
  else
    match off with
    | 0x10 => sarStat s
    | 0x20 => s.sar.gap
    | 0x24 => s.sar.pairDrop
    | 0x28 => s.sar.fullDrop
    | 0x2C => s.sar.routLate
    | _ => 0

/-- The source of index 1 to 6. -/
def srcByCode (n : Nat) : TampSrc :=
  match n with
  | 1 => .lid
  | 2 => .mesh
  | 3 => .ingress
  | 4 => .glitch
  | 5 => .clock
  | _ => .temp

/-- The debug status (16 R385): halted, OPEN, attached within 1 ms, the last access status. -/
def dbgStat (s : State) : Nat :=
  bit s.clk.halt + 2 * bit (atLeast s .pour && s.sec.lock == .opened)
    + 4 * bit (match s.clk.attachedAt with | some t => decide (now s < t + msTicks 1) | none => false) + 16 * s.clk.dbgLast

/-- What a defined word reads, without side effects; an undefined one reads 0 (R377, R381 to R385). -/
def regRead (s : State) (b off : Nat) : Nat :=
  if !regDefined b off then 0
  else
    match b with
    | 0x0 =>
      (match off with
      | 0x0 => 0x3631474D
      | 0x4 => 0x42 + 256 * 3 + 65536 * 1 + 16777216 * bit Config.variantQX
      | 0x8 => s.start.patchVer
      | 0x10 => sysStat s
      | 0x14 => resetCause s
      | _ => resultsWord s)
    | 0x1 => clkStat s
    | 0x2 => if off = 0x10 then pwrStat s else wordOf (residency s ((off - 0x20) / 8)) (off % 8 / 4)
    | 0x3 =>
      if off = 0x10 then protStat s else if off = 0x14 then cellFault s
      else if off < 0x100 then balDuty s ((off - 0x40) / 4) else protReg s (0x300 + (off - 0x100) / 4)
    | 0x4 =>
      if off < 0x40 then cqWord s.cqa off
      else if off < 0x80 then cqWord s.cqb (off - 0x40)
      else
        (match off with
        | 0x80 => bit (capturing s)
        | 0x84 => wordOf (capWord s s.cqa) 0
        | 0x88 => wordOf (capWord s s.cqa) 1 % 65536
        | 0x8C => wordOf (capWord s s.cqb) 0
        | 0x90 => wordOf (capWord s s.cqb) 1 % 65536
        | 0x94 => wordOf (capStampWord s) 0
        | 0x98 => wordOf (capStampWord s) 1
        | _ => 0)
    | 0x5 => sarWord s off
    | 0x6 =>
      if off < 0x800 then accWord (vget s.sar.accSnap (off / 0x40) Acc.empty) (vget s.sar.snapStamp (off / 0x40) 0) (off % 0x40 / 4)
      else trkWord (vget s.sar.trkSnap ((off - 0x800) / 0x20) Trk.empty) (off % 0x20 / 4)
    | 0x7 => tmrWord s off
    | 0x8 =>
      (match off with
      | 0x10 => porthStat s
      | 0x20 => s.host.hpDrop
      | 0x24 => s.host.pecErr
      | 0x28 => s.host.hnDrop
      | _ => s.host.smbTimeout)
    | 0x9 =>
      (match off with
      | 0x10 => s.field.proto + 4 * bit (fdePin s) + 8 * bit (sdiBusy s)
      | 0x20 => s.field.frameErr
      | 0x24 => s.field.mbCrcErr
      | _ => s.field.sdiNoResp)
    | 0xA => if off = 0x10 then linkStat s else vget s.link.counters ((off - 0x100) / 4) 0
    | 0xB => dgstWord s off
    | 0xD =>
      if off = 0x10 then tampStat s else if off = 0x14 then tampLatch s
      else srcWord (srcOf s (srcByCode ((off - 0x40) / 0x10))) (off % 0x10 / 4)
    | 0xE =>
      (match off with
      | 0x10 => nvmStat s
      | 0x14 => liveWords s
      | 0x18 => s.nv.lastTxn
      | 0x40 => s.nv.patchPtr
      | _ => 0)
    | 0xF =>
      (match off with
      | 0x0 => 0x36310D16
      | 0x10 => bit s.clk.halt
      | _ => dbgStat s)
    | _ => 0

/-- The rc fields of a word are cleared by a PEEK or a bus read (00 R7, R8). -/
def regClear (b off : Nat) (s : State) : State :=
  match b with
  | 0x1 => { s with clk := { s.clk with epochs := 0 } }
  | 0x2 => if off = 0x10 then { s with pwr := { s.pwr with vminStep := 0 } } else s
  | 0x3 =>
    if off = 0x10 then
      { s with afe := { s.afe with ocA := { s.afe.ocA with count := 0 }, ocB := { s.afe.ocB with count := 0 } } }
    else s
  | 0x4 =>
    if off = 4 then { s with cqa := { s.cqa with satCnt := 0 } }
    else if off = 0x44 then { s with cqb := { s.cqb with satCnt := 0 } }
    else s
  | 0x5 =>
    (match off with
    | 0x20 => { s with sar := { s.sar with gap := 0 } }
    | 0x24 => { s with sar := { s.sar with pairDrop := 0 } }
    | 0x28 => { s with sar := { s.sar with fullDrop := 0 } }
    | 0x2C => { s with sar := { s.sar with routLate := 0 } }
    | _ => s)
  | 0x7 =>
    if 0x100 ≤ off ∧ off < 0x180 ∧ off % 0x10 = 0xC then
      let n := (off - 0x100) / 0x10
      { s with tmr := { s.tmr with
          cmp := vset s.tmr.cmp n { vget s.tmr.cmp n Cmp.reset with missed := 0, match_ := 0 } } }
    else if 0x200 ≤ off ∧ off < 0x280 ∧ off % 0x20 = 0x10 then
      let n := (off - 0x200) / 0x20
      { s with tmr := { s.tmr with cdn := vset s.tmr.cdn n { vget s.tmr.cdn n Cdn.reset with zcount := 0 } } }
    else s
  | 0x8 =>
    (match off with
    | 0x20 => { s with host := { s.host with hpDrop := 0 } }
    | 0x24 => { s with host := { s.host with pecErr := 0 } }
    | 0x28 => { s with host := { s.host with hnDrop := 0 } }
    | 0x2C => { s with host := { s.host with smbTimeout := 0 } }
    | _ => s)
  | 0x9 =>
    (match off with
    | 0x20 => { s with field := { s.field with frameErr := 0 } }
    | 0x24 => { s with field := { s.field with mbCrcErr := 0 } }
    | 0x28 => { s with field := { s.field with sdiNoResp := 0 } }
    | _ => s)
  | 0xE => if off = 0x10 then { s with nv := { s.nv with nvfails := 0 } } else s
  | _ => s

/-- A PEEK of one word: its value, and the state with its rc fields cleared. -/
def peekWord (b off : Nat) (s : State) : Nat × State := (regRead s b off, if regDefined b off then regClear b off s else s)

/-- A PEEK of `n` words in ascending order (R377). -/
def peekWords (b : Nat) : Nat → Nat → State → List Byte × State
  | _, 0, s => ([], s)
  | off, n + 1, s =>
    let r := peekWord b off s
    let t := peekWords b (off + 4) n r.2
    (leBytes 4 r.1 ++ t.1, t.2)

/-! ## Writes -/

/-- A written value lies inside its field's documented range (R378, R13). -/
def pokeInRange (s : State) (b off v : Nat) : Bool :=
  match b with
  | 0x4 => if off = 0 ∨ off = 0x40 then decide (32 ≤ v % 2 ^ 21 ∧ v % 2 ^ 21 ≤ 1048576) else true
  | 0x7 =>
    if 0x100 ≤ off ∧ off < 0x180 ∧ off % 0x10 = 4 then cmpModeOk ((off - 0x100) / 0x10) (v % 256)
    else if 0x200 ≤ off ∧ off < 0x280 then
      let i := (off - 0x200) / 0x20
      let c := vget s.tmr.cdn i Cdn.reset
      if off % 0x20 = 8 then cdnSetOk i (v % 65536) c.src.toNat
      else if off % 0x20 = 0xC then cdnSetOk i 1 (v % 256)
      else true
    else true
  | 0xE => if off = 0x40 then decide (v ≤ 4095) else true
  | _ => true

/-- A free sum of modulator bits for a capture that no operand describes (assumption log 2). -/
def drawBits (s : State) : Bits × State :=
  let f (n : Nat) : Int := if n % 2 = 0 then (n / 2 : Nat) else -((n / 2 : Nat) : Int)
  let r1 := drawNat s
  let r2 := drawNat r1.2
  let r3 := drawNat r2.2
  let r4 := drawNat r3.2
  (⟨f r1.1, f r2.1, r3.1, r4.1⟩, r4.2)

/-- A write of CQ_CFG (06 R145). -/
def cqCfgSet (v : Nat) (q : Cq) : Cq := { q with win := v % 2 ^ 21, order := v / 2 ^ 24 % 4 }

/-- A write of CQ_STAT: NEW and SAT are w1c (06 R145). -/
def cqStatWrite (v : Nat) (q : Cq) : Cq :=
  { q with new := q.new && decide (v / 2 % 2 = 0), sat := q.sat && decide (v / 4 % 2 = 0) }

/-- The patch words: PATCH_PTR and PATCH_DATA (15 R375). -/
def patchPtrSet (v : Nat) (s : State) : State :=
  { s with nv := { s.nv with patchPtr := v % 4096, patchFull := false } }

/-- A word written to PATCH_DATA is stored at PATCH_PTR, which advances and holds at 4095; while PATCH_FULL is set it is
discarded (15 R375). -/
def patchDataSet (v : Nat) (s : State) : State :=
  if s.nv.patchFull then s
  else
    { s with nv := { s.nv with
        patch := sparseSet 0xFFFFFFFF#32 s.nv.patchPtr (BitVec.ofNat 32 v) s.nv.patch
        patchPtr := min 4095 (s.nv.patchPtr + 1)
        patchFull := decide (s.nv.patchPtr = 4095) } }

/-- A word stored in the staging window (13 R321). -/
def stagingWrite (off v : Nat) (s : State) : State :=
  { s with sec := { s.sec with staging := ((leBytes 4 v).zipIdx).foldl (fun l x => sparseSet 0 (off + x.2) x.1 l) s.sec.staging } }

/-- A write to the timer block (16 R384). A 1 does not clear a flag that an event of this very edge has set (00 R9). -/
def tmrWrite (off v : Nat) (s : State) : State :=
  let t := s.tmr
  if 0x300 ≤ off ∧ off < 0x400 then (if off % 0x40 = 4 then capqPop ((off - 0x300) / 0x40) s else s)
  else if 0x200 ≤ off ∧ off < 0x300 then
    let i := (off - 0x200) / 0x20
    let c := vget t.cdn i Cdn.reset
    match off % 0x20 with
    | 4 => cdnSet i v c.n c.f c.src s
    | 8 => cdnSet i c.buf (v % 65536) (v / 65536 % 256) c.src s
    | 12 => cdnSet i c.buf c.n c.f (BitVec.ofNat 8 v) s
    | 16 =>
      if v % 2 = 1 then
        { s with tmr := { t with cdn := vset t.cdn i { c with zero := c.zero && decide (c.zeroedAt = now s) } } }
      else s
    | _ => s
  else if 0x100 ≤ off ∧ off < 0x200 then
    let i := (off - 0x100) / 0x10
    let c := vget t.cmp i Cmp.reset
    match off % 0x10 with
    | 0 => cmpSet i v c.mode s
    | 4 =>
      cmpSet i c.val (BitVec.ofNat 8 v)
        (if v / 256 % 2 = 1 then
          { s with tmr := { t with cmp := vset t.cmp i { c with fired := c.fired && decide (c.firedAt = now s) } } }
        else s)
    | _ => s
  else if off = 0 then (if v % 2 = 1 then captureShadow0 s else s)
  else if off = 0xC then
    let kept (k : Nat) : Bool := decide (v / 2 ^ k % 2 = 0) || decide (t.coarseAt = now s)
    { s with tmr := { t with
        coarseInt := t.coarseInt && kept 1, coarseHost := t.coarseHost && kept 2, coarseField := t.coarseField && kept 3
        coarseLink := t.coarseLink && kept 4, coarseDbg := t.coarseDbg && kept 5 } }
  else s

/-- What a write to a word does, at the level that may write it: ro fields ignore it (00 R7), w1c, sc, wo and rw fields
act (R376 to R385). The words that R378 makes ro to POKE do nothing here. -/
def regWrite (b off v : Nat) (s : State) : State :=
  match b with
  | 0x0 => if off = 0x10 ∧ v / 32 % 2 = 1 then { s with start := { s.start with poked := false } } else s
  | 0x1 =>
    { s with clk := { s.clk with
        xtalFail := s.clk.xtalFail && decide (v / 4 % 2 = 0), lodeUnlock := s.clk.lodeUnlock && decide (v / 8 % 2 = 0) } }
  | 0x2 => if off = 0x10 ∧ v / 2 % 2 = 1 then { s with pwr := { s.pwr with bowSeen := false } } else s
  | 0x4 =>
    (match off with
    | 0x00 => { s with cqa := cqCfgSet v s.cqa, start := { s.start with poked := true } }
    | 0x04 => { s with cqa := cqStatWrite v s.cqa }
    | 0x40 => { s with cqb := cqCfgSet v s.cqb, start := { s.start with poked := true } }
    | 0x44 => { s with cqb := cqStatWrite v s.cqb }
    | 0x80 => if v % 2 = 1 then (let r := drawBits s; captureTallies r.1 r.2) else s
    | _ => s)
  | 0x6 =>
    if off < 0x800 then (if off % 0x40 = 0x20 then snapWrite (accSnapTake (off / 0x40)) v s else s)
    else if off % 0x20 = 0x1C then snapWrite (trkSnapTake ((off - 0x800) / 0x20)) v s
    else s
  | 0x7 => tmrWrite off v s
  | 0xB => if 0x1000 ≤ off then stagingWrite (off - 0x1000) v s else s
  | 0xD =>
    if off = 0x10 then
      { s with tamp := { s.tamp with
          glitchSeen := s.tamp.glitchSeen && decide (v / 16 % 2 = 0), clockSeen := s.tamp.clockSeen && decide (v / 32 % 2 = 0) } }
    else s
  | 0xE => if off = 0x40 then patchPtrSet v s else if off = 0x44 then patchDataSet v s else s
  | 0xF => if off = 0x10 then (if v % 2 = 1 then haltOn s else haltOff s) else s
  | _ => s

/-- A POKE of words in ascending order (R377). -/
def pokeWords (b : Nat) : Nat → List Nat → State → State
  | _, [], s => s
  | off, v :: r, s => pokeWords b (off + 4) r (regWrite b off v s)

end Sys2Proof.Machine
end

