-- ==== Sys2Proof/Machine/Resets.lean ====
section
/-! DEFINITION. Loss of state: what a start by the warm path and an entry to Watch lose, and what a cold start keeps
(00 R7, 01 R19, 02 R43, R44, 04 R76, R98). -/

namespace Sys2Proof.Machine

/-- The integrator fields without "ret" return to their reset values (00 R7, 06 R145), but for the output and its validity:
the filters have run throughout and are settled at once (04 R98). -/
def cqWarm (q : Cq) : Cq := { q with new := false, cap := 0, capOld := 0 }

/-- The link when its working state is lost: the receive table, the adopted configuration, the counters and the
reservation stay (12 R288, R289, 04 R88, R89; 16 R385). -/
def linkWarm (l : Link) : Link :=
  { Link.reset with
    lastBeacon := l.lastBeacon, ctr := l.ctr, ctrRes := l.ctrRes, rxTable := l.rxTable, cfg := l.cfg, gen := l.gen
    counters := l.counters, clearAt := l.clearAt }

/-- Every operation in flight, every stored result, every window, hold and reply is lost, and every field not marked
"ret" returns to its reset value (00 R7, 01 R19, 03 R59, R71). -/
def warmClear (s0 : State) : State :=
  let s := secWarm { s0 with sar := sarWarm s0 }
  { s with
    clk := { s.clk with halt := false, attachedAt := none, dbgLast := 0, lockTry := 0 }
    pwr := { s.pwr with hold := .none, entry := none, deferred := [] }
    start := { s.start with poked := false, fault := 0, estConf := false }
    tmr := tmrWarm s.tmr
    afe := { s.afe with duty := Vector.replicate 16 0, tbias := false }
    cqa := cqWarm s.cqa
    cqb := cqWarm s.cqb
    capStamp := 0
    capStampOld := 0
    capAt := 0
    glint := Glint.reset
    sprue := { Sprue.reset with nextId := s.sprue.nextId }
    host := HostPort.reset
    field := FieldPort.reset
    link := linkWarm s.link
    nv := { s.nv with queue := [], jobs := [], held := [], nvfails := 0, patchFull := false, patchPtr := 0 }
    tamp := { s.tamp with q2Erase := false } }

/-- AON returns to the crystal at an entry to Watch or a reset once the crystal has qualified (02 R43, 04 R78): ON_LFRC
clears, and the return is logged with the good cycles counted. -/
def returnToCrystal (s : State) : State :=
  if s.clk.onLfrc && s.clk.xtalQual then
    let t := logEvent 0x05 (leBytes 4 65536) s
    { t with clk := { t.clk with onLfrc := false } }
  else s

/-- Lode is lost or stopped at a reset and starts to lock again at this same instant: the manual gives the new start no
instant of its own (DESIGN CHOICE, assumption log 126). -/
def relock (s : State) : State := { s with clk := { s.clk with lode := .locking, lodeStart := now s } }

/-- The restart state is written into the older copy of the retained block (04 R88; 05 R117). -/
def retain (s : State) : State :=
  let c : RetCopy := ⟨max s.start.retA.seq s.start.retB.seq + 1,
    ⟨s.start.lifeAon, s.gauge, s.anneal, s.alm, s.pol, s.link⟩⟩
  if s.start.retA.seq ≤ s.start.retB.seq then { s with start := { s.start with retA := c } }
  else { s with start := { s.start with retB := c } }

/-- Both cores are reset and the part re-enters Melt on the warm path with a reason (01 R19, 02 R44, 03 R59, 04 R98).
A depassivation pulse ends (10 R248). Lode keeps running unless its lock was lost, which stops it at once (02 R44), or AON
returns to the crystal, for which it stops at the next SLOW edge (02 R38, R43). The block of R88 is kept current, so that it
holds the state of this instant (DESIGN CHOICE, assumption log 148). -/
def coreReset (reason : Nat) (lodeLost : Bool) (s0 : State) : State :=
  let c := retain (warmClear (pulseOver s0))
  let r := { c with
    pwr := { c.pwr with mode := .run }
    start := { c.start with
      stage := .ember, reason := reason, warmCount := satTo 65535 (c.start.warmCount + 1), life := true
      startBase := now s0, romFails := 0, released := false, patchDone := false } }
  let back := r.clk.onLfrc && r.clk.xtalQual
  if lodeLost then relock (returnToCrystal r)
  else if back && r.clk.lode == .on then relock (returnToCrystal (elapseTo (upSlow (now r)) r))
  else returnToCrystal r

/-- A cold start: tick 0 with everything but the Ingot store at its reset value (04 R76, 05 R107). The supply of the
digital pads is outside the reset. -/
def coldStart (reason : Nat) (s : State) : State :=
  { State.reset with
    pending := s.pending
    pwr := { Pwr.reset with vddioOk := s.pwr.vddioOk, vddioMin := s.pwr.vddioMin, nrstLow := false }
    start := { Start.reset with reason := reason }
    sprue := { Sprue.reset with nextId := s.sprue.nextId }
    tamp := { Tamp.reset with log := s.tamp.log, logNext := s.tamp.logNext, evid := s.tamp.evid }
    nv := { s.nv with queue := [], jobs := [], held := [], nvfails := 0, patchFull := false, patchPtr := 0 }
    drawn := s.drawn }

/-- A reset that holds the logic (NRST low, or VREG below BOR): nothing runs until it ends; the state it leaves is that
of the cold start to come, with its reason. -/
def holdReset (powered nrstLow : Bool) (reason : Nat) (s : State) : State :=
  let c := coldStart reason s
  { c with pwr := { c.pwr with powered := powered, nrstLow := nrstLow } }

end Sys2Proof.Machine
end

