-- ==== Sys2Proof/Machine/GaugeMath.lean ====
section
/-! DEFINITION. The gauge model's tables and formulas: profiles, temperatures, the cell filter, the coulomb account
(09_gauge_model.md R195 to R211). Rational arithmetic is exact; the transcendental functions are the part's own
(assumption log 2). -/

namespace Sys2Proof.Machine

/-! ## Rounding and quotients -/

/-- A reported quantity as a whole number: itself where it is whole, else a neighbour (assumption log 2). -/
def roundFree (q : Rat) : Int := if q.den = 1 then q.num else if Config.roundUp q then q.ceil else q.floor

/-- A reported quantity as a natural number of at most `m`; a negative one reads 0. -/
def repNat (m : Nat) (q : Rat) : Nat := min m (roundFree q).toNat

/-- A cell voltage in mV as a signed 16-bit number (01 R11), held at its bounds. -/
def repMv (q : Rat) : Int := clampI (-32768) 32767 (roundFree q)

/-- A quotient; one with divisor 0 is the part's own (assumption log 2). -/
def rdiv (a b : Rat) : Rat := if b = 0 then Config.divByZero a else a / b

/-- The magnitude of a rational. -/
def ratAbs (q : Rat) : Rat := if q < 0 then -q else q

/-- A rational held between two bounds. -/
def ratClamp (lo hi q : Rat) : Rat := if q < lo then lo else if hi < q then hi else q

/-- The lesser and the greater of two rationals. -/
def ratMin (a b : Rat) : Rat := if a ≤ b then a else b
def ratMax (a b : Rat) : Rat := if a ≤ b then b else a

/-! ## Profiles (R201) -/

/-- The profile a bank works with. -/
def profile (s : State) (b : Bank) : List Byte :=
  match vget s.gauge.profiles (prm s (match b with | .a => 0x0501 | .b => 0x0502)) none with
  | some p => p
  | none => (List.range 1024).map Config.emptyProfile

/-- A 16-bit field of a profile. -/
def pf (p : List Byte) (off : Nat) : Rat := leAt p off 2

/-- Table temperature `i` in K. -/
def pfTemp (p : List Byte) (i : Nat) : Rat := pf p (2 + 2 * i) / 10

/-- The bracket of a value among `n` ascending points: the lower index and the fraction, clamped at the ends (R202). -/
def bracket (pt : Nat → Rat) (n : Nat) (x : Rat) : Nat × Rat :=
  if x ≤ pt 0 then (0, 0)
  else if pt (n - 1) ≤ x then (n - 2, 1)
  else
    let i := ((List.range (n - 1)).find? fun j => decide (x < pt (j + 1))).getD (n - 2)
    (i, rdiv (x - pt i) (pt (i + 1) - pt i))

/-- Linear interpolation at a bracket. -/
def lerp (f : Nat → Rat) (b : Nat × Rat) : Rat := f b.1 + b.2 * (f (b.1 + 1) - f b.1)

/-- A table of five temperatures at a temperature (R202). -/
def atTemp (p : List Byte) (f : Nat → Rat) (t : Rat) : Rat := lerp f (bracket (pfTemp p) 5 t)

/-- OCV in mV at a SOC and a temperature. -/
def ocv (p : List Byte) (soc t : Rat) : Rat :=
  let bs := bracket (fun j => (j : Rat) / 32) 33 soc
  atTemp p (fun i => lerp (fun j => pf p (12 + 66 * i + 2 * j)) bs) t

/-- dOCV/dSOC in mV: the slope of the table segment that holds the SOC, the upper one at a table point. -/
def ocvSlope (p : List Byte) (soc t : Rat) : Rat :=
  let j := min 31 (soc * 32).floor.toNat
  atTemp p (fun i => (pf p (12 + 66 * i + 2 * (j + 1)) - pf p (12 + 66 * i + 2 * j)) * 32) t

/-- The SOC at which the OCV reads a value: OCV⁻¹ by the first table segment that reaches it (10 R237). -/
def ocvInv (p : List Byte) (v t : Rat) : Rat :=
  let pt (j : Nat) : Rat := ocv p ((j : Rat) / 32) t
  let j := ((List.range 32).find? fun j => decide (v < pt (j + 1))).getD 31
  ratClamp 0 1 ((j : Rat) / 32 + rdiv (v - pt j) (pt (j + 1) - pt j) / 32)

/-- A resistance table in µΩ: 0 RS, 1 RF, 2 RL, by temperature and SOC (R201; assumption log 8). -/
def resist (p : List Byte) (k : Nat) (soc t : Rat) : Rat :=
  let bs := bracket (fun j => (j : Rat) / 4) 5 soc
  atTemp p (fun i => lerp (fun j => pf p (342 + 30 * i + 10 * k + 2 * j)) bs) t

/-- τF and τL in s: five τF, then five τL; the spec does not give their order (DESIGN CHOICE, assumption log 130). -/
def tauF (p : List Byte) (t : Rat) : Rat := atTemp p (fun i => pf p (492 + 2 * i) / 10000) t
def tauL (p : List Byte) (t : Rat) : Rat := atTemp p (fun i => pf p (502 + 2 * i) / 10) t

/-- Hmax in mV, Zref in µΩ. -/
def hMax (p : List Byte) (t : Rat) : Rat := atTemp p (fun i => pf p (512 + 2 * i)) t
def zRef (p : List Byte) (t : Rat) : Rat := atTemp p (fun i => pf p (524 + 2 * i)) t

/-- A profile of chemistry LFP carries hysteresis (R204). -/
def isLfp (p : List Byte) : Bool := byteAt p 0 == 1

/-- A stored profile passes the checks of MODEL_LOAD (R201): the CRC matches and the temperatures ascend. -/
def profileOk (p : List Byte) : Bool :=
  p.length == 1024 && leAt p 1020 4 == crc32 (p.take 1020)
    && (List.range 4).all fun i => decide (leAt p (2 + 2 * i) 2 < leAt p (4 + 2 * i) 2)

/-! ## Readings of the past step (R193, R194) -/

/-- The mean of an accumulator in its sample units. -/
def accMean (a : Acc) : Rat := rdiv (a.sum : Rat) a.count

/-- A thermistor's temperature in K from its ratio (R203). -/
def ntcTemp (p : List Byte) (x : Rat) : Rat :=
  let r := rdiv (pf p 552 * 10 * x) (1 - x)
  rdiv 1 (1 / 298.15 + rdiv (Config.ln (rdiv r (pf p 548 * 10))) (pf p 550))

/-- The lowest three thermistors set in either map (R194). -/
def thermList (s : State) : List Nat :=
  let m := Nat.lor (prm s 0x0504) (prm s 0x0505)
  ((List.range 8).filter fun i => m / 2 ^ i % 2 == 1).take 3

/-- The pack temperature of a bank in K (R203): the mean of its mapped thermistors, else the die temperature. -/
def packTemp (s : State) (b : Bank) (acc : Nat → Acc) : Rat :=
  let map := prm s (match b with | .a => 0x0504 | .b => 0x0505)
  let ts := (thermList s).zipIdx.filterMap fun x =>
    if map / 2 ^ x.1 % 2 = 1 then some (ntcTemp (profile s b) (accMean (acc (20 + x.2)) / 500000)) else none
  if ts = [] then accMean (acc 23) / 1000 else ts.sum / (ts.length : Rat)

/-- A bank's voltage in mV, and the die temperature in 0.1 K that PACK_TEMP is in Melt, as the Melt Routine has read them so
far (04 R85, R92; 16 R391; assumption log 133). An absent Bank B reads 0 (01 R27). -/
def meltVolt (s : State) (b : Bank) : Nat :=
  match b with
  | .a => repNat 0xFFFFFFFF (accMean (vget s.sar.acc 16 Acc.empty) / 5)
  | .b => if prm s 0x0205 = 1 then repNat 0xFFFFFFFF (accMean (vget s.sar.acc 17 Acc.empty) / 5) else 0
def meltTemp (s : State) : Nat := repNat 65535 (accMean (vget s.sar.acc 23 Acc.empty) / 100)

/-- The model temperature of a bank: TINT while valid, else the pack temperature (R203). -/
def modelTemp (a : Acct) (t : Nat) : Rat :=
  match a.tint with
  | some (k, until_) => if t < until_ then k else a.temp
  | none => a.temp

/-! ## Coulomb accounting (R195, R196) -/

/-- The shunt in Ω (R142). -/
def shuntOhm (s : State) (b : Bank) : Rat := (shuntOf b s : Rat) / 1000000

/-- q, the charge of one count in C (R195). -/
def countC (s : State) (b : Bank) : Rat := rdiv (1 / 10) (shuntOhm s b * 524288)

/-- The calibration pair of an integrator (R171). -/
def cqCal (s : State) (b : Bank) : Cal := calOf s (match b with | .a => 35 | .b => 36)

/-- g, the gain of an integrator (R195). -/
def cqGain (s : State) (b : Bank) : Rat := ((cqCal s b).gain : Rat) / 1073741824

/-- The account of a bank. -/
def acctOf (b : Bank) (s : State) : Acct :=
  match b with
  | .a => s.gauge.a
  | .b => s.gauge.b

/-- Replace the account of a bank. -/
def setAcct (b : Bank) (x : Acct) (s : State) : State :=
  match b with
  | .a => { s with gauge := { s.gauge with a := x } }
  | .b => { s with gauge := { s.gauge with b := x } }

/-- C of a bank in mAh (R195). -/
def chargeC (s : State) (b : Bank) : Rat :=
  let x := acctOf b s
  cqGain s b * ((x.q : Rat) + x.aOff / 65536) * countC s b * (10 / 36) + x.aSelf / 1000

/-- The difference of two 48-bit tallies (R83). -/
def tallyDiff (t t0 : Int) : Int := wrap48 (t - t0)

/-- The residency counters as a list in the order of R122. -/
def resList (s : State) : List Nat := [s.pwr.resWatch, s.pwr.resWatchL, s.pwr.resDoze, s.pwr.resRun, s.pwr.resBurst]

/-- The MG16's own consumption since the last step in µAh (R196). -/
def selfUse (s : State) : Rat :=
  ((List.zip (List.zip (resList s) s.gauge.lastRes) [(46 : Rat) / 10000, 11 / 1000, 38 / 1000, 14, 26]).map fun x =>
    (((x.1.1 + 2 ^ 48 - x.1.2) % 2 ^ 48 : Nat) : Rat) * x.2 / 32768 / (36 / 10)).sum

/-- One step of the account of a bank (R195): N counts over dt seconds. -/
def acctStep (s : State) (b : Bank) (n : Int) (dt self : Rat) : Acct :=
  let x := acctOf b s
  let off : Rat := (cqCal s b).offset
  let i := rdiv (cqGain s b * ((n : Rat) - off * dt / 1048576) * countC s b) dt
  { x with q := x.q + n, aOff := x.aOff - off * dt * 65536 / 1048576, aSelf := x.aSelf - self
           iStep := i, past := (i :: x.past).take 600 }

/-! ## The cell filter (R204 to R207) -/

/-- Entry `(i, j)` of a 4 × 4 matrix. -/
def mat (m : List Rat) (i j : Nat) : Rat := m.getD (4 * i + j) 0

/-- Build a 4 × 4 matrix. -/
def matOf (f : Nat → Nat → Rat) : List Rat := (List.range 16).map fun k => f (k / 4) (k % 4)

/-- A sum over the four states. -/
def sum4 (f : Nat → Rat) : Rat := f 0 + f 1 + f 2 + f 3

/-- What one cell step works with: dt, I_n, V, FCC in Ah, the temperature, σ_I², and whether the rest correction applies
and is new. -/
structure CellIn where
  dt    : Rat
  i     : Rat
  v     : Rat
  fccAh : Rat
  t     : Rat
  varI  : Rat
  rest  : Bool
  clear : Bool

/-- The Kalman step of one cell (R204): the resistances in force are the table's times AGE, gF and gL (R217). RS, RF and RL
are read at the SOC before the step's own update; the spec names only the temperature (DESIGN CHOICE, assumption
log 131). -/
def cellStep (p : List Byte) (age gF gL : Rat) (u : CellIn) (c0 : Cell) : Cell :=
  let c := if u.clear then { c0 with vF := 0, vL := 0 } else c0
  let aF := Config.exp (-(rdiv u.dt (tauF p u.t)))
  let aL := Config.exp (-(rdiv u.dt (tauL p u.t)))
  let e := Config.exp (-(pf p 522 / 1000 * ratAbs u.i * u.dt / (36 * u.fccAh)))
  let rs := resist p 0 c.soc u.t * age / 1000
  let soc := c.soc + u.i * u.dt / (3600 * u.fccAh)
  let vF := aF * c.vF + resist p 1 c.soc u.t * gF / 1000 * (1 - aF) * u.i
  let vL := aL * c.vL + resist p 2 c.soc u.t * gL / 1000 * (1 - aL) * u.i
  let h := if !isLfp p then 0 else if u.i = 0 then c.h
    else e * c.h + (1 - e) * (if 0 < u.i then 1 else -1) * hMax p u.t
  let f (k : Nat) : Rat := if k = 0 then 1 else if k = 1 then aF else if k = 2 then aL else e
  let qn (k : Nat) : Rat :=
    if k = 0 then (pf p 540 / 1000000) ^ 2 else if k = 3 then (if isLfp p then Config.hystNoise else 0)
    else (pf p 542 / 1000) ^ 2
  let cov := matOf fun i j => f i * mat c.cov i j * f j + (if i = j then qn i else 0)
  let hh (k : Nat) : Rat := if k = 0 then ocvSlope p (ratClamp 0 1 soc) u.t else 1
  let vp := ocv p (ratClamp 0 1 soc) u.t + h + vF + vL + rs * u.i
  let noise := (if u.rest then pf p 546 else pf p 544) / 1000
  let nm := noise ^ 2 + rs ^ 2 * u.varI
  let ph (i : Nat) : Rat := sum4 fun j => mat cov i j * hh j
  let sden := (sum4 fun i => hh i * ph i) + nm
  let k (i : Nat) : Rat := rdiv (ph i) sden
  let d := u.v - vp
  { c with
    soc := ratClamp 0 1 (soc + k 0 * d), vF := vF + k 1 * d, vL := vL + k 2 * d
    h := if isLfp p then h + k 3 * d else 0
    cov := matOf fun i j => sum4 fun m => ((if i = m then 1 else 0) - k i * hh m) * mat cov m j
    v := u.v }

/-- The 1-sigma SOC uncertainty of a cell. -/
def cellSigma (c : Cell) : Rat := Config.sqrt (mat c.cov 0 0)

/-- Enlarge a cell's SOC variance by a 1-sigma, in quadrature (R198, R207). -/
def addVar (x : Rat) (c : Cell) : Cell :=
  { c with cov := matOf fun i j => mat c.cov i j + (if i = 0 ∧ j = 0 then x ^ 2 else 0) }

/-- Raise a cell's SOC uncertainty to at least a value (R202, R206). -/
def atLeastSigma (x : Rat) (c : Cell) : Cell :=
  { c with cov := matOf fun i j => if i = 0 ∧ j = 0 then ratMax (mat c.cov 0 0) (x ^ 2) else mat c.cov i j }

/-- FCC of a cell in mAh: learned, seeded, or the design capacity. -/
def cellFcc (s : State) (c : Cell) : Rat := c.fcc.getD (prm s 0x0203)

/-- The cells of Bank A in use. -/
def series (s : State) : Nat := prm s 0x0201

/-- The cells up to BA_SERIES. -/
def usedCells (s : State) : List Cell := s.gauge.cells.toList.take (series s)

/-- The least of a list of rationals, 0 for none. -/
def ratMinimum (l : List Rat) : Rat :=
  match l with
  | [] => 0
  | x :: r => r.foldl ratMin x

/-- The greatest of a list of rationals, 0 for none. -/
def ratMaximum (l : List Rat) : Rat :=
  match l with
  | [] => 0
  | x :: r => r.foldl ratMax x

/-! ## Bank B (R208, R210) -/

/-- Bank B is present (01 R27). -/
def bbPresent (s : State) : Bool := prm s 0x0205 == 1

/-- Delivered charge D of Bank B in mAh (R208). -/
def deliveredB (s : State) : Rat := ratMax 0 (-(chargeC s .b))

/-- C_avail at a temperature (10 R239): BB_DESIGN_MAH until learned. -/
def cAvailAt (s : State) (t : Rat) : Rat :=
  match s.anneal.cAvail with
  | none => prm s 0x0204
  | some l => lerp (fun i => l.getD i 0) (bracket (pfTemp (profile s .b)) 5 t)

/-- FCC_B, RM_B, and σ_B in mAh at a temperature (R208, R210). -/
def fccB (s : State) (t : Rat) : Rat := cAvailAt s t
def rmB (s : State) (t : Rat) : Rat := if s.gauge.eod then 0 else ratMax 0 (fccB s t - deliveredB s - s.gauge.sd)
def sigmaB (s : State) (t : Rat) : Rat :=
  Config.sqrt ((fccB s t * 5 / 1000) ^ 2 + (deliveredB s / 100) ^ 2 + (s.gauge.sd / 4) ^ 2 + s.gauge.sigBx)
    + s.gauge.sigBAdd

/-- The self-discharge of Bank B over some seconds at a temperature (R208). -/
def selfDischarge (s : State) (t dt : Rat) : Rat :=
  let p := profile s .b
  let sd : Rat := (if prm s 0x0530 = 0 then pf p 534 else (prm s 0x0530 : Rat)) / 10000
  (prm s 0x0204 : Rat) * sd * Config.pow2 (rdiv (t - 293.15) (pf p 536 / 10)) * dt / 31557600

/-- BB_EOD in mV per cell, of the parameter or the profile. -/
def bbEod (s : State) : Rat := if prm s 0x0533 = 0 then pf (profile s .b) 538 else (prm s 0x0533 : Rat)

end Sys2Proof.Machine
end

