-- ==== Sys2Proof/Machine/GaugeOps.lean ====
section
/-! DEFINITION. The model step in parts, the records it publishes, Anneal, and balancing (09_gauge_model.md R193 to R223,
10_almanac_policy.md R237 to R240, R245). -/

namespace Sys2Proof.Machine

/-! ## Step parts -/

/-- Change every cell up to BA_SERIES. -/
def mapCells (f : Nat → Cell → Cell) (s : State) : State :=
  { s with gauge := { s.gauge with
      cells := s.gauge.cells.mapIdx (fun i c => if i < series s then f i c else c) } }

/-- Accumulators and trackers 0 to 23 are read and cleared (R164, R193). -/
def clearFirmware (s : State) : State :=
  { s with sar := { s.sar with
      acc := s.sar.acc.mapIdx (fun i a => if i < 24 then Acc.empty else a)
      trk := s.sar.trk.mapIdx (fun i t => if i < 24 then Trk.empty else t) } }

/-- A profile that replaces the one in use (R202): vF, vL and h are cleared and every uncertainty is raised to 10 %. -/
def newProfile (c : Cell) : Cell := atLeastSigma (1 / 10) { c with vF := 0, vL := 0, h := 0 }

/-- The parameters of the next step take effect, and with them a replaced profile (R202, R224). -/
def stepParams (s : State) : State :=
  let t := { s with par := s.par.applyMoment .step }
  let changed := s.gauge.profNew || prm s 0x0501 != prm t 0x0501
  let u := if changed then mapCells (fun _ c => newProfile c) t else t
  { u with gauge := { u.gauge with profNew := false } }

/-- The account of a bank after a step (R195, R196, R199). SAT stands in the record of the bank whose integrator saturated
(DESIGN CHOICE, assumption log 132). The count of an absent Bank B does not feed the model (01 R27). -/
def stepAcct (s : State) (b : Bank) (dt self : Rat) : Acct :=
  let q := cqOf b s
  if b = .b ∧ !bbPresent s then { acctOf b s with mark := q.cap, iStep := 0 }
  else
    let last := match b with | .a => s.gauge.lastTA | .b => s.gauge.lastTB
    { acctStep s b (tallyDiff q.cap last) dt self with
      mark := q.cap, sat := decide (0 < q.satStep), stale := !q.outValid }

/-- Coulomb accounting of both banks (R195, R196, R199), after the capture. -/
def stepCharge (s : State) : State :=
  let dt : Rat := ((s.capStamp - s.gauge.lastS : Nat) : Rat) / 8192000
  let self := selfUse s
  let selfA := if prm s 0x0503 = 0 then self else 0
  let selfB := if prm s 0x0503 = 0 then 0 else self
  { s with gauge := { s.gauge with
      a := stepAcct s .a dt selfA, b := stepAcct s .b dt selfB, lastS := s.capStamp, lastTA := s.cqa.cap, lastTB := s.cqb.cap, lastRes := resList s
      timeDeg := s.clk.onLfrc, chgDeg := s.clk.onLfrc } }

/-- The seconds of the step that began at a base value. -/
def stepDt (s0 s : State) : Rat := ((s.gauge.lastS - s0.gauge.lastS : Nat) : Rat) / 8192000

/-- Temperatures and bank voltages of the step (R203, R219). -/
def stepTemps (acc : Nat → Acc) (s : State) : State :=
  { s with gauge := { s.gauge with
      a := { s.gauge.a with temp := packTemp s .a acc, volt := accMean (acc 16) / 5 }
      b := { s.gauge.b with temp := packTemp s .b acc, volt := accMean (acc 17) / 5 } } }

/-- The current lies below REST_MA in magnitude (R205). -/
def resting (s : State) : Bool := decide (ratAbs s.gauge.a.iStep * 1000 < (prm s 0x0507 : Rat))

/-- REST_MIN in ticks. -/
def restMin (s : State) : Nat := secTicks (60 * prm s 0x0508)

/-- The mean current of the last sleep lay below REST_MA and it lasted REST_MIN, so the rest counts as qualified on the
first step after the wake (R205). -/
def sleepRested (s0 s : State) : Bool :=
  let secs : Rat := ((s.start.startBase - s.pwr.sleptAt : Nat) : Rat) / 8192000
  let mAh := cqGain s .a * (tallyDiff s0.gauge.lastTA s0.gauge.sleepT : Rat) * countC s .a * (10 / 36)
  s0.gauge.firstAfterWake && decide (restMin s ≤ s.start.startBase - s.pwr.sleptAt)
    && decide (ratAbs mAh * 3600 < (prm s 0x0507 : Rat) * secs)

/-- The rest of R205 after this step: since when it holds, and whether the step applies the rest correction. -/
def stepRest (s0 s : State) : State :=
  if !resting s then
    { s with gauge := { s.gauge with restSince := none, rest := false, firstAfterWake := false } }
  else
    let since := s.gauge.restSince.getD s0.gauge.lastS
    let q := decide (restMin s ≤ s0.gauge.lastS - since) || sleepRested s0 s || s0.gauge.rest
    { s with gauge := { s.gauge with
        restSince := some since, rest := q, firstAfterWake := false
        restTemp := if s.gauge.restSince.isSome then s.gauge.restTemp else s.gauge.a.temp
        restTempB := if s.gauge.restSince.isSome then s.gauge.restTempB else s.gauge.b.temp } }

/-! ## Glint events taken by a step (R211, R217, R218) -/

/-- An exponential mean with weight GLINT_ALPHA / 256, bounded to 0.5 to 4 (R217). -/
def scaleStep (s : State) (x target : Rat) : Rat :=
  ratClamp (1 / 2) 4 (x + (prm s 0x0526 : Rat) / 256 * (target - x))

/-- The profile's impedance after a time in s (R217). -/
def predicted (p : List Byte) (soc t secs : Rat) : Rat :=
  resist p 0 soc t + resist p 1 soc t * (1 - Config.exp (-(rdiv secs (tauF p t))))
    + resist p 2 soc t * (1 - Config.exp (-(rdiv secs (tauL p t))))

/-- TINT from the 1 ms impedance per cell over AGE, in K (R218). -/
def tintOf (p : List Byte) (z : Rat) : Rat :=
  let u (i : Nat) : Rat := rdiv 1 (pfTemp p i)
  let y (i : Nat) : Rat := Config.ln (pf p (524 + 2 * i))
  let l := Config.ln z
  let i := ((List.range 4).find? fun i => decide (y (i + 1) ≤ l)).getD 3
  rdiv 1 (u i + rdiv ((l - y i) * (u (i + 1) - u i)) (y (i + 1) - y i))

/-- Segment bits of a Glint record (R220). -/
def segOk (g : GlintRec) (k : Nat) : Bool := decide (g.segs / 2 ^ k % 2 = 1)

/-- A Bank A event closes into the scalings and TINT (R217, R218). Impedances are held in Ω of the bank. -/
def glintTakeA (g : GlintRec) (s : State) : State :=
  let p := profile s .a
  let n : Rat := series s
  let t := modelTemp s.gauge.a (now s)
  let soc := ratMinimum ((usedCells s).map Cell.soc)
  let z1 := rdiv (g.z1 * 1000000) n
  let z10 := rdiv (g.z10 * 1000000) n
  let z100 := rdiv (g.z100 * 1000000) n
  let p1 := predicted p soc t (635 / 1000000)
  let p10 := predicted p soc t (7544 / 1000000)
  let p100 := predicted p soc t (7505 / 100000)
  let scale := g.valid && !g.hole
  let x := s.gauge
  let ageA := if scale && segOk g 0 && g.rested then scaleStep s x.ageA (rdiv z1 (zRef p x.a.temp)) else x.ageA
  let gF := if scale && segOk g 0 && segOk g 1 then scaleStep s x.gF (rdiv (z10 - z1) (p10 - p1)) else x.gF
  let gL := if scale && segOk g 1 && segOk g 2 then scaleStep s x.gL (rdiv (z100 - z10) (p100 - p10)) else x.gL
  let tint := if segOk g 0 then some (tintOf p (rdiv z1 ageA), g.stamp + secTicks 600) else x.a.tint
  { s with gauge := { x with ageA := ageA, gF := gF, gL := gL, a := { x.a with tint := tint } } }

/-- A Bank B event closes into AGE_B, TINT and the passivation level (R211, R217, R218). -/
def glintTakeB (g : GlintRec) (s : State) : State :=
  let p := profile s .b
  let z1 := rdiv (g.z1 * 1000000) (prm s 0x0202)
  let x := s.gauge
  let low : Rat := prm s 0x0531
  let high : Rat := prm s 0x0532
  let level := if high ≤ g.dip ∨ g.vMin < bbEod s then 2 else if low ≤ g.dip then 1 else 0
  let pasv := if g.fall && segOk g 2 then level else x.pasv
  let ageB := if g.valid && !g.hole && segOk g 0 && g.rested && !(g.fall && segOk g 2 && decide (1 ≤ level)) then
      scaleStep s x.ageB (rdiv z1 (zRef p x.b.temp)) else x.ageB
  let tint := if segOk g 0 then some (tintOf p (rdiv z1 ageB), g.stamp + secTicks 600) else x.b.tint
  { s with gauge := { x with ageB := ageB, pasv := pasv, b := { x.b with tint := tint } } }

/-- A step takes one event of a bank; its record is the latest, that of Bank B with the passivation level and PASV_EXCL
(R211, R217, R220). -/
def takeEvent (b : Bank) (s : State) (g : GlintRec) : State :=
  match b with
  | .a =>
    let t := glintTakeA g s
    { t with glint := { t.glint with recA := some g } }
  | .b =>
    let t := glintTakeB g s
    { t with glint := { t.glint with recB := some { g with
        level := t.gauge.pasv, excl := g.fall && segOk g 2 && decide (1 ≤ t.gauge.pasv) } } }

/-- The Glint events that closed since the previous step are taken, oldest first (R193 order 6). -/
def stepGlint (s : State) : State :=
  let t := s.glint.closedB.foldl (takeEvent .b) (s.glint.closedA.foldl (takeEvent .a) s)
  { t with glint := { t.glint with closedA := [], closedB := [] } }

/-! ## Cells and Bank B (R197 to R210) -/

/-- The balancing current of a cell in A from its voltage in mV and its duty (R197). -/
def balCurrent (s : State) (v : Rat) (duty : Nat) : Rat := rdiv v (100 * (prm s 0x0506 : Rat)) * (duty : Rat) / 64

/-- The variance of accumulator 18 as a current, in A² (R204). -/
def varCurrent (s : State) (a : Acc) : Rat :=
  let m := accMean a
  (rdiv (a.ssq : Rat) a.count - m ^ 2) * (rdiv (2 / 10) (shuntOf .a s : Rat)) ^ 2

/-- The Kalman step of every Bank A cell with its uncertainty terms (R197, R198, R204, R207). -/
def stepCells (s0 : State) (acc : Nat → Acc) (s : State) : State :=
  let dt := stepDt s0 s
  let p := profile s .a
  let t := modelTemp s.gauge.a (now s)
  let iS := s.gauge.a.iStep
  let satMah : Rat := (s.cqa.satStep : Rat) * countC s .a * (10 / 36)
  mapCells (fun i c =>
    let v := accMean (acc i) / 100
    let fcc := cellFcc s c
    let ib := balCurrent s v (vget s0.afe.duty i 0)
    let u : CellIn := ⟨dt, iS - ib, v, fcc / 1000, t, varCurrent s (acc 18), s.gauge.rest, s.gauge.rest && !s0.gauge.rest⟩
    let c1 := cellStep p s.gauge.ageA s.gauge.gF s.gauge.gL u c
    let c2 := if 0 < s.cqa.satStep then addVar (rdiv satMah fcc) c1 else c1
    let c3 := if s.gauge.timeDeg then addVar (rdiv (2 / 100 * ratAbs iS * dt) (3600 * (fcc / 1000))) c2 else c2
    let q := -(ib * dt / 3600 * 1000)
    { c3 with bal := c3.bal + q * 1000, balAnchor := c3.balAnchor + q }) s

/-- Bank A's OFFPWR clears when every uncertainty has fallen below CAST_SOC_SIGMA (R206). -/
def sigmaBelow (s : State) (lim : Rat) (strict : Bool) : Bool :=
  (usedCells s).all fun c => if strict then decide (cellSigma c < lim) else decide (cellSigma c ≤ lim)

/-- CAST_SOC_SIGMA as a fraction. -/
def castSigma (s : State) : Rat := (prm s 0x0510 : Rat) / 1000

/-- Bank B accounting: self-discharge, end of discharge, uncertainty terms (R198, R207, R208, R210). -/
def stepBankB (s0 s : State) : State :=
  if !bbPresent s then s
  else
    let dt := stepDt s0 s
    let x := s.gauge
    let b := x.b
    let t := modelTemp b (now s)
    let cell := rdiv b.volt (prm s 0x0202)
    let rest : Rat := prm s 0x0507
    let eod := if cell < bbEod s ∧ b.iStep * 1000 ≤ -rest then true
      else if ratAbs b.iStep * 1000 < rest ∧ bbEod s + 100 < cell then false else x.eod
    let satMah : Rat := (s.cqb.satStep : Rat) * countC s .b * (10 / 36)
    let deg := if x.timeDeg then (2 / 100 * ratAbs b.iStep * dt / 36 * 10) ^ 2 else 0
    { s with gauge := { x with
        sd := x.sd + selfDischarge s t dt, eod := eod, sigBx := x.sigBx + satMah ^ 2 + deg } }

/-- CYCLES (R219): the discharged charge since its last rise has reached CYCLE_FRAC × FCC. -/
def cycleStep (s : State) (fcc mAh : Rat) (x : Acct) : Acct :=
  let acc := x.cycAcc + ratMax 0 (-mAh)
  if (prm s 0x050B : Rat) / 1000 * fcc ≤ acc then { x with cycAcc := 0, cycles := (x.cycles + 1) % 65536 }
  else { x with cycAcc := acc }

/-- The bank FCC of Bank A: the lowest FCC_n (10 R238). -/
def fccA (s : State) : Rat := ratMinimum ((usedCells s).map (cellFcc s))

/-- RSOC of Bank A: the lowest cell SOC (R219). -/
def rsocA (s : State) : Rat := ratMinimum ((usedCells s).map Cell.soc)

/-! ## Snapshot (R219, R221) -/

/-- FLAGS of a gauge record (R219). -/
def gaugeFlags (s : State) (b : Bank) : Nat :=
  let x := acctOf b s
  1 + 2 * bit s.start.estConf + 4 * bit s.gauge.timeDeg + 8 * bit s.gauge.chgDeg + 16 * bit x.sat + 32 * bit x.stale
    + 64 * bit x.offpwr
    + (match b with | .a => 128 * bit s.gauge.rest | .b => 512 * bit s.gauge.eod)

/-- The mean of I_step over the last AVG_WIN steps (R219). -/
def avgCurrent (s : State) (x : Acct) : Rat :=
  let l := x.past.take (prm s 0x0509)
  rdiv l.sum (l.length : Rat)

/-- The reported TINT in 0.1 K, 0 while not valid (R218). -/
def tintRep (s : State) (x : Acct) : Nat :=
  match x.tint with
  | some (k, e) => if now s < e then repNat 65535 (k * 10) else 0
  | none => 0

/-- The record of Bank A. -/
def recordA (s : State) (num : Nat) : GaugeRec :=
  let x := s.gauge.a
  let vs := (usedCells s).map Cell.v
  { flags := gaugeFlags s .a, snap := num, stamp := s.gauge.lastS, volt := repNat 0xFFFFFFFF x.volt
    curr := roundFree (x.iStep * 1000), avgCurr := roundFree (avgCurrent s x * 1000), temp := repNat 65535 (x.temp * 10)
    tint := tintRep s x, rsoc := repNat 65535 (rsocA s * 1000)
    asoc := repNat 65535 (rdiv (rsocA s * fccA s * 1000) (prm s 0x0203))
    sigma := repNat 65535 (ratMaximum ((usedCells s).map cellSigma) * 1000)
    rm := roundFree (rsocA s * fccA s), fcc := roundFree (fccA s), design := prm s 0x0203
    c := roundFree (chargeC s .a), q := x.q, cycles := x.cycles
    cellMin := repMv (ratMinimum vs), cellMax := repMv (ratMaximum vs), pasv := 0, age := 0 }

/-- The record of Bank B: all zero without Bank B (R219). -/
def recordB (s : State) (num : Nat) : GaugeRec :=
  if !bbPresent s then GaugeRec.zero
  else
    let x := s.gauge.b
    let t := modelTemp x (now s)
    let cell := repMv (rdiv x.volt (prm s 0x0202))
    { flags := gaugeFlags s .b, snap := num, stamp := s.gauge.lastS, volt := repNat 0xFFFFFFFF x.volt
      curr := roundFree (x.iStep * 1000), avgCurr := roundFree (avgCurrent s x * 1000), temp := repNat 65535 (x.temp * 10)
      tint := tintRep s x, rsoc := repNat 65535 (rdiv (rmB s t * 1000) (fccB s t))
      asoc := repNat 65535 (rdiv (rmB s t * 1000) (prm s 0x0204))
      sigma := repNat 65535 (rdiv (sigmaB s t * 1000) (fccB s t))
      rm := roundFree (rmB s t), fcc := roundFree (fccB s t), design := prm s 0x0204
      c := roundFree (chargeC s .b), q := x.q, cycles := x.cycles
      cellMin := cell, cellMax := cell, pasv := s.gauge.pasv, age := 0 }

/-- The record of cell index `i` (R221). -/
def recordCell (s : State) (i : Nat) (c : Cell) : CellRec :=
  let p := profile s .a
  let t := modelTemp s.gauge.a (now s)
  { index := i
    flags := bit (vget s.afe.ov i false) + 2 * bit (vget s.afe.uv i false) + 4 * bit (decide (0 < vget s.afe.duty i 0))
      + 8 * bit (decide (0 < c.h))
    v := repMv c.v, ocv := repNat 65535 (ocv p c.soc t), soc := repNat 65535 (c.soc * 1000)
    sigma := repNat 65535 (cellSigma c * 1000), vF := roundFree c.vF, vL := roundFree c.vL, h := roundFree c.h
    rs := repNat 0xFFFFFFFF (resist p 0 c.soc t * s.gauge.ageA), rf := repNat 0xFFFFFFFF (resist p 1 c.soc t * s.gauge.gF)
    rl := repNat 0xFFFFFFFF (resist p 2 c.soc t * s.gauge.gL), temp := repNat 65535 (t * 10), bal := roundFree c.bal
    stamp := s.gauge.lastS }

/-- A ratio in units of 1/4096. -/
def q12 (x : Rat) : Nat := repNat 65535 (x * 4096)

/-- The 49 bytes of the Glint record of a bank (R220): all zero but the scalings, TINT and the counts before the first
event. -/
def glintBytes (s : State) (b : Bank) : List Byte :=
  let r := match b with | .a => s.glint.recA | .b => s.glint.recB
  let ev := match b with | .a => s.glint.eventsA | .b => s.glint.eventsB
  let sk := match b with | .a => s.glint.skipA | .b => s.glint.skipB
  let ages : List Rat := match b with | .a => [s.gauge.ageA, s.gauge.gF, s.gauge.gL] | .b => [s.gauge.ageB, 1, 1]
  let age := (ages.map fun x => leBytes 2 (q12 x)).flatten
  let tint := leBytes 2 (tintRep s (acctOf b s))
  (match r with
  | none => List.replicate 26 0 ++ age ++ tint ++ List.replicate 7 0
  | some g =>
    leBytes 1 (bit g.valid + 2 * bit g.fall + 4 * bit g.hole + 8 * bit g.excl) ++ leBytes 1 g.segs ++ leBytes 8 g.stamp
      ++ leBytesS 4 g.dI ++ leBytesS 4 (roundFree (g.z1 * 1000000)) ++ leBytesS 4 (roundFree (g.z10 * 1000000))
      ++ leBytesS 4 (roundFree (g.z100 * 1000000)) ++ age ++ tint
      ++ leBytesS 4 (roundFree (g.vMin * 1000)) ++ leBytesS 2 (roundFree g.dip) ++ leBytes 1 g.level)
    ++ leBytes 4 ev ++ leBytes 4 sk

/-- The voltage word of cell index `i` in the latest snapshot, 0 above BA_SERIES (01 R11). -/
def cellWord (s : State) (i : Nat) : Nat := (((s.gauge.snap.cells[i]?).map CellRec.v).getD 0 % 65536).toNat

/-- Publish one whole snapshot with a number (01 R18). BB_MA reads 0 without Bank B (01 R27). -/
def publishAs (num : Nat) (s : State) : State :=
  let tB := modelTemp s.gauge.b (now s)
  let bb := bbPresent s
  { s with gauge := { s.gauge with
      stepped := true
      snap := ⟨num, s.gauge.lastS, recordA s num, recordB s num, (usedCells s).zipIdx.map fun x => recordCell s x.2 x.1,
        rsocA s * fccA s, fccA s, if bb then rmB s tB else 0,
        outMa .a s s.cqa.lastOut, if bb then outMa .b s s.cqb.lastOut else 0, glintBytes s .a, glintBytes s .b⟩ } }

/-- Publish the next snapshot. -/
def publish (s : State) : State := publishAs (s.gauge.snap.num + 1) s

/-! ## Record bytes -/

/-- The 70 bytes of a gauge record (R219). -/
def gaugeBytes (g : GaugeRec) : List Byte :=
  leBytes 2 g.flags ++ leBytes 4 g.snap ++ leBytes 8 g.stamp ++ leBytes 4 g.volt ++ leBytesS 4 g.curr
    ++ leBytesS 4 g.avgCurr ++ leBytes 2 g.temp ++ leBytes 2 g.tint ++ leBytes 2 g.rsoc ++ leBytes 2 g.asoc
    ++ leBytes 2 g.sigma ++ leBytesS 4 g.rm ++ leBytesS 4 g.fcc ++ leBytesS 4 g.design ++ leBytesS 4 g.c ++ leBytesS 8 g.q
    ++ leBytes 2 g.cycles ++ leBytesS 2 g.cellMin ++ leBytesS 2 g.cellMax ++ leBytes 1 g.pasv ++ [0] ++ leBytes 2 g.age

/-- The 42 bytes of a cell record (R221). -/
def cellBytes (c : CellRec) : List Byte :=
  leBytes 1 c.index ++ leBytes 1 c.flags ++ leBytesS 2 c.v ++ leBytes 2 c.ocv ++ leBytes 2 c.soc ++ leBytes 2 c.sigma
    ++ leBytesS 2 c.vF ++ leBytesS 2 c.vL ++ leBytesS 2 c.h ++ leBytes 4 c.rs ++ leBytes 4 c.rf ++ leBytes 4 c.rl
    ++ leBytes 2 c.temp ++ leBytesS 4 c.bal ++ leBytes 8 c.stamp

/-! ## Anneal (10 R237 to R240) -/

/-- A model temperature in K lies within ANN_TMIN to ANN_TMAX. -/
def annTempOk (s : State) : Bool :=
  let t := modelTemp s.gauge.a (now s) * 10
  decide ((prm s 0x0622 : Rat) ≤ t ∧ t ≤ (prm s 0x0623 : Rat))

/-- No flag of R237 stands at this step. -/
def annClean (s : State) : Bool := !(s.gauge.a.sat || s.gauge.timeDeg || s.gauge.chgDeg || s.gauge.a.offpwr)

/-- The rest SOCs of a past step, where every uncertainty allows an anchor (R237). -/
def anchorSocs (s : State) : Option (List Rat) :=
  let p := profile s .a
  let t := modelTemp s.gauge.a (now s)
  let socs := (usedCells s).map fun c => ocvInv p (c.v - c.h) t
  if socs.all fun x => decide (rdiv (pf p 546 / 1000) (ocvSlope p x t) ≤ (prm s 0x0621 : Rat) / 1000) then some socs else none

/-- FCC_meas of the cells over an event (R238). -/
def fccMeas (s : State) (o : Anchor) (socs : List Rat) : List Rat :=
  ((List.zip (List.zip o.socs socs) (usedCells s)).map fun x =>
    rdiv (o.c - chargeC s .a - x.2.balAnchor) (x.1.1 - x.1.2))

/-- The reject reason of an event, 0 where it is accepted (R237, R238, R240). -/
def rejectReason (s : State) (o : Anchor) (socs : List Rat) : Nat :=
  let design : Rat := prm s 0x0203
  if o.life ≠ s.start.lifeAon ∨ o.prof ≠ prm s 0x0501 then 5
  else if (List.zip o.socs socs).any fun x => decide (x.1 - x.2 < (prm s 0x0620 : Rat) / 1000) then 1
  else if !o.tempOk then 3
  else if !o.clean then 4
  else if (fccMeas s o socs).any fun m => decide (m < design / 2 ∨ design * 12 / 10 < m) then 6
  else 0

/-- FCC_n moves toward its measurement by at most 3 % (R238). -/
def fccMove (f m : Rat) : Rat := f + ratClamp (-(f * 3 / 100)) (f * 3 / 100) (m - f)

/-- The CELL record of a cell, with the scalings (15 R362; 09 R217). -/
def cellRecOf (s : State) (i : Nat) : Rec :=
  ⟨0x22, i, 12, .cell (vget s.gauge.cells i Cell.reset) s.gauge.ageA s.gauge.gF s.gauge.gL s.gauge.ageB⟩

/-- The measurement of the lowest cell, that with the lowest FCC_n (R240; assumption log 134). -/
def lowestMeas (s : State) (ms : List Rat) : Rat :=
  let fs := (usedCells s).map (cellFcc s)
  ms.getD (fs.findIdx fun f => f == ratMinimum fs) 0

/-- An anchor closes the open event and opens the next (R237, R238). A measured event leaves the measurement of the lowest cell
and its depth, accepted or out of bounds; the last reject reason stays until the next rejection (R240). -/
def closeEvent (socs : List Rat) (s : State) : State :=
  let s1 := match s.anneal.anchor with
    | none => s
    | some o =>
      let r := rejectReason s o socs
      let ms := fccMeas s o socs
      let depth := ratMinimum ((List.zip o.socs socs).map fun x => x.1 - x.2)
      if r ≠ 0 then
        { s with anneal := { s.anneal with
            rejA := satTo 65535 (s.anneal.rejA + 1), reason := r, lastOk := false
            measA := if r = 6 then lowestMeas s ms else s.anneal.measA
            depth := if r = 6 then depth else s.anneal.depth } }
      else
        let t := mapCells (fun i c => { c with fcc := some (fccMove (cellFcc s c) (ms.getD i 0)) }) s
        commitInternal ((List.range (series t)).map (cellRecOf t)) { t with anneal := { t.anneal with
            accA := satTo 65535 (t.anneal.accA + 1), lastOk := true, stampA := t.gauge.lastS
            measA := lowestMeas t ms, depth := depth } }
  let s2 := mapCells (fun _ c => { c with balAnchor := 0 }) s1
  { s2 with anneal := { s2.anneal with
      anchor := some ⟨socs, chargeC s .a, s.start.lifeAon, prm s 0x0501, true, true⟩ } }

/-- Anneal before this step's accounting: the past step was the last of a qualified rest, so it is an anchor
(R237). `s0` is the state after the past step. -/
def annealAnchor (s0 : State) (ends : Bool) : Option (List Rat) := if s0.gauge.rest && ends then anchorSocs s0 else none

/-- The open event takes note of this step (R237). -/
def annealNote (s : State) : State :=
  match s.anneal.anchor with
  | none => s
  | some o => { s with anneal := { s.anneal with
      anchor := some { o with clean := o.clean && annClean s, tempOk := o.tempOk && annTempOk s } } }

/-- C_avail as a list of five values in mAh (R239). -/
def cAvailList (s : State) : List Rat := s.anneal.cAvail.getD (List.replicate 5 (prm s 0x0204 : Rat))

/-- Each point rises to at least the point at the next lower temperature (R239). -/
def monotone : List Rat → List Rat
  | [] => []
  | x :: r => x :: monotoneFrom x r
where
  /-- The rest of the list above a point. -/
  monotoneFrom (lo : Rat) : List Rat → List Rat
    | [] => []
    | x :: r => ratMax lo x :: monotoneFrom (ratMax lo x) r

/-- Anneal of Bank B at one step (R239). -/
def annealB (s0 s : State) : State :=
  if !bbPresent s then s
  else
    let t := modelTemp s.gauge.b (now s)
    let br := bracket (pfTemp (profile s .b)) 5 t
    let w (i : Nat) : Rat := if i = br.1 then 1 - br.2 else if i = br.1 + 1 then br.2 else 0
    let u := deliveredB s + s.gauge.sd
    let ca := cAvailAt s t
    let design : Rat := prm s 0x0204
    if s.gauge.eod && !s0.gauge.eod then
      let l := (cAvailList s).zipIdx.map fun x =>
        x.1 - w x.2 * ratMin (ca - u) ((prm s 0x0624 : Rat) / 1000 * design)
      { s with anneal := { s.anneal with
          cAvail := some (monotone l), accB := satTo 65535 (s.anneal.accB + 1), stampB := s.gauge.lastS, measB := u } }
    else if s.gauge.b.iStep < 0 ∧ !s.gauge.eod ∧ ca < u then
      let l := (cAvailList s).zipIdx.map fun x =>
        if w x.2 = 0 then x.1 else ratMin (ratMax x.1 (design * 12 / 10)) (x.1 + w x.2 * (u - ca))
      { s with anneal := { s.anneal with cAvail := some (monotone l) } }
    else s

/-- The 96 bytes of the Anneal record (R240). -/
def annealBytes (s : State) (b : Bank) : List Byte :=
  let n := s.anneal
  match b with
  | .a =>
    let open_ := n.anchor.isSome
    leBytes 1 0 ++ leBytes 1 (bit open_ + 2 * bit n.lastOk) ++ leBytes 2 n.accA ++ leBytes 2 n.rejA ++ leBytes 1 n.reason ++ [(0 : Byte)]
      ++ leBytes 8 n.stampA ++ leBytes 4 (repNat 0xFFFFFFFF (fccA s)) ++ leBytes 4 (repNat 0xFFFFFFFF n.measA)
      ++ leBytes 2 (repNat 65535 (n.depth * 1000))
      ++ leBytes 2 (match n.anchor with | some o => repNat 65535 (ratMinimum o.socs * 1000) | none => 0)
      ++ leBytesS 4 (match n.anchor with | some o => roundFree (o.c - chargeC s .a) | none => 0)
      ++ ((List.range 16).map fun i =>
          leBytes 4 (if i < series s then repNat 0xFFFFFFFF (cellFcc s (vget s.gauge.cells i Cell.reset)) else 0)).flatten
  | .b =>
    leBytes 1 1 ++ leBytes 1 (2 * bit (decide (0 < n.accB))) ++ leBytes 2 n.accB ++ leBytes 2 0 ++ leBytes 1 0 ++ [(0 : Byte)] ++ leBytes 8 n.stampB
      ++ leBytes 4 (repNat 0xFFFFFFFF (cAvailAt s (modelTemp s.gauge.b (now s)))) ++ leBytes 4 (repNat 0xFFFFFFFF n.measB)
      ++ leBytes 2 0 ++ leBytes 2 0 ++ leBytes 4 0
      ++ ((List.range 5).map fun i =>
          leBytes 2 (leAt (profile s .b) (2 + 2 * i) 2) ++ leBytes 4 (repNat 0xFFFFFFFF ((cAvailList s).getD i 0))).flatten
      ++ List.replicate 34 0

/-! ## Balancing (10 R245) -/

/-- The shed level in force (R241). -/
def shedLevel (s : State) : Nat := max s.pol.computed s.pol.floor

/-- u_n of the cells in use: the voltage less RS × I_n, in mV (R245). -/
def irComp (s0 s : State) : List Rat :=
  let p := profile s .a
  let t := modelTemp s.gauge.a (now s)
  (usedCells s).zipIdx.map fun x =>
    x.1.v - resist p 0 x.1.soc t * s.gauge.ageA / 1000 * (s.gauge.a.iStep - balCurrent s x.1.v (vget s0.afe.duty x.2 0))

/-- The balancing policy of one step (R245). -/
def stepBalance (s0 s : State) : State :=
  let us := irComp s0 s
  let lo := ratMinimum us
  let spread := ratMaximum us - lo
  let rest : Rat := prm s 0x0507
  let i := s.gauge.a.iStep * 1000
  let ok := prm s 0x0710 == 1 && decide (-rest < i) && decide ((prm s 0x0714 : Rat) ≤ lo)
    && (decide (shedLevel s < prm s 0x0715) || decide (rest ≤ i))
  let on := ok && (if s.pol.balOn then decide ((prm s 0x0713 : Rat) < spread) else decide ((prm s 0x0712 : Rat) ≤ spread))
  { s with
    pol := { s.pol with balOn := on }
    afe := { s.afe with duty := Vector.ofFn fun k : Fin 16 =>
      match us[k.val]? with
      | some u => if on && decide ((prm s 0x0713 : Rat) < u - lo) then prm s 0x0711 else 0
      | none => 0 } }

end Sys2Proof.Machine
end

