-- ==== Sys2Proof/Machine/AlmOps.lean ====
section
/-! DEFINITION. The Almanac and the policy engine: bins, declared duties, projection, record, shed ladder, depassivation
(10_almanac_policy.md R225 to R248), and the aggregate records (12_criuc_link.md R298). -/

namespace Sys2Proof.Machine

/-! ## Holds (03 R59) -/

/-- A hold of Run extends to the later of its own end and the end of the hold that runs; an open hold stays. -/
def extendHold (t : Nat) (h : Hold) : Hold :=
  match h with
  | .none => .until t
  | .until u => .until (max t u)
  | .untilSleep => .untilSleep

/-- A hold of Run until `t`. -/
def holdRun (t : Nat) (s : State) : State := { s with pwr := { s.pwr with hold := extendHold t s.pwr.hold } }

/-- An internal WAKE of some seconds (09 R216, 10 R246): a write of the power request by the internal port, which opens a
window of its own (R72, R73). -/
def internalHold (secs : Nat) (s : State) : State :=
  holdRun (now s + secTicks secs) { s with sprue := { s.sprue with
    lastPwr := (0x05, secs), windows := s.sprue.windows ++ [⟨.power, .internal, now s⟩] } }

/-! ## Firmware timers (08 R191) -/

/-- Arm a firmware compare channel at an absolute base value (09 R193, R216; 10 R225). -/
def armFw (n target : Nat) (mode : BitVec 8) (s : State) : State :=
  let c := vget s.tmr.cmp n Cmp.reset
  { s with tmr := { s.tmr with
      cmp := vset s.tmr.cmp n { c with val := target % 2 ^ 32, mode := mode, target := target, fired := false } } }

/-- Disarm a firmware compare channel. -/
def disarmFw (n : Nat) (s : State) : State :=
  let c := vget s.tmr.cmp n Cmp.reset
  { s with tmr := { s.tmr with cmp := vset s.tmr.cmp n { c with mode := c.mode &&& 0xFE } } }

/-- A firmware channel has fired and its work is still to be done. -/
def fwFired (n : Nat) (s : State) : Bool := (vget s.tmr.cmp n Cmp.reset).fired

/-- The firmware takes note of a firing. -/
def fwTake (n : Nat) (s : State) : State :=
  { s with tmr := { s.tmr with cmp := vset s.tmr.cmp n { vget s.tmr.cmp n Cmp.reset with fired := false } } }

/-! ## The aggregate (12 R298) -/

/-- A 24-bit two's complement field. -/
def le24s (b : List Byte) (i : Nat) : Int := signed 24 (leAt b i 3)

/-- Whole seconds since the reference of the block in hand. -/
def aggAge (s : State) : Nat := (now s - s.link.blockAt) / 8192000

/-- AUTONOMY, TTE, DARK_DAYS and SDF of a block, all ones where it is sustained. -/
def aggOut (b : List Byte) : Nat × Nat × Nat × Nat :=
  let rm := leAt b 7 3
  let load := leAt b 16 3
  let harv := leAt b 19 3
  let dark := if load = 0 then 0xFFFF else min 0xFFFF (10 * rm / load)
  let sdf := if load = 0 then 4000 else min 4000 (1000 * harv / load)
  if load ≤ harv then (0xFFFF, 0xFFFFFFFF, dark, sdf)
  else (min 0xFFFE (10 * rm / (load - harv)), 1440 * rm / (load - harv), dark, sdf)

/-- The aggregate VALID bit. -/
def aggValid (b : List Byte) : Bool := decide (byteAt b 1 / 2 % 2 = 1)

/-! ## Bins and duties (R226, R229) -/

/-- The class scale s of SEA_SCALE (R231). -/
def seaScale (s : State) (c : Nat) : Rat := (prm s (0x0610 + c) : Rat) / 256

/-- The mean of the learned load bins, 0 with none, in mA. -/
def meanLoad (s : State) : Rat :=
  let l := s.alm.load.toList.filterMap id
  if l = [] then 0 else l.sum / (l.length : Rat) / 10

/-- Load of bin `b` in mA for the projection: the mean of the learned bins where it is unlearned (R233). -/
def loadMa (s : State) (b : Nat) : Rat :=
  match vget s.alm.load b none with
  | some x => x / 10
  | none => meanLoad s

/-- Harvest of bin `b` in mA, 0 where it is unlearned (R233). -/
def harvMa (s : State) (b : Nat) : Rat :=
  match vget s.alm.harv b none with
  | some x => x / 10
  | none => 0

/-- A bin as it is stored, in units of 0.1 mA (R226). -/
def binUnits (x : Rat) : Rat := (roundFree (x * 10) : Rat)

/-- The occurrences of an entry: their start in seconds of the UTC day (R229). -/
def dutyStarts (d : Duty) : List Nat :=
  if d.period = 0 then [60 * d.start]
  else (List.range ((1439 - d.start) / (5 * d.period) + 1)).map fun k => 60 * (d.start + 5 * d.period * k)

/-- The overlap of two spans of seconds. -/
def overlap (a0 a1 b0 b1 : Rat) : Rat := ratMax 0 (ratMin a1 b1 - ratMax a0 b0)

/-- The duty charge in mAh that falls in a span of seconds of a day, of the entries with the given SEA bit; an
occurrence may run past midnight, so those of the day before and of the next day count as well. -/
def dutyCharge (s : State) (sea : Bool) (u0 u1 : Rat) : Rat :=
  ((s.alm.duties.filter fun d => d.sea == sea).map fun d =>
    (((dutyStarts d).map fun t => (([-86400, 0, 86400, 172800] : List Rat).map fun o =>
      overlap (t + o) (t + o + d.duration) u0 u1).sum).sum) * d.current / 3600).sum

/-- The seconds of the UTC day. -/
def daySec (s : State) : Rat := ((s.tmr.rtcSec % 86400 : Nat) : Rat) + (s.tmr.rtcSub : Rat) / 32768

/-- The learned load in mAh, at class scale 1, over the half-hour that begins at second `u` of the day. -/
def halfLoad (s : State) (u : Rat) : Rat :=
  let j := (u / 1800).floor.toNat
  let f := u / 1800 - j
  ((1 - f) * loadMa s (j % 48) + f * loadMa s ((j + 1) % 48)) / 2

/-! ## Projection (R232 to R234) -/

/-- The trend r, and HARV_LEARNING (R232). -/
def trend (s : State) : Rat × Bool :=
  let d := s.alm.daily
  if d.length < 14 ∨ d.any Option.isNone then (1, true)
  else
    let v := d.filterMap id
    let h7 := (v.take 7).sum
    let p7 := (v.drop 7).sum
    let m : Rat := (prm s 0x0608 : Rat) / 10000
    if p7 ≤ 0 then (1, true) else (ratClamp (1 - m) (1 + m) (Config.root7 (h7 / p7)), false)

/-- The load of day `d` in mAh (R233): the class in force within SEA_PROJ hours of now, SEA_DEFAULT after. -/
def dayLoad (s : State) (d : Nat) : Rat :=
  let n := min 48 (2 * prm s 0x060C - 48 * d)
  let sc := seaScale s s.alm.sea
  let sd := seaScale s (prm s 0x060A)
  let t0 := daySec s
  let x (i : Nat) : Rat :=
    let u := t0 + 1800 * (i : Rat)
    halfLoad s u + dutyCharge s true u (u + 1800)
  let cur := ((List.range n).map x).sum
  let rest := (((List.range 48).drop n).map x).sum
  sc * cur + sd * rest + dutyCharge s false t0 (t0 + 86400)

/-- The harvest of day `d` in mAh (R233). -/
def dayHarv (s : State) (r : Rat) (d : Nat) : Rat :=
  ((List.range 48).map (harvMa s)).sum / 2 * r ^ min d (prm s 0x0609)

/-- The projection (R233, R234): TTE and TTR in days over the days' (load, harvest), with FCC_A. -/
def project (fcc : Rat) : Nat → List (Rat × Rat) → Rat → Rat → Rat → Option Rat → Option Rat × Option Rat
  | _, [], _, _, _, ttr => (none, ttr)
  | d, (load, harv) :: rest, pA, pB, rA, ttr =>
    let net := harv - load
    if 0 ≤ net then project fcc (d + 1) rest (ratMin (pA + net) (fcc - rA)) pB rA ttr
    else
      let need := -net
      let ttr' := match ttr with
        | some t => some t
        | none => if pA ≤ need then some ((d : Rat) + pA / need) else none
      if pA + pB + rA ≤ need then (some ((d : Rat) + (pA + pB + rA) / need), ttr')
      else
        let a := ratMin pA need
        let b := ratMin pB (need - a)
        project fcc (d + 1) rest (pA - a) (pB - b) (rA - (need - a - b)) ttr'

/-- What an evaluation finds (R234). -/
structure Proj where
  valid : Bool
  tte   : Option Rat
  ttr   : Option Rat
  dark  : Option Rat
  sdf   : Nat
  load0 : Rat
  harv0 : Rat
  r     : Rat
  learning : Bool
  usable : Rat

/-- One projection from the snapshot in hand (R233, R234); a pack that is empty already has TTE 0. -/
def projection (s : State) : Proj :=
  let snap := s.gauge.snap
  let rA := ratMin snap.rmA ((prm s 0x0603 : Rat) / 1000 * snap.fccA)
  let pA := snap.rmA - rA
  let pB := if bbPresent s then snap.rmB else 0
  let tr := trend s
  let h := prm s 0x0602
  let days := (List.range (max h (prm s 0x060E))).map fun d => (dayLoad s d, dayHarv s tr.1 d)
  let t0 : Option Rat := if pA ≤ 0 then some 0 else none
  let from0 (l : List (Rat × Rat)) : Option Rat × Option Rat :=
    if pA + pB + rA ≤ 0 then (some 0, t0) else project snap.fccA 0 l pA pB rA t0
  let p := from0 (days.take h)
  let dark := from0 ((days.take h).map fun x => (x.1, 0))
  let n := prm s 0x060E
  let sl := ((days.take n).map Prod.fst).sum
  let sh := ((days.take n).map Prod.snd).sum
  { valid := s.alm.load.toList.any Option.isSome || !s.alm.duties.isEmpty
    tte := p.1, ttr := p.2, dark := dark.1
    sdf := if sl ≤ 0 then 4000 else min 4000 (sh / sl * 1000).floor.toNat
    load0 := dayLoad s 0, harv0 := dayHarv s tr.1 0, r := tr.1, learning := tr.2, usable := pA + pB + rA }

/-! ## Shed ladder (R241 to R244) -/

/-- The basis of the ladder (R243, 12 R308): the AUTONOMY judged, none for sustained; whether it is valid; whether it is
the part's own. -/
def shedBasis (s : State) (p : Proj) : Option Nat × Bool × Bool :=
  let own : Option Nat := p.tte.map fun t => min 0xFFFE (10 * t).floor.toNat
  match s.link.block with
  | some b =>
    if prm s 0x0706 = 1 ∧ aggAge s ≤ 10 ∧ !s.link.split then
      ((if (aggOut b).1 = 0xFFFF then none else some (aggOut b).1), aggValid b, false)
    else (own, p.valid, true)
  | none => (own, p.valid, true)

/-- The highest level whose threshold exceeds AUTONOMY; a threshold of 0 is off (R242). -/
def shedTarget (s : State) (a : Option Nat) : Nat :=
  match a with
  | none => 0
  | some x => (([1, 2, 3] : List Nat).filter fun n => decide (prm s (0x0700 + n) ≠ 0 ∧ x < prm s (0x0700 + n))).foldl max 0

/-- The hold on the computed level has passed (R242). -/
def shedHoldOver (s : State) : Bool := decide (s.pol.holdAt + secTicks (60 * prm s 0x0705) ≤ now s)

/-- The computed level after an evaluation (R242). -/
def shedNext (s : State) (a : Option Nat) (valid : Bool) : Nat :=
  let n := s.pol.computed
  if !valid then n
  else if n < shedTarget s a then shedTarget s a
  else
    let calm : Bool := match a with
      | none => true
      | some x => decide (prm s (0x0700 + n) + prm s 0x0704 ≤ x)
    if n ≠ 0 ∧ shedHoldOver s ∧ calm then n - 1 else n

/-- The SHED lines take the level in force at the next SLOW edge (R241). -/
def shedLines (s : State) : State :=
  if s.pol.pins = shedLevel s then s
  else { s with pol := { s.pol with pinsOld := shedPins s, pins := shedLevel s, pinsAt := (now s / 2000 + 1) * 2000 } }

/-- The ladder moves, and a change is committed and restarts the hold (R242, R244). -/
def shedMove (new : Nat) (s : State) : State :=
  if new = s.pol.computed then shedLines s
  else
    let t := shedLines { s with pol := { s.pol with computed := new, holdAt := now s } }
    commitInternal [policyRec t] t

/-! ## Depassivation (R246, R247) -/

/-- So many seconds have passed since the last pulse ended: on the base within a life, on a valid RTC after a cold start, else
since tick 0 (R246; assumption log 59). -/
def sinceDpas (s : State) (secs : Nat) : Bool :=
  match s.pol.dpasEnd, s.pol.dpasRtc with
  | some t, _ => decide (t + secTicks secs ≤ now s)
  | none, some r => if s.tmr.rtcValid then decide (r + secs ≤ s.tmr.rtcSec) else decide (secTicks secs ≤ now s)
  | none, none => decide (secTicks secs ≤ now s)

/-- No pulse has ended yet, as far as the part knows. -/
def neverDpas (s : State) : Bool := s.pol.dpasEnd.isNone && s.pol.dpasRtc.isNone

/-- The pulses and their energy since 00:00 UTC (R246). -/
def dpasToday (s : State) : Nat × Rat :=
  if s.pol.dpasOn = s.tmr.rtcSec / 86400 then (s.pol.dpasN, s.pol.dpasDay) else (0, 0)

/-- A pulse is due (R246). -/
def dpasDue (s : State) : Bool :=
  prm s 0x0720 == 1 && bbPresent s &&
    (s.gauge.pasv == 2
      || (s.gauge.pasv == 1 && (match s.alm.ttrDays with | some t => decide (t ≤ (prm s 0x0728 : Rat)) | none => false))
      || (prm s 0x0729 != 0 && sinceDpas s (86400 * prm s 0x0729)))

/-- An entry to Watch or Watch-L is decided. -/
def watchAhead (s : State) : Bool :=
  match s.pwr.entry with
  | some e => e.target == .watch || e.target == .watchL
  | none => false

/-- A due pulse may start now (R246), and none of what ends a pulse stands (R248). -/
def dpasMay (s : State) : Bool :=
  let m := s.tmr.rtcSec % 86400 / 60
  !s.pol.dpas && decide (prm s 0x0721 ≤ m ∧ m < prm s 0x0722)
    && (neverDpas s || sinceDpas s (prm s 0x0727)) && decide ((dpasToday s).1 < prm s 0x0726)
    && decide ((dpasToday s).2 + (prm s 0x0724 : Rat) ≤ (prm s 0x0725 : Rat))
    && !(prtB s || s.gauge.eod || s.pwr.bow || watchAhead s)

/-- A pulse starts: DPAS is driven high, countdown 3 times DPAS_PULSE, the tallies are captured, and the history is committed
(R246, R247; 15 R362). -/
def dpasStart (s0 : State) : State :=
  let r := drawBits s0
  let s := captureTallies r.1 r.2
  let day := dpasToday s
  let t := { s with pol := { s.pol with
      dpas := true, dpasE := 0, dpasCap := now s, dpasT := s.cqb.cap
      dpasOn := s.tmr.rtcSec / 86400, dpasN := day.1 + 1, dpasDay := day.2 } }
  let c := vget t.tmr.cdn 3 Cdn.reset
  let c3 : Cdn := { (c.set 0 8192 0 0x40) with v := prm s 0x0723, p := 0, zero := false }
  let u := { t with tmr := { t.tmr with cdn := vset t.tmr.cdn 3 c3 } }
  commitInternal [policyRec u] u

/-- Countdown 3 has run down, so the pulse is over (R247). -/
def dpasTimeout (s : State) : State :=
  if s.pol.dpas && (vget s.tmr.cdn 3 Cdn.reset).zero then endPulse s else s

/-- What an evaluation does for depassivation: a due pulse holds Run, and starts where it may (R246). -/
def dpasEval (s0 : State) : State :=
  let s := dpasTimeout s0
  if dpasDue s then
    let t := internalHold (prm s 0x0601 + 1) s
    if dpasMay t then dpasStart t else t
  else s

/-! ## Evaluation (R225, R235) -/

/-- A number of days in minutes, all ones for none. -/
def daysToMin (t : Option Rat) : Nat :=
  match t with
  | some x => repNat 0xFFFFFFFF (x * 1440)
  | none => 0xFFFFFFFF

/-- The seconds left of the hold on the computed level (R235). -/
def holdLeft (s : State) : Nat := (s.pol.holdAt + secTicks (60 * prm s 0x0705) - now s) / 8192000

/-- One evaluation (R225): the parameters of the Almanac and the policy take effect, the projection runs on one
snapshot, the ladder and the depassivation policy move, and the record is formed (R235). -/
def almEval (s0 : State) : State :=
  let s1 := { s0 with par := s0.par.applyMoment .eval }
  let p := projection s1
  let live_ := p.valid && p.tte.isSome
  let s2 := { s1 with alm := { s1.alm with ttrDays := if live_ then p.ttr else none } }
  let b := shedBasis s2 p
  let s3 := dpasEval (shedMove (shedNext s2 b.1 b.2.1) s2)
  let snap := s3.gauge.snap
  let flags := bit p.valid + 2 * bit p.tte.isNone + 4 * bit s3.alm.seaStale + 8 * bit s3.alm.dutyStale
    + 32 * bit p.learning + 64 * bit (!s3.tmr.rtcValid) + 128 * bit b.2.2
  let r : AlmRec :=
      { flags := flags, snap := snap.num, stamp := snap.stamp
        tte := if live_ then daysToMin p.tte else 0xFFFFFFFF, ttr := if live_ then daysToMin p.ttr else 0xFFFFFFFF
        autonomy := if live_ then min 0xFFFE (10 * p.tte.getD 0).floor.toNat else 0xFFFF
        dark := (match p.dark with | some d => min 0xFFFE (10 * d).floor.toNat | none => 0xFFFF)
        sdf := p.sdf, sea := s3.alm.sea, computed := s3.pol.computed, inForce := shedLevel s3, floor := s3.pol.floor
        load0 := roundFree p.load0, harv0 := roundFree p.harv0, trend := repNat 65535 (p.r * 10000)
        usable := roundFree p.usable, hold := holdLeft s3, age := 0 }
  { s3 with alm := { s3.alm with rcd := some r } }

/-- An evaluation at once after an opcode, from Cast on (R225). -/
def almEvalNow (s : State) : State := if atLeast s .cast && tmrRuns s then almEval s else s

/-- The 52 bytes of an Almanac record (R235). -/
def almBytes (a : AlmRec) : List Byte :=
  leBytes 2 a.flags ++ leBytes 4 a.snap ++ leBytes 8 a.stamp ++ leBytes 4 a.tte ++ leBytes 4 a.ttr ++ leBytes 2 a.autonomy
    ++ leBytes 2 a.dark ++ leBytes 2 a.sdf ++ leBytes 1 a.sea ++ leBytes 1 a.computed ++ leBytes 1 a.inForce
    ++ leBytes 1 a.floor ++ leBytesS 4 a.load0 ++ leBytesS 4 a.harv0 ++ leBytes 2 a.trend ++ leBytesS 4 a.usable
    ++ leBytes 4 a.hold ++ leBytes 2 a.age

/-- The aggregate Almanac record (12 R298). -/
def aggAlm (s : State) (b : List Byte) : AlmRec :=
  let o := aggOut b
  let sus := decide (leAt b 16 3 ≤ leAt b 19 3)
  { flags := bit (aggValid b) + 2 * bit sus + 16, snap := s.link.bn, stamp := s.link.blockAt
    tte := o.2.1, ttr := 0xFFFFFFFF, autonomy := o.1, dark := o.2.2.1, sdf := o.2.2.2
    sea := s.alm.sea, computed := s.pol.computed, inForce := shedLevel s, floor := s.pol.floor
    load0 := leAt b 16 3, harv0 := leAt b 19 3, trend := 10000, usable := leAt b 7 3, hold := holdLeft s
    age := min 65535 (aggAge s) }

/-- The aggregate gauge record (12 R298). -/
def aggGauge (s : State) (b : List Byte) : GaugeRec :=
  let rm := leAt b 7 3
  let fcc := leAt b 10 3
  let cs := s.link.blockCurr.take (prm s 0x0509)
  { GaugeRec.zero with
    flags := 1 + 256 + 2 * (byteAt b 1 % 2) + 8 * (byteAt b 1 / 4 % 2)
    snap := s.link.bn, stamp := s.link.blockAt, volt := leAt b 2 2, curr := le24s b 4
    avgCurr := roundFree (rdiv ((cs.sum : Int) : Rat) cs.length), temp := leAt b 13 2
    rsoc := repNat 65535 ((rdiv (1000 * (rm : Rat)) fcc + 1 / 2).floor), sigma := byteAt b 15
    rm := rm, fcc := fcc, age := min 65535 (aggAge s) }

/-! ## Sea state and duties (R229 to R231) -/

/-- The class scale of the running bin is weighed up to now (R227). -/
def seaWeigh (s : State) : State :=
  { s with alm := { s.alm with
      seaSum := s.alm.seaSum + seaScale s s.alm.sea * ((now s - s.alm.seaSince : Nat) : Rat), seaSince := now s } }

/-- A class comes into force (R231). -/
def seaSet (c : Nat) (stale : Bool) (s : State) : State :=
  let t := seaWeigh s
  { t with alm := { t.alm with sea := c, seaStale := stale } }

/-- A duty entry of its seven bytes, none where a field is out of its range (R229). -/
def dutyOf (b : List Byte) : Option Duty :=
  let w := leAt b 0 2
  let d : Duty := ⟨w % 2048, decide (w / 2048 % 2 = 1), byteAt b 2, leAt b 3 2, leAt b 5 2⟩
  if w < 4096 ∧ d.start ≤ 1439 ∧ 1 ≤ d.duration ∧ 1 ≤ d.current ∧ d.current ≤ 32767
      ∧ (d.period = 0 ∨ d.duration ≤ 300 * d.period) then some d else none

/-- The bytes of a declared duty table (R229). -/
def dutyBytes (l : List Duty) : List Byte :=
  (l.map fun d => leBytes 2 (d.start + 2048 * bit d.sea) ++ leBytes 1 d.period ++ leBytes 2 d.duration
    ++ leBytes 2 d.current).flatten

/-- Firmware channel 6 fires GLINT_LEAD before the start of the next declared duty (09 R216). -/
def armLead (s : State) : State :=
  let lead := prm s 0x0527
  let t0 := daySec s * 1000
  let waits := (s.alm.duties.flatMap dutyStarts).map fun t =>
    let w := 1000 * (t : Rat) - (lead : Rat) - t0
    if 0 < w then w else w + 86400000
  if s.glint.on && !waits.isEmpty then
    armFw 6 (now s + (ratMinimum waits * 8192).ceil.toNat) 0x11 s
  else disarmFw 6 s

/-- The firing of channel 6: an internal WAKE with a hold of 1 s, and the next duty is armed (09 R216). -/
def leadFired (s : State) : State :=
  if fwFired 6 s then
    let t := internalHold 1 (armLead (fwTake 6 s))
    if lowPower t then beginWake t else t
  else s

/-! ## Learning (R227, R228, R232) -/

/-- Bin `b` lies inside DARK_WIN with all its minutes (R227). -/
def inDarkWin (w b : Nat) : Bool :=
  let st := w % 65536
  let en := w / 65536
  if st < en then decide (st ≤ 30 * b ∧ 30 * b + 30 ≤ en) else decide (st ≤ 30 * b ∨ 30 * b + 30 ≤ en)

/-- The net charge of the pack in mAh: C of both banks (R226). -/
def packC (s : State) : Rat := chargeC s .a + (if bbPresent s then chargeC s .b else 0)

/-- An observation enters a bin with its weight; the first one sets it (R227). -/
def binLearn (old : Option Rat) (obs : Rat) (w : Nat) : Rat :=
  match old with
  | none => binUnits obs
  | some x => binUnits (x / 10 + (w : Rat) / 256 * (obs - x / 10))

/-- The bin that has just ended is learned (R227, R228). The declared charge of the whole bin is that of the table in force at
its end, a SCHED_LOAD within the bin notwithstanding (DESIGN CHOICE, assumption log 135). -/
def learnBin (s : State) (c0 : Rat) : State :=
  let b := s.alm.binIdx % 48
  let day := s.alm.binIdx / 48
  let n := packC s - c0
  let w := seaWeigh s
  let sc := rdiv w.alm.seaSum ((now s - s.alm.binAt : Nat) : Rat)
  let u0 : Rat := 1800 * (b : Rat)
  let dc := dutyCharge s false u0 (u0 + 1800) + sc * dutyCharge s true u0 (u0 + 1800)
  let h := vget s.alm.harv b none
  let l := vget s.alm.load b none
  let dark := if prm s 0x0607 ≠ 0 then inDarkWin (prm s 0x0607) b
    else decide (h.getD 0 / 10 < (prm s 0x0606 : Rat)) && !s.alm.binChg
  let note (x : Rat) (s : State) : State := { s with alm := { s.alm with
    learnedOn := vset s.alm.learnedOn b (some day), today := some (s.alm.today.getD 0 + x / 2) } }
  if vget s.alm.learnedOn b none = some day then s
  else if dark then
    if -n < 8 / 10 * dc then
      logEvent 0x24 (leBytes 1 b ++ leBytesS 4 (roundFree (-n * 1000)) ++ leBytes 4 (repNat 0xFFFFFFFF (dc * 1000))) s
    else
      note 0 { s with alm := { s.alm with
        load := vset s.alm.load b (some (binLearn l (rdiv (-n - dc) (sc / 2)) (prm s 0x0604)))
        harv := vset s.alm.harv b (some (binLearn h 0 (prm s 0x0605))) } }
  else
    let obs := ratMax 0 ((n + dc) * 2 + sc * (match l with | some x => x / 10 | none => meanLoad s))
    note obs { s with alm := { s.alm with harv := vset s.alm.harv b (some (binLearn h obs (prm s 0x0605))) } }

/-- The seeds of bin parameters take effect at a boundary (R249). -/
def applySeeds (s : State) : State :=
  let t := s.alm.seeds.foldl (fun s p =>
    if p.1 < 0x0670 then
      { s with alm := { s.alm with load := vset s.alm.load (p.1 - 0x0640) (some ((signed 32 (leNat p.2) : Int) : Rat)) } }
    else { s with alm := { s.alm with harv := vset s.alm.harv (p.1 - 0x0670) (some (leNat p.2 : Rat)) } }) s
  { t with alm := { t.alm with seeds := [] } }

/-- A half-hour boundary (R227, R228): the ended bin is learned where it qualifies, seeds take effect, the next bin
begins. A boundary that lies more than one half-hour on finds no bin that ran for its whole length. -/
def halfHour (s : State) : State :=
  let idx := s.tmr.rtcSec / 1800
  let s1 := match s.alm.binStart with
    | some c0 => if idx = s.alm.binIdx + 1 ∧ s.alm.binOk ∧ s.tmr.rtcValid then learnBin s c0 else s
    | none => s
  let s2 := applySeeds s1
  { s2 with alm := { s2.alm with
      binStart := if s2.tmr.rtcValid && s2.gauge.stepped then some (packC s2) else none
      binIdx := idx, binAt := now s2, binOk := true, binChg := false, seaSince := now s2, seaSum := 0 } }

/-- The running bin can no longer qualify: Lode stopped, or RTC_SET took effect (R228). -/
def binSpoil (s : State) : State := { s with alm := { s.alm with binOk := false } }

/-- The running bin takes note of a step (R227, R228). I_step of either bank counts for the test against REST_MA (DESIGN
CHOICE, assumption log 136). -/
def binStep (s : State) : State :=
  let g := s.gauge
  let bad (x : Acct) : Bool := x.sat || x.offpwr
  let dirty := g.timeDeg || g.chgDeg || bad g.a || (bbPresent s && bad g.b)
  let chg := decide ((prm s 0x0507 : Rat) < g.a.iStep * 1000) || (bbPresent s && decide ((prm s 0x0507 : Rat) < g.b.iStep * 1000))
  { s with alm := { s.alm with binOk := s.alm.binOk && !dirty && s.tmr.rtcValid, binChg := s.alm.binChg || chg } }

/-! ## Records of the Almanac (R236) -/

/-- The ALM records: load bins, harvest bins, daily sums (15 R362). -/
def almRecs (s : State) : List Rec :=
  [⟨0x30, 0, 48, .bins s.alm.load.toList⟩, ⟨0x30, 1, 48, .bins s.alm.harv.toList⟩, ⟨0x30, 2, 14, .daily s.alm.daily⟩]

/-- 00:00 UTC (R232, R236, R246): the day's harvest sum joins the list, the day's pulse counts start anew. A day that
passed without a learned bin counts as one without a sum. -/
def dayRoll (s : State) : State :=
  let d := s.tmr.rtcSec / 86400
  let k := d - s.alm.dayIdx
  if d = s.alm.dayIdx then s
  else
    { s with
      alm := { s.alm with
        daily := ((List.replicate (k - 1) (none : Option Rat)) ++ (s.alm.today :: s.alm.daily)).take 14
        today := none, dayIdx := d }
      pol := { s.pol with dpasN := 0, dpasDay := 0 } }

end Sys2Proof.Machine
end

