-- ==== Sys2Proof/Machine/LinkOps.lean ====
section
/-! DEFINITION. The Criuc link: frames, transmission, counters and the receive table, roster and rank, payloads and
records, configuration blocks (12_criuc_link.md). -/

namespace Sys2Proof.Machine

/-! ## Identity and permission -/

/-- The pack serial. -/
def serialOf (s : State) : Nat := prm s 0x0101

/-- The rank word of a part (R291). -/
def rankWord (prio serial : Nat) : Nat := prio * 2 ^ 32 + serial

/-- The part's own rank word. -/
def ownRank (s : State) : Nat := rankWord s.link.prio (serialOf s)

/-- The part receives: Lode runs, Pour is reached and the link is enabled (R91, R307). -/
def canRx (s : State) : Bool := linkEn s && atLeast s .pour && lodeOn s

/-- A member: listed, or the Pole, with a key (R305, R313). -/
def member (s : State) : Bool := isMember s && !noKey s

/-! ## Frames (R277, R278) -/

/-- The bytes AUTH covers (R278). -/
def frameHead (typ src ctr : Nat) (payload : List Byte) : List Byte :=
  leBytes 1 payload.length ++ leBytes 1 typ ++ leBytes 4 src ++ leBytes 4 ctr ++ payload

/-- AUTH of a frame (R278). -/
def frameAuth (s : State) (typ src ctr : Nat) (payload : List Byte) : List Byte :=
  (slotHmac s s.link.keySlot (frameHead typ src ctr payload)).take 8

/-- A whole frame, from LEN to its CRC. -/
def frameBytes (s : State) (typ ctr : Nat) (payload : List Byte) : List Byte :=
  let b := frameHead typ (serialOf s) ctr payload ++ frameAuth s typ (serialOf s) ctr payload
  b ++ leBytes 4 (crc32 b)

/-- The lengths a type allows (R279). -/
def lenOk (typ len : Nat) : Bool :=
  match typ with
  | 0x01 => len == 111 || len == 89
  | 0x02 => len == 20
  | 0x03 => len == 24
  | 0x04 => len == 5
  | 0x05 => len == 1
  | 0x06 => decide (8 ≤ len ∧ len ≤ 128)
  | 0x07 => len == 6
  | 0x08 => decide (16 ≤ len ∧ len ≤ 128)
  | 0x09 => decide (12 ≤ len ∧ len ≤ 128)
  | _ => false

/-! ## Counters with their reservation (R288) -/

/-- A reservation 4096 higher is committed when the counter comes within 1024 of the one in force (R288). -/
def linkReserve (s : State) : State :=
  if s.link.ctrRes ≤ s.link.ctr + 1024 ∧ !counterQueued 0 s ∧ s.link.ctrRes < 0xFFFFFFFF then
    commitInternal [counterRec 0 (min (s.link.ctrRes + 4096) 0xFFFFFFFF)] s
  else s

/-- A frame gets its counter at its first attempt; a retry keeps it (R284, R288). -/
def withCtr (f : TxFrame) (s : State) : TxFrame × State :=
  match f.ctr with
  | some _ => (f, s)
  | none =>
    let s1 := { s with link := { s.link with ctr := s.link.ctr + 1 } }
    ({ f with ctr := some s1.link.ctr }, linkReserve s1)

/-- A frame starts its B1 now: the transmitter, on since 44 µs before, stays on until 44 µs after B2, and the medium goes
idle 112 µs after B2 (R277, R283). -/
def startFrame (f0 : TxFrame) (s0 : State) : State :=
  let r := withCtr f0 s0
  let f := r.1
  let s := r.2
  let us := frameUs f.typ f.payload.length
  { s with link := { s.link with
      sending := some f, txAt := now s, txEnd := some (now s + usTicks (us + 44)), idleAt := now s + usTicks (us + 112)
      tx := frameBytes s f.typ (f.ctr.getD 0) f.payload } }

/-- The medium goes idle 112 µs after the energy on it ends now (R283). -/
def mediumEnds (s : State) : State := { s with link := { s.link with idleAt := now s + usTicks 112 } }

/-! ## Symbols (R276, R277) -/

/-- A symbol: a data symbol k, swept up from 3.2 + 2.4 k MHz, or a sync symbol, swept down from a frequency in kHz. -/
inductive Symbol where
  | data (k : Nat)
  | down (kHz : Nat)
  deriving DecidableEq, Repr

/-- The four symbols of a byte, bits 1:0 first. -/
def byteSymbols (b : Byte) : List Symbol := (List.range 4).map fun i => .data (b.toNat / 4 ^ i % 4)

/-- The symbols of a burst: preamble, two down-sweeps, bytes. -/
def burstSymbols (typ : Nat) (second : Bool) (bytes : List Byte) : List Symbol :=
  List.replicate (preSyms typ second) (.data 0) ++ List.replicate 2 (.down (if second then 8000 else 12800))
    ++ bytes.flatMap byteSymbols

/-- The frequency of a symbol in kHz, `n` LINK ticks into it: 1.2 MHz to the µs, held in the band by wrapping. That a
down-sweep has the rate of a data symbol and wraps from 3.2 MHz to 12.8 MHz is DEDUCED (assumption log 146). -/
def symbolKHz (n : Nat) : Symbol → Nat
  | .data k => 3200 + (2400 * k + n * 1200 * 10 / 512) % 9600
  | .down f => 3200 + (f + 9600 - 3200 - n * 1200 * 10 / 512 % 9600) % 9600

/-- The index of the symbol that holds LINK tick `n` of a burst: symbol k begins at the floor of 409.6 k (R276). -/
def symbolAt (n : Nat) : Nat := (10 * n + 9) / 4096

/-- The LINK ticks from a base value to now. -/
def linkSince (s : State) (t : Nat) : Nat := (now s - t) * 25 / 4

/-- The LINK tick at which B2 begins, from the start of B1 (R277). -/
def secondAt (f : TxFrame) : Nat := linkTicks (burstUs (preSyms f.typ false) f.payload.length + 96)

/-- What LTXP/LTXN drive now: the frequency in kHz, none outside the bursts (R275 to R277). -/
def linkDrive (s : State) : Option Nat :=
  match s.link.sending with
  | none => none
  | some f =>
    let n := linkSince s s.link.txAt
    let second := decide (secondAt f ≤ n)
    let m := if second then n - secondAt f else n
    ((burstSymbols f.typ second s.link.tx)[symbolAt m]?).map (symbolKHz (m - 4096 * symbolAt m / 10))

/-! ## The medium (R283) -/

/-- How many symbols of 8 µs pass from the start of a list of energies, whose first 14 symbols lie before an instant, until
the medium is idle: 112 µs without a symbol above LINK_CS. -/
def idleAfter (cs : Nat) : List Nat → Nat
  | [] => 0
  | e :: r => if ((e :: r).take 14).all fun x => decide (x ≤ cs) then 0 else 1 + idleAfter cs r

/-- The symbols until the medium is idle, 0 where it is idle at the instant. -/
def busySyms (m : Medium) (s : State) : Nat := idleAfter (prm s 0x0904) m.mv

/-- A frame that is ready now. -/
def newFrame (s : State) (typ prio : Nat) (payload : List Byte) (op : Option Nat) : TxFrame :=
  ⟨typ, payload, prio, none, 0, op, now s, 0⟩

/-- Put a frame into the queue of frames that wait for the medium (R284). -/
def queueFrame (typ prio : Nat) (payload : List Byte) (op : Option Nat) (s : State) : State :=
  { s with link := { s.link with txq := s.link.txq ++ [newFrame s typ prio payload op] } }

/-- The CSMA frame whose instant comes first, with its place in a queue (R284). -/
def nextFrame (s : State) (q : List TxFrame) : Option (Nat × TxFrame) :=
  (q.zipIdx.map fun x => (x.2, x.1)).foldl (fun best x => match best with
    | none => if x.2.typ ≤ 2 then none else some x
    | some b => if 2 < x.2.typ ∧ csmaDue s x.2 < csmaDue s b.2 then some x else some b) none

/-! ## Receive table (R289) -/

/-- What the receive table says of a frame. -/
inductive Fresh where
  | fresh | dup | replay
  deriving DecidableEq, Repr

/-- The freshness of CTR for SRC (R289). -/
def freshness (s : State) (src ctr : Nat) (content : List Byte) : Fresh :=
  match s.link.rxTable.find? fun e => e.1 == src with
  | none => .fresh
  | some e => if e.2.1 < ctr then .fresh else if ctr = e.2.1 ∧ content = e.2.2 then .dup else .replay

/-- The serials of the listed Stars, the Pole included (R292). -/
def listed (s : State) : List Nat := (s.link.poleSer :: s.link.roster).filter fun x => x != 0

/-- Accept a frame: its serial's entry becomes the most recent; without room the least recent entry that is not of a
listed Star gives way (R289). -/
def rxAccept (src ctr : Nat) (content : List Byte) (s : State) : State :=
  let rest := s.link.rxTable.filter fun e => e.1 != src
  let keep := listed s
  let room := if rest.length < 32 then rest
    else match rest.reverse.findIdx? (fun e => !keep.contains e.1) with
      | some i => (rest.reverse.eraseIdx i).reverse
      | none => rest.take 31
  { s with link := { s.link with rxTable := (src, ctr, content) :: room } }

/-- The RXCTR records of changed entries (R289, 15 R362). -/
def rxRecs (s : State) : List Rec :=
  (List.range 32).filterMap fun i =>
    let e := (s.link.rxTable[i]?).map fun e => (e.1, e.2.1)
    let w := match e with | some e => [e.1, e.2] | none => [0, 0]
    let old := match newest s 0x42 i with
      | some ⟨_, _, _, .words w⟩ => w
      | _ => [0, 0]
    if old = w then none else some ⟨0x42, i, 2, .words w⟩

/-! ## Stars and roster (R292) -/

/-- What is known of a serial. -/
def starOf (s : State) (serial : Nat) : Star :=
  match s.link.stars.find? fun x => x.serial == serial with
  | some x => x
  | none =>
    if serial = serialOf s then ⟨serial, s.link.prio, 1, 2, 3, 1, none, none, 0, 0, false⟩
    else if serial = s.link.poleSer then ⟨serial, s.link.polePrio, 0, 0, 0, 0, none, none, 0, 0, false⟩
    else ⟨serial, 0, 0, 0, 0, 0, none, none, 0, 0, false⟩

/-- Keep what is known of a serial. -/
def putStar (x : Star) (s : State) : State :=
  { s with link := { s.link with stars := x :: s.link.stars.filter fun y => y.serial != x.serial } }

/-- A serial's rank word. -/
def rankOf (s : State) (serial : Nat) : Nat := rankWord (starOf s serial).prio serial

/-- Insert a serial in ascending rank word. -/
def insRank (s : State) (x : Nat) : List Nat → List Nat
  | [] => [x]
  | y :: r => if x = y then y :: r else if rankOf s x < rankOf s y then x :: y :: r else y :: insRank s x r

/-- Roster entries 0 to 14 from a list of serials. -/
def rosterOf (l : List Nat) : List Nat := (l ++ List.replicate 15 0).take 15

/-- The occupied entries. -/
def others (s : State) : List Nat := s.link.roster.filter fun x => x != 0

/-- Put a Star into the roster in its rank; the last-ranked gives way in a full one (R292). -/
def enrol (x : Nat) (s : State) : State :=
  let rest := (others s).filter fun y => y != x
  let st := starOf s x
  let t := if (others s).contains x then s else putStar { st with missed := 0, listedBn := s.link.bn + 1 } s
  { t with link := { t.link with roster := rosterOf ((insRank t x rest).take 15) } }

/-- Take a Star off the roster (R296). -/
def strike (x : Nat) (s : State) : State :=
  { s with link := { s.link with roster := rosterOf ((others s).filter fun y => y != x) } }

/-- The listed Stars whose protocol versions are known: the part has had a JOIN or a report of theirs. -/
def known (s : State) : List Star := ((others s).map (starOf s)).filter fun x => x.pvMax != 0

/-- The PV in force: the lowest PV_MAX among the listed Stars (R309). While some of them have not been heard, as after a
change of Pole, no more than the PV of the last beacon, which they were listed under (DEDUCED; assumption log 144). -/
def pvOf (s : State) : Nat :=
  let heard := ((known s).map Star.pvMax).foldl min 2
  if (known s).length = (others s).length ∨ s.link.pv = 0 then heard else min heard s.link.pv

/-! ## Configuration blocks (R299, R300) -/

/-- The digest of a block (R299). -/
def cfgDigest (b : List Byte) : List Byte := (sha 1 b).take 8

/-- The generation and digest in force, zeros without a block. -/
def ownGen (s : State) : Nat := s.link.gen
def ownDigest (s : State) : List Byte :=
  match s.link.cfg with
  | some b => cfgDigest b
  | none => List.replicate 8 0

/-- An ID a block may name (R299): a writable parameter of class 0x03, 0x06 without the bins, 0x07, LINK_CS, LINK_CD,
LINK_TXLVL. -/
def cfgIdOk (id : Nat) : Bool :=
  (id / 256 == 3 || (id / 256 == 6 && decide (id < 0x640 ∨ 0x69F < id)) || id / 256 == 7 || decide (0x904 ≤ id ∧ id ≤ 0x906))
    && (match prmOf id with | some p => p.wr == .u | none => false)

/-- Check a block in the order of R299: BADLEN, BADARG, RANGE. -/
def cfgCheck (s : State) (b : List Byte) : Byte :=
  let n := byteAt b 4
  let items := cfgItems b
  let ids := items.map Prod.fst
  let g (id : Nat) : Nat := match items.find? fun it => it.1 == id with | some it => it.2 | none => prmLatest s id
  if b.length < 8 ∨ b.length ≠ 8 + 6 * n ∨ 20 < n then stBadLen
  else if !(ids.all cfgIdOk) ∨ ids.dedup.length ≠ ids.length then stBadArg
  else if !(items.all fun it => match prmOf it.1 with
      | some p => decide (it.2 < 2 ^ (8 * p.len)) && p.inRange (leBytes p.len it.2)
      | none => false) then stRange
  else if !relationsOk s g (fun id => ids.contains id) then stRange
  else if leAt b 0 4 ≤ s.link.gen ∨ 0xFFFFFFFE < leAt b 0 4 then stRange
  else stOk

/-- The CSTCFG record of a block (15 R362). -/
def cfgRec (b : List Byte) : Rec := ⟨0x50, 0, (b.length + 3) / 4, .bytes b⟩

/-- Adopt a block (R300). -/
def adopt (b : List Byte) (s : State) : State :=
  commitInternal [cfgRec b] { s with link := { s.link with cfg := some b, gen := leAt b 0 4, cfgNeed := false } }

/-! ## Payloads -/

/-- The flags of a degraded record: SAT, OFFPWR, TIME_DEG, CHG_DEG. -/
def degraded (g : GaugeRec) : Bool := decide (bitsOf g.flags 2 2 + bitsOf g.flags 3 3 + bitsOf g.flags 4 4 + bitsOf g.flags 6 6 ≠ 0)

/-- A three-byte field that saturates. -/
def le3 (v : Int) : List Byte := leBytes 3 (min 0xFFFFFF v.toNat)

/-- The REPORT payload, from one snapshot (R295). -/
def reportBytes (s : State) : List Byte :=
  let a := s.gauge.snap.recA
  let b := s.gauge.snap.recB
  let alm (f : AlmRec → Nat) : Nat := match s.alm.rcd with | some r => f r | none => 0
  let alarm := allSources.any fun k => match (srcOf s k).latch with | some r => decide (1 ≤ r.code) | none => false
  leBytes 1 (bit s.start.estConf + 2 * (alm AlmRec.flags % 2) + 4 * bit (degraded a || degraded b) + 8 * bit s.link.ownSplit
      + 16 * bit s.link.cfgNeed + 32 * s.pol.computed + 128 * bit alarm)
    ++ le3 (a.rm + b.rm) ++ le3 (a.fcc + b.fcc) ++ leBytesS 3 (a.curr + b.curr) ++ leBytes 2 (max a.temp b.temp)
    ++ leBytes 1 (min 255 (max a.sigma b.sigma))
    ++ le3 (match s.alm.rcd with | some r => r.load0 | none => 0) ++ le3 (match s.alm.rcd with | some r => r.harv0 | none => 0)
    ++ leBytes 1 2

/-- The sum of a 3-byte field over reports. -/
def sum3 (off : Nat) (l : List (List Byte)) : Nat := (l.map fun r => leAt r off 3).sum

/-- The aggregate block (R297). -/
def formBlock (s : State) : List Byte :=
  let fresh := (others s).filterMap fun x =>
    let st := starOf s x
    match st.report, st.reportBn with
    | some r, some n => if s.link.bn ≤ n + 3 then some r else none
    | _, _ => none
  let all := reportBytes s :: fresh
  let flag (i : Nat) (r : List Byte) : Bool := decide (byteAt r 0 / 2 ^ i % 2 = 1)
  let curr : Int := (all.map fun r => le24s r 7).sum
  leBytes 1 all.length ++ leBytes 1 (bit (all.all (flag 0)) + 2 * bit (all.any (flag 1)) + 4 * bit (all.any (flag 2)))
    ++ leBytes 2 (min 65535 s.gauge.snap.recA.volt) ++ leBytesS 3 curr ++ leBytes 3 (min 0xFFFFFF (sum3 1 all))
    ++ leBytes 3 (min 0xFFFFFF (sum3 4 all)) ++ leBytes 2 ((all.map fun r => leAt r 10 2).foldl max 0)
    ++ leBytes 1 ((all.map fun r => byteAt r 12).foldl max 0) ++ leBytes 3 (min 0xFFFFFF (sum3 13 all))
    ++ leBytes 3 (min 0xFFFFFF (sum3 16 all))

/-- The RTC in AON ticks. -/
def rtcTicks (s : State) : Nat := 32768 * s.tmr.rtcSec + s.tmr.rtcSub

/-- The JOIN payload at its B1 start (R291). -/
def joinBytes (s : State) : List Byte :=
  leBytes 1 s.link.prio ++ [1, 2, 3, 1] ++ leBytes 1 (bit s.tmr.rtcValid) ++ leBytes 4 (ownGen s) ++ ownDigest s
    ++ leBytes 4 s.tmr.rtcSec ++ leBytes 2 s.tmr.rtcSub

/-- The BEACON payload (R294). -/
def beaconBytes (s : State) : List Byte :=
  leBytes 1 s.link.pv ++ leBytes 1 s.link.prio
    ++ leBytes 1 (bit s.link.split + 2 * bit s.link.handover + 4 * bit s.link.demote + 8 * bit (!s.tmr.rtcValid))
    ++ leBytes 4 s.link.bn ++ leBytes 4 s.tmr.rtcSec ++ leBytes 2 s.tmr.rtcSub ++ leBytes 4 (ownGen s) ++ ownDigest s
    ++ (s.link.roster.map (leBytes 4)).flatten ++ leBytes 4 s.link.heir
    ++ (if s.link.pv = 1 then [] else padTo 22 (s.link.block.getD []))

/-! ## The block in hand (R298) -/

/-- A beacon's block is held with the stamp of its reference. -/
def holdBlock (b : List Byte) (ref : Nat) (s : State) : State :=
  { s with link := { s.link with block := some b, blockAt := ref, blockCurr := (le24s b 4 :: s.link.blockCurr).take 600 } }

/-! ## Beacon of the Pole (R293, R294, R304, R312) -/

/-- The entries of a beacon with HANDOVER by R293: the heir leaves them, the old Pole joins them. -/
def handoverRoster (s : State) : List Nat :=
  rosterOf (insRank s (serialOf s) ((others s).filter fun x => x != s.link.heir))

/-- CONFIG_SPLIT follows the reports, the beacon number goes up, the aggregate formed for it is held, and PV follows the roster (R294, R297, R308, R309). -/
def beaconPrep (s : State) : State :=
  let own := !s.link.leaving && s.link.handover
  let r := if own then handoverRoster s else s.link.roster
  let t := { s with link := { s.link with
      split := decide (s.link.splitAge < 4)
      bn := (s.link.bn + 1) % 2 ^ 32, pv := pvOf s, roster := r, refAt := some (now s), lastBeacon := some (now s)
      lastBns := ((s.link.bn + 1) % 2 ^ 32 :: s.link.lastBns).take 4
      beaconAt := s.link.beaconAt + 8192000, formed := none, missed := 0 } }
  match s.link.formed with
  | some b => holdBlock b (now s) t
  | none => t

/-- After a beacon with HANDOVER or DEMOTE the part is no longer the Pole (R293, R304, R312). -/
def beaconAfter (s : State) : State :=
  let l := s.link
  if l.leaving then { s with link := { l with role := .silent, leaving := false, handover := false, heir := 0 } }
  else if l.demote then
    queueFrame 0x03 5 [] none { s with link := { l with role := .joining, demote := false, joinAge := 0 } }
  else if l.handover then
    { s with link := { l with
        role := .member, handover := false, poleSer := l.heir, polePrio := (starOf s l.heir).prio
        poleChanges := satTo 65535 (l.poleChanges + 1) } }
  else s

/-- The Pole's beacon starts now. -/
def sendBeacon (s : State) : State :=
  let t := beaconPrep s
  beaconAfter (startFrame (newFrame t 0x01 0 (beaconBytes t) none) t)

/-- The part becomes Pole; its first beacon falls due at `t` (R291, R293, R296). -/
def becomePole (t : Nat) (s : State) : State :=
  let l := s.link
  { s with link := { l with
      role := .pole, beaconAt := t, poleChanges := if l.poleSer = 0 then l.poleChanges else satTo 65535 (l.poleChanges + 1)
      poleSer := serialOf s, polePrio := l.prio, poleLost := false, missed := 0, handover := false, demote := false
      heir := 0, leaving := false, splitAge := if l.split then 0 else 4
      roster := rosterOf ((others s).filter fun x => x != serialOf s) } }

/-! ## Leaving (R304) -/

/-- Leave the constellation: a Star sends LEAVE; a Pole names entry 0 in one last beacon, or sends nothing if that entry
is empty. The reason byte is not given (assumption log 2). -/
def leaveLink (s : State) : State :=
  if s.link.role = .pole then
    if s.link.roster.headD 0 = 0 then { s with link := { s.link with role := .silent } }
    else { s with link := { s.link with leaving := true, handover := true, heir := s.link.roster.headD 0 } }
  else
    let r := drawNat s
    queueFrame 0x05 5 (leBytes 1 (r.1 % 256)) none { r.2 with link := { r.2.link with role := .silent, txq := [] } }

/-! ## Records (R305, R306) -/

/-- Whole seconds since a base value, at most 65 535. -/
def ageSec (s : State) (t : Nat) : Nat := min 65535 ((now s - t) / 8192000)

/-- The summary record, 39 bytes; a part that neither is a member nor a Dim Star listens while it receives (R291, R304). -/
def cstSummary (s : State) : List Byte :=
  let l := s.link
  let m := member s
  leBytes 2 (bit m + 2 * bit (m && l.role == .pole) + 4 * bit (l.role == .dim) + 8 * bit (canRx s && !m && l.role != .dim)
      + 16 * bit l.split + 32 * bit (noKey s) + 64 * bit (txHalt s))
    ++ leBytes 4 l.poleSer ++ leBytes 1 (if m then (ownEntry s).getD 0xFF else 0xFF)
    ++ leBytes 1 (listed s).length ++ leBytes 1 l.pv ++ leBytes 4 l.bn ++ leBytes 4 (ownGen s) ++ ownDigest s
    ++ leBytesS 4 l.rtcErr ++ leBytesS 2 s.tmr.rtcSlew
    ++ leBytes 2 (match l.lastBeacon with | some t => min 65534 (ageSec s t) | none => 0xFFFF)
    ++ leBytes 4 l.ctr ++ leBytes 2 l.poleChanges

/-- The serial in a roster entry 0 to 15. -/
def entrySerial (s : State) (i : Nat) : Nat := if i = 15 then s.link.poleSer else s.link.roster.getD i 0

/-- The Star entry record of a roster entry, 32 bytes; an empty one is all zeros apart from its index. -/
def cstEntry (s : State) (i : Nat) : List Byte :=
  let ser := entrySerial s i
  if ser = 0 then leBytes 1 i ++ List.replicate 31 0
  else
    let x := starOf s ser
    let age := x.reportBn.map fun n => s.link.bn - n
    let split := match x.report with | some r => decide (byteAt r 0 / 8 % 2 = 1) | none => false
    leBytes 1 i
      ++ leBytes 1 (1 + 2 * bit (i == 15) + 4 * bit (match age with | some a => decide (a ≤ 3) | none => false)
          + 8 * bit split + 16 * bit x.alarm)
      ++ leBytes 4 ser ++ leBytes 1 x.prio ++ leBytes 1 x.pvMax ++ leBytes 1 x.romMaj ++ leBytes 1 x.romMin
      ++ padTo 20 (x.report.getD []) ++ leBytes 2 (match age with | some a => min 0xFFFE a | none => 0xFFFF)

/-- The counters and the stamp of their clear (R306). -/
def statsBytes (s : State) (clear : Nat) : List Byte :=
  (s.link.counters.toList.map (leBytes 4)).flatten ++ leBytes 8 clear

/-! ## Coulomb transactions (09 R200, 15 R362) -/

/-- The COUL record of a bank (04 R84, 15 R362). -/
def coulRec (s : State) (b : Bank) : Rec :=
  let x := acctOf b s
  ⟨0x21, (match b with | .a => 0 | .b => 1), 11,
    .coul s.start.lifeAon x.q x.aOff x.aSelf x.mark s.tmr.rtcSec s.tmr.rtcValid x.temp
      (match b with | .a => 0 | .b => s.gauge.pasv) x.cycles⟩

/-- The ANNEAL records (10 R239). -/
def annealRecs (s : State) : List Rec :=
  ⟨0x23, 0, 12, .annealA s.anneal.accA s.anneal.rejA s.anneal.anchor.isSome⟩
    :: (if bbPresent s then [⟨0x23, 1, 12, .annealB s.anneal.cAvail⟩] else [])

/-- The CELL records of the cells in use. -/
def cellRecs (s : State) : List Rec := (List.range (series s)).map (cellRecOf s)

/-- The records of a coulomb transaction (09 R200): every tenth carries the cells. -/
def coulRecs (s : State) (cells : Bool) : List Rec :=
  (coulRec s .a :: (if bbPresent s then [coulRec s .b] else [])) ++ annealRecs s ++ rxRecs s
    ++ (if cells then cellRecs s else [])

end Sys2Proof.Machine
end

