-- ==== Sys2Proof/Machine/GlintOps.lean ====
section
/-! DEFINITION. Glint: the Burst table it holds, slices, step detection, windows and events (09_gauge_model.md R212 to
R216). -/

namespace Sys2Proof.Machine

/-- Glint's Burst table: a twin pair of shunt ×1 and bank voltage per bank (R212). -/
def glintTable (s : State) : List SeqEntry :=
  [⟨0x18, 1, 16, 0x20, 24, 24, 16⟩, ⟨0x11, 1, 16, 0, 25, 0xFF, 16⟩]
    ++ (if bbPresent s then [⟨0x19, 1, 16, 0x20, 26, 26, 16⟩, ⟨0x12, 1, 16, 0, 27, 0xFF, 16⟩] else [])

/-- The first slice boundary after a base value (R212). -/
def sliceAfter (t : Nat) : Nat := (t / 400 + 1) * 400

/-- Accumulators 24 to 27 and trackers 24 and 26 are cleared (R212). -/
def glintClear (s : State) : State :=
  { s with sar := { s.sar with
      acc := s.sar.acc.mapIdx (fun i a => if 24 ≤ i ∧ i ≤ 27 then Acc.empty else a)
      trk := s.sar.trk.mapIdx (fun i t => if i = 24 ∨ i = 26 then Trk.empty else t) } }

/-- Glint's passes run from here on; its accumulators and trackers are as they are (R165). -/
def glintRun (s : State) : State :=
  { s with
    sar := { s.sar with
      burst := glintTable s, burstOn := true, burstLeft := 0, burstStop := false, burstPos := seqStart s (glintTable s) }
    glint := { s.glint with sliceAt := some (sliceAfter (now s)) } }

/-- Which segments of an event end after a base value: 1, 2, 3 for 1, 10, 100 ms (R213, R215). -/
def segsAfter (slice0 t : Nat) : List Nat :=
  (if t < (slice0 + 21) * 400 then [1] else []) ++ (if t < (slice0 + 206) * 400 then [2] else [])
    ++ (if t < (slice0 + 2049) * 400 then [3] else [])

/-- An open event ends at a base value: segments not completed by then are invalid (R215). -/
def glintCut (at_ t : Nat) (o : GlintOpen) : GlintOpen :=
  if o.ended.isSome then o else { o with cut := segsAfter o.slice0 at_, ended := some t }

/-- Glint's passes stop at the end of a pass, as when the part dozes: an open event ends (R212). -/
def glintPause (s : State) : State :=
  if !s.glint.on then s
  else
    { s with
      sar := { s.sar with burstOn := false, burstPos := none, burstStop := false }
      glint := { s.glint with
        sliceAt := none
        openA := s.glint.openA.map (glintCut (now s) (now s))
        openB := s.glint.openB.map (glintCut (now s) (now s)) } }

/-- Glint takes the Burst table (R154, R212). -/
def glintStart (s : State) : State :=
  if s.glint.on then s
  else
    glintRun { s with
      glint := { s.glint with
        on := true
        ringA := []
        ringB := []
        openA := none
        openB := none }
      sar := { s.sar with glintHold := true } }

/-- Glint gives the Burst table back (R154). -/
def glintStop (s : State) : State :=
  if !s.glint.on then s
  else
    let t := glintPause s
    { t with
      glint := { t.glint with on := false }
      sar := { t.sar with glintHold := false, burst := [] } }

/-- GLINT_EN takes effect (R224): at the end of a Burst pass, or at once while none runs; channel 6 is armed or disarmed with
it (R216). -/
def glintApply (s : State) : State :=
  let t := { s with par := s.par.applyMoment .burst }
  let u := if prm t 0x0520 = 1 then glintStart t else glintStop t
  if u.glint.on = s.glint.on then u else armLead u

/-! ## Slices -/

/-- The current in mA that a reading of the shunt stands for is at least `ma` (R142, R149). -/
def shuntAtLeast (s : State) (b : Bank) (x ma : Nat) : Bool := decide (ma * shuntOf b s ≤ 200 * x)

/-- The slice of a bank that ends now. -/
def sliceOf (s : State) (b : Bank) (boundary : Nat) : Slice :=
  let i := match b with | .a => 24 | .b => 26
  let a := vget s.sar.acc i Acc.empty
  let v := vget s.sar.acc (i + 1) Acc.empty
  let t := vget s.sar.trk i Trk.empty
  ⟨boundary - 400, a.count, a.sum, v.sum, a.ssq, a.xpr, t.zenith, t.zStamp, t.nadir, t.nStamp, s.sar.pairDrop⟩

/-- The tracker spread of a slice reaches GLINT_STEP (R215). -/
def spread (s : State) (b : Bank) (x : Slice) : Bool :=
  decide (x.nad ≤ x.zen) && shuntAtLeast s b (x.zen - x.nad).toNat (prm s 0x0521)

/-- Add a slice to a window. -/
def Pool.add (x : Slice) (p : Pool) : Pool := ⟨p.n + x.n, p.sI + x.sI, p.sV + x.sV, p.ssqI + x.ssqI, p.xpr + x.xpr⟩

/-- Pool two windows (R214). -/
def Pool.join (p q : Pool) : Pool := ⟨p.n + q.n, p.sI + q.sI, p.sV + q.sV, p.ssqI + q.ssqI, p.xpr + q.xpr⟩

/-- An empty window. -/
def Pool.zero : Pool := ⟨0, 0, 0, 0, 0⟩

/-- PAIR_DROP rose between two readings; a read in between cleared it (R215). -/
def dropRose (before after : Nat) : Bool := decide (before < after) || (decide (after < before) && decide (0 < after))

/-- The ring and the open event of a bank. -/
def ringOf (s : State) : Bank → List Slice
  | .a => s.glint.ringA
  | .b => s.glint.ringB
def openOf (s : State) : Bank → Option GlintOpen
  | .a => s.glint.openA
  | .b => s.glint.openB

/-- Replace the ring or the open event of a bank. -/
def setRing (b : Bank) (r : List Slice) (s : State) : State :=
  match b with
  | .a => { s with glint := { s.glint with ringA := r } }
  | .b => { s with glint := { s.glint with ringB := r } }
def setOpen (b : Bank) (o : Option GlintOpen) (s : State) : State :=
  match b with
  | .a => { s with glint := { s.glint with openA := o } }
  | .b => { s with glint := { s.glint with openB := o } }

/-- A step that was not evaluated counts as skipped (R215). -/
def glintSkip (b : Bank) (s : State) : State :=
  match b with
  | .a => { s with glint := { s.glint with skipA := satTo 0xFFFFFFFF (s.glint.skipA + 1) } }
  | .b => { s with glint := { s.glint with skipB := satTo 0xFFFFFFFF (s.glint.skipB + 1) } }

/-- Per-cell voltage in mV of a window's mean (R149, R211). -/
def poolMv (s : State) (b : Bank) (n : Nat) (sV : Int) : Rat :=
  rdiv (rdiv (sV : Rat) n / 5) (match b with | .a => series s | .b => prm s 0x0202)

/-- A slice with index `k` after slice 0 enters its windows (R211, R213, R215). -/
def glintFeed (s : State) (b : Bank) (x : Slice) (o : GlintOpen) : GlintOpen :=
  let k := x.start / 400 - o.slice0
  let w := if 5 ≤ k ∧ k ≤ 20 then 1 else if 103 ≤ k ∧ k ≤ 205 then 2 else if 1025 ≤ k ∧ k ≤ 2048 then 3 else 0
  if o.ended.isSome ∨ x.start / 400 < o.slice0 then o
  else
    let hit := w != 0 && (spread s b x || dropRose o.drops x.drop)
    { o with
      seg1 := if w = 1 then o.seg1.add x else o.seg1
      seg10 := if w = 2 then o.seg10.add x else o.seg10
      seg100 := if w = 3 then o.seg100.add x else o.seg100
      bad := if hit then o.bad ++ [w] else o.bad
      drops := x.drop
      vMin := if 5 ≤ k ∧ k ≤ 2048 ∧ 0 < x.n then
          (let v := poolMv s b x.n x.sV; some (match o.vMin with | some m => ratMin m v | none => v))
        else o.vMin
      ended := if 2048 ≤ k then some (now s) else none }

/-- The slices of a ring follow each other without a gap. -/
def contiguous : List Slice → Bool
  | a :: b :: r => decide (a.start = b.start + 400) && contiguous (b :: r)
  | _ => true

/-- The pre-window of an event whose slice 0 stands at ring position `z`: slices −206 to −2, newest first, and the slice
before them after it, so that all of it was sampled (R213, R215). -/
def preWindow (ring : List Slice) (z : Nat) : Option (List Slice) :=
  let all := (ring.drop z).take 208
  if all.length = 208 ∧ contiguous all then some (all.drop 2) else none

/-- PAIR_DROP rose within a run of slices, newest first. -/
def dropIn : List Slice → Bool
  | a :: b :: r => dropRose b.drop a.drop || dropIn (b :: r)
  | _ => false

/-- The bank is configured: present, with a profile in its slot (R215). -/
def bankReady (s : State) (b : Bank) : Bool :=
  match b with
  | .a => (vget s.gauge.profiles (prm s 0x0501) none).isSome
  | .b => bbPresent s && (vget s.gauge.profiles (prm s 0x0502) none).isSome

/-- The rest before an event lasted REST_MIN, and the pack moved less than 0.5 K over it (R217). -/
def glintRested (s : State) (b : Bank) : Bool :=
  (match s.gauge.restSince with | some t => decide (t + restMin s ≤ now s) | none => false)
    && decide (ratAbs ((acctOf b s).temp - (match b with | .a => s.gauge.restTemp | .b => s.gauge.restTempB)) < 1 / 2)

/-- A step detected over the newest two slices: the later and earlier stamps, whether it falls, its difference (R213). -/
def stepSeen (s : State) (b : Bank) : Option (Nat × Nat × Bool × Int) :=
  match ringOf s b with
  | x :: y :: _ =>
    let zen := if y.zen < x.zen then (x.zen, x.zenAt) else (y.zen, y.zenAt)
    let nad := if x.nad < y.nad then (x.nad, x.nadAt) else (y.nad, y.nadAt)
    let later := max zen.2 nad.2
    let earlier := min zen.2 nad.2
    let fall := decide (zen.2 ≤ nad.2)
    let lastAt := match b with | .a => s.glint.stepA | .b => s.glint.stepB
    if x.start = y.start + 400 ∧ nad.1 ≤ zen.1 ∧ 0 < x.n + y.n ∧ later - earlier ≤ prm s 0x0522 * 8192 / 1000
        ∧ shuntAtLeast s b (zen.1 - nad.1).toNat (prm s 0x0521) ∧ lastAt ≠ some later then
      some (later, earlier, fall, if fall then nad.1 - zen.1 else zen.1 - nad.1)
    else none
  | _ => none

/-! ## Events (R214, R215) -/

/-- The wiring of GLINT_PATH in Ω (R214). -/
def pathOhm (s : State) (b : Bank) : Rat :=
  (prm s (match b with | .a => 0x0524 | .b => 0x0525) : Rat) / 1000000

/-- Z of a segment pooled with the pre-window, in Ω of the bank (R214). -/
def glintZ (s : State) (b : Bank) (pre seg : Pool) : Rat :=
  let p := pre.join seg
  let n : Rat := p.n
  let slope := rdiv (n * p.xpr - p.sI * p.sV) (n * p.ssqI - p.sI * p.sI)
  slope * 1000 * shuntOhm s b - pathOhm s b

/-- A segment is valid (R215). -/
def segValid (s : State) (b : Bank) (o : GlintOpen) (w : Nat) (seg : Pool) : Bool :=
  let m (p : Pool) : Rat := rdiv (p.sI : Rat) p.n
  !o.bad.contains 0 && !o.bad.contains w && !o.cut.contains w && decide (prm s 0x0523 ≤ o.pre.n ∧ prm s 0x0523 ≤ seg.n)
    && decide ((prm s 0x0521 * shuntOf b s : Rat) / 2 ≤ 200 * ratAbs (m seg - m o.pre))

/-- A window of `k` slices lost more than 10 % of its pairs; a pass yields 16 and takes 1040 SAR cycles, without Bank B 512,
as no channel changes (R212, R215; 07 R156). -/
def holed (s : State) (k n : Nat) : Bool := decide (10 * n * (if bbPresent s then 260 else 128) < 9 * k * 400 * 16)

/-- The event of a bank is formed (R214, R215, R220). -/
def glintForm (b : Bank) (s : State) : State :=
  match openOf s b with
  | none => s
  | some o =>
    let v1 := segValid s b o 1 o.seg1
    let v10 := segValid s b o 2 o.seg10
    let v100 := segValid s b o 3 o.seg100
    let z (v : Bool) (p : Pool) : Rat := if v then glintZ s b o.pre p else 0
    let hole := holed s 205 o.pre.n || (!o.cut.contains 1 && holed s 16 o.seg1.n)
      || (!o.cut.contains 2 && holed s 103 o.seg10.n) || (!o.cut.contains 3 && holed s 1024 o.seg100.n)
    let vMin : Rat := match o.vMin with | some m => m | none => 0
    let r : GlintRec :=
      ⟨v1 || v10 || v100, o.fall, hole, false, bit v1 + 2 * bit v10 + 4 * bit v100, o.stamp,
        roundFree (rdiv ((200 * o.dI : Int) : Rat) (shuntOf b s)), z v1 o.seg1, z v10 o.seg10, z v100 o.seg100, vMin,
        if v100 then poolMv s b o.seg100.n o.seg100.sV - vMin else 0, 0, o.rested⟩
    let t := setOpen b none s
    match b with
    | .a => { t with glint := { t.glint with closedA := t.glint.closedA ++ [r], eventsA := satTo 0xFFFFFFFF (t.glint.eventsA + 1) } }
    | .b => { t with glint := { t.glint with closedB := t.glint.closedB ++ [r], eventsB := satTo 0xFFFFFFFF (t.glint.eventsB + 1) } }

/-- A detected step opens an event, or is skipped (R213, R215). -/
def glintDetect (b : Bank) (s0 : State) : State :=
  match stepSeen s0 b with
  | none => s0
  | some (later, earlier, fall, dI) =>
    let s1 := match b with
      | .a => { s0 with glint := { s0.glint with stepA := some later } }
      | .b => { s0 with glint := { s0.glint with stepB := some later } }
    let s := match openOf s1 b with
      | some o => if o.ended.isSome then glintForm b s1 else s1
      | none => s1
    match openOf s b with
    | some o => glintSkip b (setOpen b (some (glintCut earlier (now s) o)) s)
    | none =>
      let z := match ringOf s b with | x :: _ => if x.start ≤ later then 0 else 1 | [] => 0
      match preWindow (ringOf s b) z, bankReady s b with
      | some pre, true =>
        let badPre := (pre.take 205).any (spread s b) || dropIn pre
        let o : GlintOpen :=
          ⟨later / 400, later, fall, dI, (pre.take 205).foldl (fun p x => p.add x) Pool.zero, Pool.zero, Pool.zero, Pool.zero,
            if badPre then [0] else [], [], s.sar.pairDrop, none, none, glintRested s b⟩
        setOpen b (some o) s
      | _, _ => glintSkip b s

/-- One bank at a slice boundary: its slice joins the ring of 256, feeds an open event, and the step detector looks at
the newest two (R212, R213). -/
def glintBank (boundary : Nat) (s : State) (b : Bank) : State :=
  let x := sliceOf s b boundary
  let s1 := setRing b ((x :: ringOf s b).take 256) s
  let s2 := setOpen b ((openOf s1 b).map (glintFeed s1 b x)) s1
  glintDetect b s2

/-- A slice boundary (R212). -/
def glintSliceAt (s : State) : State :=
  match s.glint.sliceAt with
  | none => s
  | some t =>
    let s1 := glintBank t s .a
    let s2 := if bbPresent s1 then glintBank t s1 .b else s1
    let s3 := glintClear s2
    { s3 with glint := { s3.glint with sliceAt := some (sliceAfter (max t (now s3))) } }

end Sys2Proof.Machine
end

