-- ==== Sys2Proof/Machine/ModeOps.lean ====
section
/-! DEFINITION. Entries to the low-power modes and the actions that wait for their reply (03_sprue_commands.md R59,
05_supply_and_modes.md R112 to R118, R412). -/

namespace Sys2Proof.Machine

/-- An entry to a mode is decided. Before Watch and Watch-L a Star leaves the constellation, a depassivation pulse ends,
and from Pour on the coulomb and Almanac records are committed (05 R114, 09 R200, 10 R236, R248). -/
def decideEntry (m : Mode) (nap : Bool) (s : State) : State :=
  let deep := m == .watch || m == .watchL
  let s1 := if deep && isMember s then leaveLink s else s
  let s2 := if deep then endPulse s1 else s1
  let s3 := if deep && atLeast s .pour then commitInternal (almRecs s2) (commitInternal (coulRecs s2 true) s2) else s2
  { s3 with pwr := { s3.pwr with entry := some ⟨m, nap⟩ } }

/-- A wake source cancels a decided entry (R118). -/
def cancelEntry (s : State) : State := { s with pwr := { s.pwr with entry := none } }

/-- The bit of WAKE_EN that governs traffic of an origin: 0 the host port, 1 FRX, 2 FSDI; none for the link and the
internal logic (R115). -/
def wakeBit : Origin → Option Nat
  | .hostNative => some 0
  | .gen2 => some 0
  | .gen1 => some 0
  | .fieldNative => some 1
  | .modbus => some 1
  | .sdi => some 2
  | .internal => none
  | .link => none

/-- A bit of WAKE_EN is set. -/
def wakeEn (s : State) (n : Nat) : Bool := decide (prm s 0x0736 / 2 ^ n % 2 = 1)

/-- Traffic of an origin whose wake source is enabled cancels a decided entry (R118, R119; assumption log 41). -/
def entryTouch (o : Origin) (s : State) : State :=
  match wakeBit o with
  | some n => if wakeEn s n then cancelEntry s else s
  | none => s

/-- An action whose reply has left its port takes effect (03 R59, 14 R357). -/
def doAction (a : DefAct) (origin : Origin) (s : State) : State :=
  match a with
  | .resetCore => coreReset 4 false s
  | .resetFull => coldStart 3 s
  | .sleep m => decideEntry m false s
  | .seal => setLevel .sealed 1 (originCode origin) s
  | .rearmReset => coreReset 4 false s

/-- The reply an action waits for has left: its last byte has been read or sent; and where the master fetches it, or it
waits for the medium (every port but the UART), at the latest 1.000 s after it was ready (R59). -/
def hasLeft (t : Nat) (d : Deferred) : Bool :=
  d.left || (match d.sent with
    | some e => decide (e ≤ t)
    | none => false)
    || (d.origin != .fieldNative && decide (d.ready + secTicks 1 ≤ t))

/-- Take the first action whose reply has left at base value `t`. -/
def takeLeft (t : Nat) : List Deferred → Option (Deferred × List Deferred)
  | [] => none
  | d :: r => if hasLeft t d then some (d, r) else (takeLeft t r).map fun x => (x.1, d :: x.2)

/-- Every action whose reply has left takes effect, at most `n` of them. -/
def runDeferred : Nat → State → State
  | 0, s => s
  | n + 1, s =>
    match takeLeft (now s) s.pwr.deferred with
    | some (d, r) => runDeferred n (doAction d.act d.origin { s with pwr := { s.pwr with deferred := r } })
    | none => s

end Sys2Proof.Machine
end

