-- ==== Sys2Proof/Machine/ReadOps.lean ====
section
/-! DEFINITION. What a GET of each parameter returns: stored values, live readings, profiles, bins, calibration pairs and
the read-only values (16_register_parameter_map.md R388, R391, R392). -/

namespace Sys2Proof.Machine

/-- A bin as GET shows it: its value in 0.1 mA, or the code of an unlearned one (10 R249). -/
def binBytes (unlearned : Nat) (b : Option Rat) : List Byte :=
  match b with
  | some x => leBytesS 4 (roundFree x)
  | none => leBytes 4 unlearned

/-- The live readings of class 0x04: from the snapshot from Pour on; in Melt the currents from the last valid outputs, the
others from the Melt Routine (06 R144, 16 R391; 04 R85, R92). -/
def liveReading (id : Nat) (s : State) : List Byte :=
  let g := s.gauge.snap
  if atLeast s .pour then
    (if id = 0x0401 then leBytes 4 g.recA.volt
     else if id = 0x0402 then leBytesS 4 (roundFree g.maA)
     else if id = 0x0403 then leBytes 4 g.recB.volt
     else if id = 0x0404 then leBytesS 4 (roundFree g.maB)
     else leBytes 2 g.recA.temp)
  else if id = 0x0402 then leBytesS 4 (roundFree (outMa .a s s.cqa.lastOut))
  else if id = 0x0404 then leBytesS 4 (if bbPresent s then roundFree (outMa .b s s.cqb.lastOut) else 0)
  else if id = 0x0401 then leBytes 4 (meltVolt s .a)
  else if id = 0x0403 then leBytes 4 (meltVolt s .b)
  else leBytes 2 (meltTemp s)

/-- PROF_INFO of a slot (16 R391). -/
def profInfo (s : State) (slot : Nat) : List Byte :=
  match vget s.gauge.profiles slot none with
  | some b => leBytes 1 (byteAt b 0) ++ leBytes 1 (byteAt b 1) ++ [0, 0] ++ leBytes 4 (crc32 b)
  | none => List.replicate 8 0

/-- PROF_DATA: 128 bytes of a slot; the bytes of an empty one are free (assumption log 2). -/
def profData (s : State) (k : Nat) : List Byte :=
  match vget s.gauge.profiles (k / 8) none with
  | some b => padTo 128 ((b.drop (128 * (k % 8))).take 128)
  | none => (List.range 128).map fun i => Config.emptyProfile (128 * k + i)

/-- The read-only values of classes 0x0A, 0x0B and 0x0D (13 R340, 14 R358, 16 R392). -/
def roBytes (s : State) (id : Nat) : List Byte :=
  if id = 0x0A03 then leBytes 1 s.sec.lock.code
  else if id = 0x0A04 then lockoutBytes s s.sec.host
  else if id = 0x0A05 then lockoutBytes s s.sec.field
  else if id = 0x0A06 then leBytes 4 s.sec.useCtr
  else if id = 0x0B22 then leBytes 4 s.tamp.rearmCtr
  else if id = 0x0B23 then leBytes 2 s.tamp.evidLost
  else if id = 0x0D01 then leBytes 4 s.tamp.logNext
  else if id = 0x0D02 then leBytes 1 s.tamp.log.length
  else if id = 0x0D03 then leBytes 1 s.tamp.evid.length
  else leBytes 2 s.tamp.logDrop

/-- The bytes GET returns: the value in force, applied or not (16 R388). -/
def getBytes (id : Nat) (s : State) : List Byte :=
  if 0x0401 ≤ id ∧ id ≤ 0x0405 then liveReading id s
  else
    match prmOf id with
     | none => []
     | some p =>
       if p.wr = .wo then List.replicate p.len 0
       else if id = 0x0102 then (List.range 8).map Config.deviceUid
       else if id = 0x0105 then leBytes 2 s.start.patchVer
       else if id = 0x0106 then leBytes 1 (bit Config.variantQX)
       else if 0x0210 ≤ id ∧ id ≤ 0x0213 then profInfo s (id - 0x0210)
       else if 0x0220 ≤ id ∧ id ≤ 0x023F then profData s (id - 0x0220)
       else if 0x0640 ≤ id ∧ id ≤ 0x066F then binBytes 0x80000000 (vget s.alm.load (id - 0x0640) none)
       else if 0x0670 ≤ id ∧ id ≤ 0x069F then binBytes 0xFFFFFFFF (vget s.alm.harv (id - 0x0670) none)
       else if 0x0E80 ≤ id ∧ id ≤ 0x0EAA then calBytes (calOf s (id - 0x0E80))
       else if (0x0A03 ≤ id ∧ id ≤ 0x0A06) ∨ id = 0x0B22 ∨ id = 0x0B23 ∨ id / 256 = 0x0D then roBytes s id
       else
         match cfgValue s id with
         | some v => leBytes p.len v
         | none => s.par.latest id

end Sys2Proof.Machine
end

