-- ==== Sys2Proof/Machine/OpCheck.lean ====
section
/-! DEFINITION. The checks of a packet, steps 5 to 14 of R54: opcodes, stages, lock levels, lengths, arguments, ranges,
the contention window and occupied resources (03_sprue_commands.md R54 to R74, R409, R410). -/

namespace Sys2Proof.Machine

/-! ## Opcodes (R58) -/

/-- The code of an opcode (R58). -/
def opCode : Op → Nat
  | .ping => 0x00 | .ident => 0x01 | .stage => 0x02 | .reset => 0x03 | .sleep => 0x04 | .wake => 0x05 | .caps => 0x06
  | .poll => 0x07 | .cancel => 0x08
  | .get => 0x10 | .set => 0x11 | .setBulk => 0x12 | .commit => 0x13 | .revert => 0x14 | .peek => 0x18 | .poke => 0x19
  | .accRead => 0x20 | .trkRead => 0x21 | .accClear => 0x22 | .seqLoad => 0x23 | .seqStart => 0x24 | .flare => 0x25
  | .calZero => 0x26 | .calSpan => 0x27 | .calStore => 0x28
  | .gaugeRead => 0x30 | .cellRead => 0x31 | .modelLoad => 0x32 | .glintRead => 0x33
  | .almRead => 0x40 | .seaState => 0x41 | .schedLoad => 0x42 | .shedSet => 0x43 | .annealRead => 0x44
  | .sbCapture => 0x50 | .cmpSet => 0x51 | .cdnSet => 0x52 | .capqRead => 0x53 | .rtcSet => 0x54
  | .dgOpen => 0x60 | .dgFeed => 0x61 | .dgDesc => 0x62 | .dgFinish => 0x63 | .dgExport => 0x64 | .dgImport => 0x65
  | .authChal => 0x68 | .unlockChal => 0x69 | .unlock => 0x6A | .seal => 0x6B | .keyLoad => 0x6C
  | .cstRead => 0x70 | .cstConfig => 0x71 | .linkStats => 0x72 | .cstLeave => 0x73 | .logRead => 0xE0 | .logMark => 0xE1

/-- Every opcode, in the order of the table of R58. -/
def allOps : List Op :=
  ([.ping, .ident, .stage, .reset, .sleep, .wake, .caps, .poll, .cancel] : List Op)
    ++ ([.get, .set, .setBulk, .commit, .revert, .peek, .poke] : List Op)
    ++ ([.accRead, .trkRead, .accClear, .seqLoad, .seqStart, .flare, .calZero, .calSpan, .calStore] : List Op)
    ++ ([.gaugeRead, .cellRead, .modelLoad, .glintRead, .almRead, .seaState, .schedLoad, .shedSet, .annealRead] : List Op)
    ++ ([.sbCapture, .cmpSet, .cdnSet, .capqRead, .rtcSet] : List Op)
    ++ ([.dgOpen, .dgFeed, .dgDesc, .dgFinish, .dgExport, .dgImport, .authChal, .unlockChal, .unlock, .seal, .keyLoad] : List Op)
    ++ ([.cstRead, .cstConfig, .linkStats, .cstLeave, .logRead, .logMark] : List Op)

/-- The opcode of a code, none for an undefined one (step 5). -/
def opOf (code : Nat) : Option Op := allOps.find? fun o => opCode o == code

/-- ARG of an operation as a number. -/
def Oper.argN (o : Oper) : Nat := o.arg.toNat

/-! ## Stage (step 6, 04 R91) -/

/-- The stage from which an opcode answers (R91). -/
def firstStage (o : Oper) : Stage :=
  match o.op with
  | .ping => .melt
  | .ident => .melt
  | .stage => .melt
  | .wake => .melt
  | .caps => .melt
  | .poll => .melt
  | .cancel => .melt
  | .get => if o.argN / 256 = 1 ∨ (0x0401 ≤ o.argN ∧ o.argN ≤ 0x0405) then .melt else .pour
  | .almRead => .cast
  | .annealRead => .cast
  | .authChal => .cast
  | .unlockChal => .cast
  | .unlock => .cast
  | _ => .pour

/-! ## Lock level (step 9) -/

/-- The level a packet is judged at: SEALED before Pour and over the link (04 R91, 12 R302), every level for the internal
logic, else the level in force. -/
def opLevel (s : State) (origin : Origin) : Nat :=
  match originPort origin with
  | .internal => 2
  | .link => 0
  | _ => if atLeast s .pour then s.sec.lock.code else 0

/-- An opcode of lock class U (R58). -/
def lockU (o : Op) : Bool :=
  [Op.reset, .peek, .poke, .calZero, .calSpan, .calStore, .modelLoad, .keyLoad, .cstConfig].contains o

/-- The level a write of a parameter needs; 3 for a read-only one, which no level writes (16 R388, R389; 13 R340). -/
def writeLevel (s : State) (p : Prm) : Nat :=
  if 0x0A10 ≤ p.id ∧ p.id ≤ 0x0A1F then (if (keyAt s (p.id - 0x0A10)).state = .empty then 1 else 2)
  else if p.id = 0x0B20 then 0
  else
    match p.wr with
    | .s => 0
    | .u => 1
    | .o => 2
    | .ro => 3
    | .wo => 1

/-- A level permits a write of an ID; an undefined ID passes (R409). -/
def maySet (s : State) (level id : Nat) : Bool :=
  match prmOf id with
  | some p => decide (writeLevel s p ≤ level)
  | none => true

/-- The items of a SET_BULK as far as the list is well formed, with what is left of the payload (R409). -/
def bulkWalk : Nat → List Byte → List (Nat × List Byte) × List Byte
  | 0, l => ([], l)
  | k + 1, l =>
    let n := byteAt l 2
    if l.length < 3 ∨ l.length < 3 + n then ([], l)
    else
      let r := bulkWalk k (l.drop (3 + n))
      ((leAt l 0 2, (l.drop 3).take n) :: r.1, r.2)

/-- The items of a SET or SET_BULK. -/
def setItems (o : Oper) : List (Nat × List Byte) :=
  if o.op = .setBulk then (bulkWalk 84 o.payload).1 else [(o.argN, o.payload)]

/-- The first address of a PEEK or POKE. -/
def spanAddr (o : Oper) : Nat := leAt o.payload 0 4

/-- The words step 9 judges of a PEEK or POKE (R410). -/
def spanCount (o : Oper) : Nat :=
  if 1 ≤ o.argN ∧ o.argN ≤ 62 then o.argN
  else if o.op = .poke then max 1 ((o.payload.length - 4) / 4) else 1

/-- The level a word of a PEEK or POKE needs: none outside the blocks and inside CRUC (16 R376, R410). -/
def wordLevel (poke : Bool) (addr : Nat) : Nat :=
  match blockOf addr with
  | none => 0
  | some b => if b = 0xC then 0 else if poke && pokeOpen b (addr % 0x10000) then 2 else 1

/-- Step 9 (R58, R409, R410; 13 R333). -/
def levelOk (s : State) (o : Oper) : Bool :=
  let level := opLevel s o.origin
  (!lockU o.op || decide (1 ≤ level)) &&
  match o.op with
  | .set => maySet s level o.argN
  | .setBulk => (setItems o).all fun it => maySet s level it.1
  | .peek => (List.range (spanCount o)).all fun i => decide (wordLevel false (spanAddr o / 4 * 4 + 4 * i) ≤ level)
  | .poke => (List.range (spanCount o)).all fun i => decide (wordLevel true (spanAddr o / 4 * 4 + 4 * i) ≤ level)
  | .unlockChal => (lockPortOf o.origin).isSome
  | .unlock => (lockPortOf o.origin).isSome
  | _ => true

/-! ## Quench and lockout (steps 7, 8) -/

/-- A slot of 0 to 15 is emptied by a Quench. -/
def quenchedSlot (s : State) (slot : Nat) : Bool := decide (slot < 16) && slotQuenched s slot

/-- Step 7: the key the operation names is not loaded because of a Quench (R75, 13 R329). -/
def quenchHit (s : State) (o : Oper) : Bool :=
  match o.op with
  | .dgOpen => (match o.payload[1]? with | some k => decide (byteAt o.payload 0 ≠ 0) && quenchedSlot s k.toNat | none => false)
  | .authChal => quenchedSlot s o.argN
  | .unlock => (match unlockSlot s o.argN with | some k => quenchedSlot s k | none => false)
  | _ => false

/-- Step 8: the lockout in force of the operation's port, with the seconds left (13 R337). -/
def lockoutHit (s : State) (o : Oper) : Option (List Byte) :=
  if o.op = .unlockChal ∨ o.op = .unlock then
    match lockPortOf o.origin with
    | some p => if (plOf p s).until_.isSome then some (leBytes 4 (lockoutSeconds s (plOf p s))) else none
    | none => none
  else none

/-! ## Length (step 10) -/

/-- The reply payload an accepted request can produce (12 R302); a SCHED_LOAD can be refused with the table in its
reply. -/
def replyMax (s : State) (o : Oper) : Nat :=
  match o.op with
  | .ping => o.payload.length
  | .get => (match prmOf o.argN with | some p => p.len | none => 0)
  | .schedLoad => 7 * s.alm.duties.length
  | .dgExport => 216
  | .logRead => 56 * (byteAt o.payload 0 % 8)
  | _ => 0

/-- Step 10 for the payload itself (R58, R409, R410). -/
def lengthFits (o : Oper) : Bool :=
  let n := o.payload.length
  match o.op with
  | .ping => true
  | .set => (match prmOf o.argN with | some p => n == p.len | none => true)
  | .setBulk =>
    let r := bulkWalk 84 o.payload
    r.2.isEmpty && r.1.length == o.argN
      && r.1.all fun it => match prmOf it.1 with | some p => it.2.length == p.len | none => true
  | .peek => n == 4
  | .poke => n == 4 + 4 * o.argN
  | .accClear => n == 8
  | .seqLoad => decide (1 ≤ n ∧ n ≤ 160) && n % 10 == 0
  | .seqStart => n == 4
  | .flare => n == 5
  | .calSpan => n == 4
  | .modelLoad => n == 130
  | .schedLoad => n == 7 * o.argN
  | .cmpSet => n == 5
  | .cdnSet => n == 8
  | .rtcSet => n == 4
  | .dgOpen => n == 2
  | .dgFeed => true
  | .dgDesc => n == 5
  | .dgImport => n == 216
  | .authChal => n == 32
  | .unlock => n == 32
  | .keyLoad => n == 40
  | .cstConfig => true
  | .logRead => n == 1
  | .logMark => decide (1 ≤ n ∧ n ≤ 32)
  | _ => n == 0

/-- Step 10: the payload fits, and over the link the reply fits its frame of 124 bytes (12 R302). -/
def lengthOk (s : State) (o : Oper) : Bool :=
  lengthFits o && (o.origin != .link || decide (8 + replyMax s o ≤ 124))

/-! ## Arguments (step 11) -/

/-- From a port, an index below ACC_PORT_FIRST is the firmware's (07 R152). -/
def accMine (s : State) (o : Oper) (i : Nat) : Bool := o.origin == .internal || decide (prm s 0x0442 ≤ i)

/-- The indices of a set mask bit belong to the requester. -/
def maskMine (s : State) (o : Oper) (m : Nat) : Bool :=
  (List.range 32).all fun i => decide (m / 2 ^ i % 2 = 0) || accMine s o i

/-- The bytes of each entry of a sequence or duty table. -/
def entriesOf (size : Nat) (o : Oper) : List (List Byte) := chunks size (o.payload.length / size) o.payload

/-- A context a port may name: not the firmware's (13 R316). -/
def ctxNameOk (o : Oper) (n : Nat) : Bool := decide (n ≤ 5) && (o.origin == .internal || n != 4)

/-- A key slot serves a usage bit: loaded and of that usage (13 R329, R330). -/
def slotServes (s : State) (slot use : Nat) : Bool := decide (slot < 16) && slotReady s slot && useHas s slot use

/-- The context named by an operation. -/
def ctxOf (s : State) (o : Oper) : Ctx := ctxAt s (o.argN % 256)

/-- Where the fragments and the list of a DG_DESC may lie: 1 the staging window, 2 the ROM, 0 neither (13 R321). -/
def inRegion (addr n : Nat) : Bool :=
  (decide (0x400B1000 ≤ addr) && decide (addr + n ≤ 0x400B2000)) || decide (addr + n ≤ 0x40000)

/-- The byte at an address of the two regions. -/
def regionByte (s : State) (addr : Nat) : Byte :=
  if 0x400B1000 ≤ addr then sparseGet 0 s.sec.staging (addr - 0x400B1000) else Config.romByte addr

/-- Bytes from an address of the two regions. -/
def regionBytes (s : State) (addr n : Nat) : List Byte := (List.range n).map fun i => regionByte s (addr + i)

/-- The fragments of a descriptor list: address and length. -/
def fragments (s : State) (addr n : Nat) : List (Nat × Nat) :=
  (List.range n).map fun i =>
    let d := regionBytes s (addr + 8 * i) 8
    (leAt d 0 4, leAt d 4 2)

/-- The reserved bytes of every descriptor are 0. -/
def descZeros (s : State) (addr n : Nat) : Bool :=
  (List.range n).all fun i => regionBytes s (addr + 8 * i + 6) 2 == [0, 0]

/-- The whole check of a descriptor list (13 R321). -/
def descOk (s : State) (o : Oper) : Bool :=
  let addr := leAt o.payload 0 4
  let n := byteAt o.payload 4
  decide (1 ≤ n ∧ n ≤ 64) && decide (addr % 8 = 0) && inRegion addr (8 * n) && descZeros s addr n
    && (fragments s addr n).all fun f => decide (1 ≤ f.2) && inRegion f.1 f.2

/-- The duties a SCHED_LOAD carries; none where a field is out of range (10 R229). -/
def dutiesOf (o : Oper) : Option (List Duty) := (entriesOf 7 o).mapM dutyOf

/-- Every offset of a POKE is defined, the span is aligned and stays inside one block that is not CRUC (16 R377). -/
def spanOk (o : Oper) : Bool :=
  let a := spanAddr o
  decide (1 ≤ o.argN ∧ o.argN ≤ 62) && decide (a % 4 = 0) &&
  match blockOf a with
  | none => false
  | some b =>
    b != 0xC && blockOf (a + 4 * (o.argN - 1)) == some b &&
      (o.op != .poke || (List.range o.argN).all fun i => regDefined b (a % 0x10000 + 4 * i))

/-- Step 11 (R58, R409, R410 and the rules of each opcode). -/
def argOk (s : State) (o : Oper) : Bool :=
  let a := o.argN
  match o.op with
  | .ping => true
  | .ident => a == 0
  | .stage => a == 0
  | .reset => a == 1 || a == 2
  | .sleep => decide (a ≤ 2)
  | .wake => true
  | .caps => a == 0
  | .poll => decide (a < 256)
  | .cancel => decide (a < 256)
  | .get => (prmOf a).isSome
  | .set => (prmOf a).isSome
  | .setBulk => decide (1 ≤ a ∧ a ≤ 63) && (setItems o).all fun it => (prmOf it.1).isSome
  | .commit => a == 0
  | .revert => a == 0 || (prmOf a).isSome
  | .peek => spanOk o
  | .poke => spanOk o
  | .accRead => decide (a % 0x8000 ≤ 31) && (decide (a < 0x8000) || accMine s o (a % 0x8000))
  | .trkRead => decide (a % 0x8000 ≤ 31) && (decide (a < 0x8000) || accMine s o (a % 0x8000))
  | .accClear => a == 0 && maskMine s o (leAt o.payload 0 4) && maskMine s o (leAt o.payload 4 4)
  | .seqLoad =>
    decide (a ≤ 1) && (entriesOf 10 o).all fun b =>
      let e := seqOfBytes b
      e.chan != 0x30 && e.chan != 0x31 && (e.acc == 0xFF || accMine s o e.acc) && (e.trk == 0xFF || accMine s o e.trk)
  | .seqStart => a == 0 || a == 1 || a == 0x8000 || a == 0x8001
  | .flare =>
    let acc := byteAt o.payload 3
    let trk := byteAt o.payload 4
    chanOk a && (acc == 0xFF || (decide (acc ≤ 31) && accMine s o acc)) && (trk == 0xFF || (decide (trk ≤ 31) && accMine s o trk))
  | .calZero => (pairOfCode a).isSome
  | .calSpan => (pairOfCode a).isSome
  | .calStore => a == 0
  | .gaugeRead => decide (a ≤ 2)
  | .cellRead => decide (a < prm s 0x0201)
  | .modelLoad => decide (a ≤ 3)
  | .glintRead => decide (a ≤ 1)
  | .almRead => decide (a ≤ 1)
  | .seaState => true
  | .schedLoad => decide (a ≤ 32)
  | .shedSet => true
  | .annealRead => decide (a ≤ 1)
  | .sbCapture => a == 0
  | .cmpSet => decide (a ≤ 7) && (o.origin == .internal || decide (a ≤ 3))
  | .cdnSet => decide (a ≤ 3) && (o.origin == .internal || decide (a ≤ 2))
  | .capqRead => decide (a ≤ 3)
  | .rtcSet => a == 0
  | .dgOpen =>
    let f := byteAt o.payload 0
    let k := byteAt o.payload 1
    ctxNameOk o a && (f == 0 || k == 0xFF
      || (slotServes s k 8 && (decide (4 < f) || keyUse s k % 16 == f)))
  | .dgFeed => ctxNameOk o a && (ctxOf s o).state != .closed
  | .dgDesc => ctxNameOk o a && (ctxOf s o).state != .closed && descOk s o
  | .dgFinish =>
    ctxNameOk o (a % 0x8000) && decide (a % 0x8000 < 256)
      && (if 0x8000 ≤ a then (ctxOf s o).held.isSome else (ctxOf s o).state != .closed)
  | .dgExport => ctxNameOk o a && (ctxOf s o).state != .closed
  | .dgImport => ctxNameOk o a
  | .authChal => slotServes s a 9
  | .unlockChal => true
  | .unlock =>
    !(a == 1 || a == 2) || (match unlockSlot s a with | some k => slotReady s k | none => false)
  | .seal => a == 0
  | .keyLoad => decide (a ≤ 15)
  | .cstRead => decide (a ≤ 16)
  | .cstConfig => a == 0
  | .linkStats => decide (a ≤ 1)
  | .cstLeave => a == 0
  | .logRead => byteAt o.payload 0 < 128 || decide (a ≤ 15)
  | .logMark => a == 0

/-! ## Ranges (step 12) -/

/-- The IDs whose pending values a REVERT discards (R58). -/
def revertIds (s : State) (o : Oper) : List Nat := if o.argN = 0 then s.par.pending.map (·.id) else [o.argN]

/-- A REVERT leaves a combination of field-port settings that is allowed (11 R270). -/
def revertOk (s : State) (o : Oper) : Bool :=
  let ids := revertIds s o
  fieldComboOk (fun id => if ids.contains id then leNat (s.par.committedOf id) else prmLatest s id) ids.contains

/-- Step 12 (R13 and the rules of each opcode). -/
def rangeOk (s : State) (o : Oper) : Bool :=
  let a := o.argN
  match o.op with
  | .set => itemsInRange s (setItems o)
  | .setBulk => itemsInRange s (setItems o)
  | .revert => revertOk s o
  | .poke =>
    (match blockOf (spanAddr o) with
    | some b => (List.range a).all fun i => pokeInRange s b (spanAddr o % 0x10000 + 4 * i) (wordAt (o.payload.drop 4) i)
    | none => false)
  | .seqLoad =>
    let es := entriesOf 10 o
    (es.all fun b => seqFieldsOk (seqOfBytes b) (byteAt b 9)) && twinsOk (es.map seqOfBytes)
      && (a == 1 || decide (es.length + s.sar.routFw.length ≤ 16))
  | .flare =>
    let g := byteAt o.payload 2
    decide (4 ≤ leAt o.payload 0 2 ∧ leAt o.payload 0 2 ≤ 1024) && decide (g ≤ 3) && (g == 0 || isShunt a)
  | .modelLoad => decide (byteAt o.payload 0 ≤ 7) && decide (byteAt o.payload 1 ≤ 1)
  | .seaState => decide (a ≤ 7)
  | .schedLoad => (dutiesOf o).isSome
  | .shedSet => decide (a ≤ 3)
  | .cmpSet => cmpModeOk a (byteAt o.payload 4)
  | .cdnSet => cdnSetOk a (leAt o.payload 4 2) (byteAt o.payload 7)
  | .dgOpen => decide (byteAt o.payload 0 ≤ 4)
  | .authChal => decide (s.sec.useCtr < 0xFFFFFFFF)
  | .unlockChal => a == 1 || a == 2
  | .unlock => a == 1 || a == 2
  | .logRead => decide (1 ≤ byteAt o.payload 0 % 8 ∧ byteAt o.payload 0 % 8 ≤ 4 ∧ bitsOf (byteAt o.payload 0) 6 3 = 0)
  | _ => true

/-! ## Contention window (step 13, R71 to R74) -/

/-- The targets an operation writes (R73). -/
def targetsOf (s : State) (o : Oper) : List Target :=
  match o.op with
  | .set => [.param o.argN]
  | .setBulk => (setItems o).map fun it => .param it.1
  | .revert => ((revertIds s o).foldr insAsc []).map .param
  | .poke => (List.range o.argN).map fun i => .word (spanAddr o + 4 * i)
  | .seaState => [.sea]
  | .shedSet => [.shed]
  | .schedLoad => [.duty]
  | .rtcSet => [.rtc]
  | .sleep => [.power]
  | .wake => [.power]
  | _ => []

/-- A window of another port covers the operation's timestamp (R71). Its length is CONTEND_WIN as it stands when the later
write is judged: the manual does not say whether a change of CONTEND_WIN moves the end of a window already open (DESIGN
CHOICE, assumption log 140). -/
def windowHit (s : State) (o : Oper) (t : Target) : Bool :=
  s.sprue.windows.any fun w =>
    w.target == t && w.port != originPort o.origin && decide (o.stamp < w.stamp + msTicks (prm s 0x0805))

/-- The first target in conflict; FORCE and internal operations meet none (R72). -/
def conflictAt (s : State) (o : Oper) : Option Target :=
  if o.origin = .internal ∨ flgForce o.flg then none else (targetsOf s o).find? (windowHit s o)

/-- The value in force of a parameter with its ID and length (R74). -/
def itemBytes (s : State) (id : Nat) : List Byte :=
  leBytes 2 id ++ leBytes 1 (getBytes id s).length ++ getBytes id s

/-- The current value of a word, read without side effect. -/
def wordNow (s : State) (addr : Nat) : List Byte :=
  match blockOf addr with
  | some b => leBytes 4 (regRead s b (addr % 0x10000))
  | none => leBytes 4 0

/-- The payload of a CONFLICT reply (R71, R73, R74). -/
def conflictBytes (s : State) (o : Oper) (t : Target) : List Byte :=
  match t with
  | .param id => if o.op = .setBulk ∨ (o.op = .revert ∧ o.argN = 0) then itemBytes s id else getBytes id s
  | .word a => if o.argN = 1 then wordNow s a else leBytes 4 a ++ wordNow s a
  | .sea => leBytes 1 s.alm.sea
  | .shed => leBytes 1 s.pol.floor
  | .duty => dutyBytes s.alm.duties
  | .rtc => leBytes 4 s.tmr.rtcSec
  | .power => leBytes 1 s.sprue.lastPwr.1 ++ leBytes 2 s.sprue.lastPwr.2

/-- The windows an executing write opens (R71, R72). -/
def openWindows (s : State) (o : Oper) : List Window :=
  (targetsOf s o).map fun t => ⟨t, originPort o.origin, o.stamp⟩

/-- A window that no timestamp from now on can meet is forgotten. -/
def pruneWindows (s : State) : State :=
  let keep (w : Window) : Bool := decide (now s < w.stamp + msTicks 1000) || (ops s).any fun o => o.final.isNone
  { s with sprue := { s.sprue with windows := s.sprue.windows.filter keep } }

/-! ## Occupied resources (step 14, R59, R73) -/

/-- A port owns the context it names, or nobody does (13 R317); the link holds context 5 while LINK_EN is 1 (12 R290). -/
def ownsCtx (s : State) (o : Oper) : Bool :=
  !(o.argN == 5 && o.origin != .internal && linkEn s)
    && ((ctxOf s o).state == .closed || sameOwner (ctxOf s o) o.origin)

/-- A running DG_DESC or DMA transfer occupies a context (13 R319). -/
def ctxBusy (s : State) (o : Oper) : Bool :=
  dmaRuns s (ctxOf s o)
    || (ops s).any fun x => x.id != o.id && x.op == .dgDesc && x.argN % 256 == o.argN % 256 && x.final.isNone && !x.waiting

/-- A calibration is running (07 R170). -/
def calBusy (s : State) (o : Oper) : Bool :=
  (ops s).any fun x => x.id != o.id && (x.op == .calZero || x.op == .calSpan) && x.final.isNone && !x.waiting

/-- Step 14: the resource is free. -/
def resourceFree (s : State) (o : Oper) : Bool :=
  let a := o.argN
  let items := setItems o
  let stored := items.filter fun it => match prmOf it.1 with | some p => p.wr != .wo | none => false
  match o.op with
  | .sleep => !(ops s).any fun x => x.id != o.id
  | .set => s.par.hasRoom (stored.map Prod.fst) && !(o.argN == 0x0625 && queueFull s)
  | .setBulk => s.par.hasRoom (stored.map Prod.fst)
  | .commit => !((s.par.pending.any fun e => e.mark.isNone) && queueFull s)
  | .seqLoad => a == 0 || o.origin == .internal || !(prm s 0x0520 == 1 || s.sar.glintHold || s.sar.burstOn)
  | .seqStart => a == 0 || a == 0x8000 || o.origin == .internal || !(prm s 0x0520 == 1 || s.sar.glintHold || (a == 1 && s.sar.burstOn))
  | .flare => decide (s.sar.flares.length < 4)
  | .calZero => !calBusy s o
  | .calSpan => !calBusy s o
  | .calStore => !calBusy s o && !queueFull s
  | .modelLoad => byteAt o.payload 1 == 0 || !queueFull s
  | .dgOpen => ownsCtx s o && !ctxBusy s o
  | .dgFeed => ownsCtx s o && !ctxBusy s o
  | .dgDesc => ownsCtx s o && !ctxBusy s o
  | .dgFinish => ownsCtx s o && (decide (0x8000 ≤ a) || !ctxBusy s o)
  | .dgExport => ownsCtx s o && !ctxBusy s o
  | .dgImport => ownsCtx s o && !ctxBusy s o
  | .keyLoad => !queueFull s
  | .cstConfig => !queueFull s
  | .logMark => true
  | _ => true

/-! ## Remote authority (R60, 12 R301) -/

/-- The part is a Star other than the Pole of a constellation: a listed member with a key, for without one it is no member,
or a Dim Star, which follows the Pole's time (R60; 12 R304, R309, R313; assumption
log 141). -/
def remoteStar (s : State) : Bool :=
  linkEn s && prm s 0x0907 == 1 && !noKey s && (s.link.role == .member || s.link.role == .dim)

/-- A SET of an ID that the adopted block covers (12 R301). -/
def coveredSet (s : State) (o : Oper) : Bool :=
  (o.op == .set || o.op == .setBulk) && (setItems o).any fun it => (cfgValue s it.1).isSome

/-- An operation another Star is authoritative for (R60, 12 R301). -/
def remoteHit (s : State) (o : Oper) : Bool := (o.op == .rtcSet && remoteStar s) || coveredSet s o

/-! ## All checks -/

/-- Steps 6 to 14 for a started operation: the first failed check with the reply payload, or none (R54). A request
another Star is authoritative for is refused with REMOTE after the ranges. -/
def opRefusal (s : State) (o : Oper) : Option (Byte × List Byte) :=
  if !atLeast s (firstStage o) then some (stStage, [])
  else if quenchHit s o then some (stQuenched, [])
  else
    match lockoutHit s o with
    | some b => some (stLockout, b)
    | none =>
      if !levelOk s o then some (stLocked, [])
      else if !lengthOk s o then some (stBadLen, [])
      else if !argOk s o then some (stBadArg, [])
      else if !rangeOk s o then some (stRange, [])
      else if remoteHit s o then some (stRemote, leBytes 4 s.link.poleSer)
      else
        match conflictAt s o with
        | some t => some (stConflict, conflictBytes s o t)
        | none => if !resourceFree s o then some (stBusy, []) else none

end Sys2Proof.Machine
end

