-- ==== Sys2Proof/Machine/RunSystem.lean ====
section
/-! DEFINITION. What the operations of the system and the parameters do once they start (03_sprue_commands.md R58 to
R69, 14_tamper_quench.md R357, 15_ingot_store.md R365, 16_register_parameter_map.md R376 to R392). -/

namespace Sys2Proof.Machine

/-- How a started operation answers: with its final status and reply payload, with ACCEPTED (DEFER under BOW), or not
yet. -/
inductive RunAns where
  | done (status : Byte) (payload : List Byte)
  | accepted
  | wait
  deriving DecidableEq, Repr

/-- OK with a payload. -/
def okWith (b : List Byte) : RunAns := .done stOk b

/-! ## System (R58, R59, R66 to R69) -/

/-- IDENT (R58). -/
def identBytes (s : State) : List Byte :=
  ascii "MG16" ++ ascii "B" ++ [(3 : Byte), 1] ++ leBytes 2 s.start.patchVer ++ leBytes 4 (serialOf s) ++ [(1 : Byte)]
    ++ leBytes 1 (bit Config.variantQX)

/-- The tally-valid byte: CQA, CQB and the life number (04 R82). -/
def tallyValid (s : State) : Nat := bit s.cqa.modRun + 2 * bit s.cqb.modRun + 4 * bit s.start.life

/-- The reset reason byte: the reason with the start fault in its high half (04 R82). -/
def reasonByte (s : State) : Nat := s.start.reason + 16 * s.start.fault

/-- STAGE (R58, 04 R82). -/
def stageBytes (s : State) : List Byte :=
  leBytes 1 s.start.stage.code ++ leBytes 1 (tallyValid s) ++ leBytes 1 (reasonByte s) ++ leBytes 1 (bit s.start.estConf)

/-- CAPS (R58): the bitmap of the defined opcodes, 8 slots, the maximum LEN of 260, protocol version 1. -/
def capsBytes : List Byte :=
  ((List.range 32).map fun i => BitVec.ofNat 8
      (((List.range 8).map fun k => if (opOf (8 * i + k)).isSome then 2 ^ k else 0).sum))
    ++ [(8 : Byte), 4, 1, 0]

/-- An action waits for the reply of its operation; it follows at once where none is sent or where no port holds the
reply back (R59). -/
def defer (a : DefAct) (o : Oper) (s : State) : State :=
  let fetched := o.origin == .hostNative || o.origin == .sdi || o.origin == .link || o.origin == .fieldNative
  let d : Deferred := ⟨a, o.id, o.origin, now s, none, flgNoReply o.flg || !fetched⟩
  { s with pwr := { s.pwr with deferred := s.pwr.deferred ++ [d] } }

def runReset (o : Oper) (s : State) : RunAns × State :=
  (okWith [], setPonr o.id (defer (if o.argN = 1 then .resetCore else .resetFull) o s))

/-- The mode SLEEP names. -/
def sleepMode (a : Nat) : Mode := if a = 0 then .watch else if a = 1 then .watchL else .doze

def runSleep (o : Oper) (s : State) : RunAns × State :=
  let s1 := { s with
    pwr := { s.pwr with hold := .none }
    sprue := { s.sprue with lastPwr := (0x04, o.argN) } }
  (okWith [], defer (.sleep (sleepMode o.argN)) o s1)

/-- WAKE holds Run for ARG seconds, or until SLEEP; it ends no hold early (R59), and it cancels no decided entry of its
own. -/
def runWake (o : Oper) (s : State) : RunAns × State :=
  let h := if o.argN = 0 then .untilSleep else extendHold (now s + secTicks o.argN) s.pwr.hold
  (okWith [], { s with
    pwr := { s.pwr with hold := h }
    sprue := { s.sprue with lastPwr := (0x05, o.argN) } })

/-- The stored results of a port. -/
def resultsOf (s : State) : Port → List Result
  | .host => s.sprue.resHost
  | .field => s.sprue.resField
  | .link => s.sprue.resLink
  | .internal => []

/-- Replace the stored results of a port. -/
def setResults (p : Port) (l : List Result) (s : State) : State :=
  match p with
  | .host => { s with sprue := { s.sprue with resHost := l } }
  | .field => { s with sprue := { s.sprue with resField := l } }
  | .link => { s with sprue := { s.sprue with resLink := l } }
  | .internal => s

/-- The operation of this port with a TAG, other than the one that asks. -/
def opTagged (s : State) (o : Oper) (tag : Byte) : Option Oper :=
  (ops s).find? fun x => x.id != o.id && originPort x.origin == originPort o.origin && x.tag == tag

/-- A POLL that fetches the OK of a rearm carries the reply its core reset waits for (14 R357; a SET or SET_BULK is
accepted only for a rearm). -/
def rearmFetched (opc : Byte) (o : Oper) (s : State) : State :=
  if opc = 0x11 ∨ opc = 0x12 then
    { s with pwr := { s.pwr with deferred := s.pwr.deferred.map fun d =>
        if d.act = .rearmReset then { d with opId := o.id, origin := o.origin } else d } }
  else s

def runPoll (o : Oper) (s : State) : RunAns × State :=
  let tag : Byte := BitVec.ofNat 8 o.argN
  let p := originPort o.origin
  if (opTagged s o tag).isSome then (.done stBusy [], s)
  else
    match (resultsOf s p).find? fun r => r.tag == tag with
    | some r =>
      let t := setResults p ((resultsOf s p).filter fun x => x.tag != tag) s
      (.done r.status ([r.opc, r.tag] ++ r.payload), if r.status = stOk then rearmFetched r.opc o t else t)
    | none => (.done stBadArg [], s)

/-- What a cancelled operation leaves behind it: its queued transaction, its Flare, its calibration, its place in an
unlock round and its rearm are dropped, and its marks in the pending table are removed (R69, 15 R365). -/
def dropOp (x : Oper) (s : State) : State :=
  let keep (t : Txn) : Bool := t.opId != some x.id
  let cal := x.op == .calZero || x.op == .calSpan
  let pl (l : PortLock) : PortLock := { l with round := l.round.filter fun i => i != x.id }
  { s with
    nv := { s.nv with queue := s.nv.queue.filter keep, held := s.nv.held.filter keep }
    par := unmark x.id s.par
    sar := { s.sar with flares := s.sar.flares.filter fun f => f.opId != x.id, calRun := s.sar.calRun && !cal }
    sec := { s.sec with host := pl s.sec.host, field := pl s.sec.field }
    tamp := { s.tamp with rearming := s.tamp.rearming.filter fun r => r.2.2 != x.id } }

/-- The first `k` descriptors of its list are fed to a context, in order (13 R321; R69). -/
def feedDesc (k n : Nat) (s : State) : State :=
  let c := ctxAt s n
  setCtx n ((c.desc.take k).foldl (fun c f => ctxFeed s (regionBytes s f.1 f.2) c) { c with desc := [] }) s

/-- A cancelled DG_DESC leaves its context as after the last fragment it completed, whose number is free (R69; assumption
log 2). -/
def stopDesc (x : Oper) (s : State) : State :=
  if x.op = .dgDesc then
    let r := drawNat s
    feedDesc (r.1 % ((ctxAt s (x.argN % 256)).desc.length + 1)) (x.argN % 256) r.2
  else s

def runCancel (o : Oper) (s : State) : RunAns × State :=
  let tag : Byte := BitVec.ofNat 8 o.argN
  match opTagged s o tag with
  | some x =>
    match x.final with
    | some f => (.done stAlready [f.1], s)
    | none =>
      if x.waiting then (okWith [], setFinal x.id stSuperseded [] s)
      else if x.ponr then (.done stBusy [], s)
      else (okWith [], setFinal x.id stSuperseded [] (stopDesc x (dropOp x s)))
  | none =>
    match (resultsOf s (originPort o.origin)).find? fun r => r.tag == tag with
    | some r => (.done stAlready [r.status], s)
    | none => (.done stBadArg [], s)

/-! ## Reading parameters (16 R388) -/

def runGet (o : Oper) (s : State) : RunAns × State :=
  (okWith (getBytes o.argN s), s)

/-! ## Writing parameters -/

/-- LINK_EN at 0 leaves the constellation (12 R304, R307); at 1 the link takes context 5 (13 R316). -/
def linkEnable (s : State) : State :=
  if linkEn s then (if (ctxAt s 5).owner.isSome then setCtx 5 Ctx.closed s else s)
  else if isMember s then leaveLink s
  else { s with link := { s.link with role := .silent, txq := [] } }

/-- WAKE_MA takes effect at once: the last outputs are judged against it (05 R115, R119). -/
def loadJudged (s : State) : State :=
  let l (b : Bank) : Bool := !lowPower s && (cqOf b s).outValid && loaded b s (cqOf b s).lastOut
  { s with pwr := { s.pwr with loadA := l .a, loadB := l .b } }

/-- What a new or a reverted value does beyond being stored: registers and tables of its own that take it at once. -/
def afterChange (id : Nat) (s : State) : State :=
  let v := s.par.latest id
  let n := leNat v
  if id = 0x0420 then { s with cqa := { s.cqa with win := n } }
  else if id = 0x0421 then { s with cqa := { s.cqa with order := n - 1 } }
  else if id = 0x0422 then { s with cqb := { s.cqb with win := n } }
  else if id = 0x0423 then { s with cqb := { s.cqb with order := n - 1 } }
  else if id = 0x0520 then armLead (if s.sar.burstPos.isNone then glintApply s else s)
  else if id = 0x0734 then loadJudged s
  else if id = 0x0901 then linkEnable s
  else if id = 0x0C05 then
    let keep (i : Nat) (t : Tout) : Tout := { t with acted := t.acted && decide (n / 2 ^ i % 2 = 1) }
    { s with tmr := { s.tmr with tout0 := keep 0 s.tmr.tout0, tout1 := keep 1 s.tmr.tout1 } }
  else if 0x0E80 ≤ id ∧ id ≤ 0x0EAA then
    { s with sar := { s.sar with cal := vset s.sar.cal (id - 0x0E80) ⟨signed 32 (leAt v 0 4), leAt v 4 4⟩ } }
  else s

/-- A seed of a bin waits for the next boundary (10 R249). -/
def seedSet (id : Nat) (v : List Byte) (s : State) : State :=
  if 0x0640 ≤ id ∧ id ≤ 0x069F then
    { s with alm := { s.alm with seeds := (s.alm.seeds.filter fun x => x.1 != id) ++ [(id, v)] } }
  else s

/-- ANN_FCC_A sets every cell, and the new values are committed (10 R238). -/
def annSeed (v : Nat) (s : State) : State :=
  let t := { s with gauge := { s.gauge with cells := s.gauge.cells.map fun c => { c with fcc := some (v : Rat) } } }
  commitInternal (cellRecs t) t

/-- One item of a SET or SET_BULK takes effect; TAMP_REARM is handled apart (R388). -/
def setItem (it : Nat × List Byte) (s : State) : State :=
  let id := it.1
  if id = 0x031A then clearLatches s
  else if id = 0x0625 then annSeed (leNat it.2) s
  else if id = 0x0B21 then tampAck (leNat it.2) s
  else if id = 0x0B20 then s
  else afterChange id (seedSet id it.2 { s with par := s.par.setPending id it.2 })

/-- The counter and the level of a rearm token, none where the unwrap fails or a field is wrong (14 R357). -/
def rearmOf (s : State) (token : List Byte) : Option (Nat × Nat) :=
  match keyUnwrap (fusedKey Config.transportKey) token with
  | none => none
  | some p =>
    let ctr := leAt p 8 4
    let level := byteAt p 12
    if p.take 4 == ascii "RARM" && leAt p 4 4 == serialOf s && decide (s.tamp.rearmCtr < ctr) && decide (level ≤ 1)
        && (p.drop 13).all (fun b => b == 0) && p.length == 32 then some (ctr, level)
    else none

/-- A source whose latch holds Q1 or Q2 is still in tamper (14 R357). -/
def rearmBarred (s : State) : Bool :=
  allSources.any fun k => (srcOf s k).inTamper && match (srcOf s k).latch with | some r => r.quench | none => false

/-- A SET of TAMP_REARM: ACCEPTED, then RANGE, BUSY, or the commit whose MARK completes the rearm (14 R357). -/
def runRearm (o : Oper) (token : List Byte) (s : State) : RunAns × State :=
  match rearmOf s token with
  | none => (.accepted, setFinal o.id stRange [] s)
  | some r =>
    if rearmBarred s || queueFull s then (.accepted, setFinal o.id stBusy [] s)
    else
      let s1 := { s with tamp := { s.tamp with rearming := some (r.1, r.2, o.id) } }
      (.accepted, commitFor o.id .records [counterRec 2 r.1] s1)

/-- SET answers with the value as stored; a write-only parameter with zeros (R58, R388). -/
def runSet (o : Oper) (s : State) : RunAns × State :=
  if o.argN = 0x0B20 then runRearm o o.payload s
  else
    let t := setItem (o.argN, o.payload) s
    match prmOf o.argN with
    | some p => (okWith (if p.wr = .wo then List.replicate p.len 0 else t.par.latest o.argN), t)
    | none => (.done stBadArg [], s)

/-- SET_BULK: its items take effect in their order; a rearm among them decides the answer, and the other items take effect
when its commit begins, since until then a CANCEL ends the operation with no effect (R69; assumption log 137). -/
def runSetBulk (o : Oper) (s : State) : RunAns × State :=
  let items := setItems o
  match items.find? fun it => it.1 == 0x0B20 with
  | some it => runRearm o it.2 s
  | none => (okWith [], items.foldl (fun s it => setItem it s) s)

/-- The other items of a SET_BULK take effect as its rearm begins its commit, its point of no return. -/
def rearmItems (i : Nat) (s : State) : State :=
  match s.tamp.rearming, opById s i with
  | some r, some o => if r.2.2 = i ∧ o.op = .setBulk ∧ !o.ponr then (setItems o).foldl (fun s it => setItem it s) s else s
  | _, _ => s

/-- COMMIT marks every unmarked pending value and writes them as one transaction; with none it answers OK at once
(15 R365). -/
def runCommit (o : Oper) (s : State) : RunAns × State :=
  let fresh := s.par.pending.filter fun e => e.mark.isNone
  if fresh.isEmpty then (okWith [], s)
  else
    let p := { s.par with pending := s.par.pending.map fun e => if e.mark.isNone then { e with mark := some o.id } else e }
    (.accepted, commitFor o.id .records (fresh.map fun e => paramRec e.id e.value) { s with par := p })

/-- One discarded pending value, with what follows from its return (15 R365). -/
def revertOne (id : Nat) (s : State) : State :=
  if s.par.pending.any (fun e => e.id == id) then
    let s1 := { s with
      par := s.par.revert id
      alm := { s.alm with seeds := s.alm.seeds.filter fun x => x.1 != id } }
    afterChange id s1
  else s

def runRevert (o : Oper) (s : State) : RunAns × State :=
  (okWith [], (revertIds s o).foldl (fun s id => revertOne id s) s)

/-! ## Registers (16 R376, R377) -/

def runPeek (o : Oper) (s : State) : RunAns × State :=
  match blockOf (spanAddr o) with
  | some b =>
    let r := peekWords b (spanAddr o % 0x10000) o.argN s
    (okWith r.1, r.2)
  | none => (.done stBadArg [], s)

def runPoke (o : Oper) (s : State) : RunAns × State :=
  match blockOf (spanAddr o) with
  | some b =>
    (okWith [], pokeWords b (spanAddr o % 0x10000) ((List.range o.argN).map fun i => wordAt (o.payload.drop 4) i) s)
  | none => (.done stBadArg [], s)

end Sys2Proof.Machine
end

