-- ==== Sys2Proof/Machine/RunMeasure.lean ====
section
/-! DEFINITION. What the operations of the sequencer, the gauge, the Almanac and the timers do once they start
(03_sprue_commands.md R58, 07_sar_and_accumulators.md, 08_timers.md, 09_gauge_model.md, 10_almanac_policy.md). -/

namespace Sys2Proof.Machine

/-! ## Accumulators, trackers, tables (07) -/

/-- ACC_READ: every field at one edge, with the clear where bit 15 asks for it (R164). -/
def runAccRead (o : Oper) (s : State) : RunAns × State :=
  let n := o.argN % 0x8000
  let b := accBytes (vget s.sar.acc n Acc.empty) (now s)
  (okWith b, if 0x8000 ≤ o.argN then modAcc n (fun _ => Acc.empty) s else s)

/-- TRK_READ (R164, R166). -/
def runTrkRead (o : Oper) (s : State) : RunAns × State :=
  let n := o.argN % 0x8000
  let b := trkBytes (vget s.sar.trk n Trk.empty)
  (okWith b, if 0x8000 ≤ o.argN then modTrk n (fun _ => Trk.empty) s else s)

/-- ACC_CLEAR clears every accumulator and tracker of its masks at one edge (R164). -/
def runAccClear (o : Oper) (s : State) : RunAns × State :=
  let am := leAt o.payload 0 4
  let tm := leAt o.payload 4 4
  (okWith [], { s with sar := { s.sar with
      acc := s.sar.acc.mapIdx fun i a => if am / 2 ^ i % 2 = 1 then Acc.empty else a
      trk := s.sar.trk.mapIdx fun i t => if tm / 2 ^ i % 2 = 1 then Trk.empty else t } })

/-- SEQ_LOAD: Routine entries run from the start of the next pass; the Burst table takes its entries (R153, R154). -/
def runSeqLoad (o : Oper) (s : State) : RunAns × State :=
  let es := (entriesOf 10 o).map seqOfBytes
  (okWith [], if o.argN = 0 then { s with sar := { s.sar with routNext := some es } }
    else { s with sar := { s.sar with burst := es } })

/-- SEQ_START (R153, R154): 0x8000 removes the port entries, those not yet running too, at the end of the current pass, which
is at once while none runs. A Burst table without entries has no pass to run. 0x8001 while no Burst pass runs answers OK
without an effect: the spec states no status (DESIGN CHOICE, assumption log 129). -/
def runSeqStart (o : Oper) (s : State) : RunAns × State :=
  if o.argN = 0 then (.done stAlready [], s)
  else if o.argN = 0x8000 then
    (okWith [], { s with sar := { s.sar with
        routNext := none, routDrop := s.sar.routPos.isSome
        routPort := if s.sar.routPos.isSome then s.sar.routPort else [] } })
  else if o.argN = 1 then
    (okWith [], { s with sar := { s.sar with
        burstOn := !s.sar.burst.isEmpty, burstLeft := leAt o.payload 0 4, burstStop := false
        burstPos := seqStart s s.sar.burst } })
  else (okWith [], { s with sar := { s.sar with burstStop := s.sar.burstOn } })

/-- FLARE joins the queue of Pollux; it crosses into the SAR domain at the second SAR edge, and its conversion answers it
(R158; 02 R32). -/
def runFlare (o : Oper) (s : State) : RunAns × State :=
  let p := o.payload
  (.wait, { s with sar := { s.sar with
      flares := s.sar.flares ++ [⟨o.argN, byteAt p 2, leAt p 0 2, byteAt p 3, byteAt p 4, o.id, sarNow s + 2⟩] } })

/-- CAL_ZERO and CAL_SPAN start a calibration, whose parameters take effect: of CAL_N conversions, or of 16 outputs of an
integrator (R168, R170 to R172). -/
def runCal (o : Oper) (s : State) : RunAns × State :=
  let t := { s with par := s.par.applyMoment .cal }
  let cq := o.argN == 0x30 || o.argN == 0x31
  (.accepted, { t with
    sar := { t.sar with
      calRun := true, calPair := o.argN, calN := if cq then 16 else prm t 0x0E01, calTs := prm t 0x0E02
      calAt := sarNow t + 2, calCnt := 0, calSum := 0 } })

/-- CAL_STORE commits the whole table in force (R170). -/
def runCalStore (o : Oper) (s : State) : RunAns × State :=
  (.accepted, commitFor o.id .records ((List.range 43).map fun k => paramRec (0x0E80 + k) (calBytes (calOf s k))) s)

/-! ## Gauge (09) -/

/-- The part holds an aggregate block it may answer from (12 R298). -/
def aggBlock (s : State) : Option (List Byte) :=
  let l := s.link
  if (l.role == .member && l.pv != 1) || l.role == .pole || (l.role == .dim && l.pv != 1) then l.block else none

/-- GAUGE_READ from the latest whole snapshot (01 R18, R219). -/
def runGaugeRead (o : Oper) (s : State) : RunAns × State :=
  if o.argN = 0 then (okWith (gaugeBytes s.gauge.snap.recA), s)
  else if o.argN = 1 then (okWith (gaugeBytes s.gauge.snap.recB), s)
  else
    match aggBlock s with
    | some b => (okWith (gaugeBytes (aggGauge s b)), s)
    | none => (.done stNoPole [], s)

/-- A cell record with every field but its index 0. -/
def CellRec.zero (i : Nat) : CellRec := ⟨i, 0, 0, 0, 0, 0, 0, 0, 0, 0, 0, 0, 0, 0, 0⟩

/-- CELL_READ (R221). -/
def runCellRead (o : Oper) (s : State) : RunAns × State :=
  (okWith (cellBytes (s.gauge.snap.cells.getD o.argN (CellRec.zero o.argN))), s)

/-- The 1024 bytes of a slot from its staged chunks, none where one is missing (R201). -/
def stagedProfile (s : State) (slot : Nat) : Option (List Byte) :=
  match (List.range 8).mapM fun c => (s.gauge.staged.find? fun x => x.1 == slot && x.2.1 == c).map fun x => x.2.2 with
  | some cs => some cs.flatten
  | none => none

/-- The PROFILE records of a slot (15 R362). -/
def profileRecs (slot : Nat) (b : List Byte) : List Rec :=
  (List.range 8).map fun c => ⟨0x11, slot * 8 + c, 32, .bytes ((b.drop (128 * c)).take 128)⟩

/-- MODEL_LOAD: a chunk is staged; the last one ends the load (R201). -/
def runModelLoad (o : Oper) (s : State) : RunAns × State :=
  let slot := o.argN
  let c := byteAt o.payload 0
  let rest := s.gauge.staged.filter fun x => !(x.1 == slot && x.2.1 == c)
  let t := { s with gauge := { s.gauge with staged := rest ++ [(slot, c, o.payload.drop 2)] } }
  if byteAt o.payload 1 = 0 then (okWith [], t)
  else
    let keep := t.gauge.staged.filter fun x => x.1 != slot
    let u := { t with gauge := { t.gauge with staged := keep } }
    match stagedProfile t slot with
    | some b =>
      if profileOk b then (.accepted, commitFor o.id .records (profileRecs slot b) u)
      else (.accepted, setFinal o.id stRange [] u)
    | none => (.accepted, setFinal o.id stRange [] u)

/-- GLINT_READ from the latest whole snapshot (01 R18, R220). -/
def runGlintRead (o : Oper) (s : State) : RunAns × State :=
  (okWith (if o.argN = 0 then s.gauge.snap.glintA else s.gauge.snap.glintB), s)

/-! ## Almanac and policy (10) -/

/-- ALM_READ: the own record, or the aggregate one (R235, 12 R298). -/
def runAlmRead (o : Oper) (s : State) : RunAns × State :=
  if o.argN = 0 then
    (okWith (match s.alm.rcd with | some r => almBytes r | none => List.replicate 52 0), s)
  else
    match aggBlock s with
    | some b => (okWith (almBytes (aggAlm s b)), s)
    | none => (.done stNoPole [], s)

/-- SEA_STATE sets the class in force, and an evaluation follows (R225, R231). -/
def runSeaState (o : Oper) (s : State) : RunAns × State :=
  let t := seaSet o.argN false s
  (okWith [], almEvalNow { t with alm := { t.alm with seaAt := now t } })

/-- SCHED_LOAD replaces the declared duty table, and an evaluation follows (R225, R229, R230). -/
def runSchedLoad (o : Oper) (s : State) : RunAns × State :=
  match dutiesOf o with
  | some l =>
    (okWith [], almEvalNow (armLead { s with alm := { s.alm with duties := l, dutyAt := now s, dutyStale := false } }))
  | none => (.done stRange [], s)

/-- SHED_SET sets the floor; the reply carries both levels after it has been applied (R225, R241). -/
def runShedSet (o : Oper) (s : State) : RunAns × State :=
  let t := shedLines { s with pol := { s.pol with floor := o.argN } }
  (okWith (leBytes 1 t.pol.computed ++ leBytes 1 (shedLevel t)), almEvalNow t)

/-- ANNEAL_READ (R240). -/
def runAnnealRead (o : Oper) (s : State) : RunAns × State :=
  (okWith (annealBytes s (if o.argN = 0 then .a else .b)), s)

/-! ## Timers (08) -/

/-- SB_CAPTURE: the base at one edge, with the COARSE flag of the requester's class, which it clears (R175, R176). -/
def runSbCapture (o : Oper) (s : State) : RunAns × State :=
  let r := captureShadow1 (originCoarse o.origin) s
  (okWith (leBytes 8 r.1 ++ leBytes 1 (bit r.2.1)), r.2.2)

def runCmpSet (o : Oper) (s : State) : RunAns × State :=
  (okWith [], cmpSet o.argN (leAt o.payload 0 4) (o.payload.getD 4 0) s)

def runCdnSet (o : Oper) (s : State) : RunAns × State :=
  let p := o.payload
  (okWith [], cdnSet o.argN (leAt p 0 4) (leAt p 4 2) (byteAt p 6) (p.getD 7 0) s)

/-- CAPQ_READ takes and empties a queue (R186). -/
def runCapqRead (o : Oper) (s : State) : RunAns × State :=
  let r := capqRead o.argN s
  (okWith (leBytes 1 r.1.length ++ (r.1.map capqBytes).flatten ++ leBytes 2 r.2.1), r.2.2)

/-- RTC_SET takes effect at the next AON edge; the running bin cannot qualify, and the next duty is armed anew
(R189, 09 R216, 10 R228). -/
def runRtcSet (o : Oper) (s : State) : RunAns × State :=
  let sec := leAt o.payload 0 4
  let t := rtcLoad sec (originCode o.origin) (elapseTo ((now s / 250 + 1) * 250) s)
  (okWith [], armLead { t with alm := { t.alm with
      binOk := false, binStart := none, binIdx := sec / 1800, binAt := now t, dayIdx := sec / 86400 } })

end Sys2Proof.Machine
end

