-- ==== Sys2Proof/Machine/RunKeys.lean ====
section
/-! DEFINITION. What the operations of the digest engine, the Crucible and the locks do once they start
(13_digest_crucible.md). -/

namespace Sys2Proof.Machine

/-! ## Digest (R314 to R326) -/

/-- DG_OPEN closes the context or opens it afresh for the requester; ERR and the DMA fields stay (R315, R317). -/
def runDgOpen (o : Oper) (s : State) : RunAns × State :=
  let n := o.argN
  let c := ctxAt s n
  let f := byteAt o.payload 0
  let k := byteAt o.payload 1
  let slot := if k = 0xFF then none else some k
  let base := { Ctx.closed with err := c.err, dmaSrc := c.dmaSrc, dlen := c.dlen }
  if f = 0 then (okWith [], setCtx n base s)
  else
    (okWith [], setCtx n { base with
        state := .opened, func := f, slot := slot, gen := match slot with | some i => (keyAt s i).gen | none => 0
        owner := some o.origin, chain := ctxStart s f slot } s)

def runDgFeed (o : Oper) (s : State) : RunAns × State :=
  (okWith [], setCtx o.argN (ctxFeed s o.payload (ctxAt s o.argN)) s)

/-- DG_FINISH; a finished context without new data, and the form with bit 15, return the held digest (R322, R324). -/
def runDgFinish (o : Oper) (s : State) : RunAns × State :=
  let n := o.argN % 0x8000
  let c := ctxAt s n
  if 0x8000 ≤ o.argN ∨ c.state = .finished then (okWith (c.held.getD []), s)
  else
    let d := ctxFinish s c
    (okWith (d.held.getD []), setCtx n d s)

/-- DG_DESC answers ACCEPTED once its list is read and checked; the fragments are fed later, by the list as it was read
(R321). -/
def runDgDesc (o : Oper) (s : State) : RunAns × State :=
  let n := o.argN % 256
  (.accepted, setCtx n { ctxAt s n with desc := fragments s (leAt o.payload 0 4) (byteAt o.payload 4) } s)

/-- DG_EXPORT and DG_IMPORT answer ACCEPTED; their work is done when they complete (R325). -/
def runLater (o : Oper) (s : State) : RunAns × State :=
  (.accepted, if o.op = .dgExport then setPonr o.id s else s)

/-- The end of a DG_DESC: its fragments enter in list order (R321). -/
def descDone (o : Oper) (s : State) : State := setFinal o.id stOk [] (feedDesc 64 (o.argN % 256) s)

/-- The end of a DG_EXPORT: the wrapped state (R325, R326). -/
def exportDone (o : Oper) (s : State) : State :=
  setFinal o.id stOk (keyWrap (fusedKey Config.wrapKey) (exportPlain (ctxAt s (o.argN % 256)))) s

/-- Every field of an unwrapped state lies in its range (R325, R326). -/
def importOk (s : State) (b : List Byte) : Bool :=
  let f := byteAt b 1
  let k := byteAt b 2
  let fl := byteAt b 3
  let part := byteAt b 4
  let absorbed := leAt b 8 8
  let fin := fl % 2 = 1
  b.length == 208 && byteAt b 0 == 1 && funcOk f && decide (fl ≤ 3) && byteAt b 5 == 0
    && (if fin then part == 0 else decide (part < shaBlock f ∧ absorbed % shaBlock f = part))
    && (if k = 0xFF then leAt b 6 2 == 0
        else decide (k < 16) && slotReady s k && useHas s k 8 && keyUse s k % 16 == f && leAt b 6 2 == (keyAt s k).gen)

/-- A context as an unwrapped state describes it, owned by an origin. -/
def importCtx (o : Origin) (b : List Byte) : Ctx :=
  let f := byteAt b 1
  let fin := byteAt b 3 % 2 = 1
  let w := shaW f / 8
  { Ctx.closed with
    state := if fin then .finished else .opened, func := f
    slot := if byteAt b 2 = 0xFF then none else some (byteAt b 2)
    gen := leAt b 6 2, owner := some o
    chain := (List.range 8).map fun i => beNat (((b.drop (16 + w * i)).take w))
    part := if fin then [] else (b.drop 80).take (byteAt b 4)
    absorbed := leAt b 8 8
    held := if fin then some ((b.drop 80).take (shaOut f (List.replicate 8 0)).length) else none
    restarted := byteAt b 3 / 2 % 2 = 1 }

/-- The end of a DG_IMPORT: RANGE, or the context holds exactly the exported state (R326). -/
def importDone (o : Oper) (s : State) : State :=
  match keyUnwrap (fusedKey Config.wrapKey) o.payload with
  | none => setFinal o.id stRange [] s
  | some b =>
    if importOk s b then
      let c := ctxAt s (o.argN % 256)
      let d := { importCtx o.origin b with err := c.err, dmaSrc := c.dmaSrc, dlen := c.dlen }
      setFinal o.id stOk [] (setCtx (o.argN % 256) d s)
    else setFinal o.id stRange [] s

/-! ## Authentication (R338, R339) -/

/-- The reply of an AUTH_CHAL for its drawn counter value. -/
def authReply (s : State) (o : Oper) : List Byte :=
  let tail := leBytes 4 (serialOf s) ++ leBytes 4 o.ctr
  slotHmac s o.argN (o.payload ++ tail) ++ tail

/-- AUTH_CHAL draws the next value of the use counter; it answers once a committed reservation covers that value. -/
def runAuthChal (o : Oper) (s : State) : RunAns × State :=
  let c := s.sec.useCtr + 1
  let s1 := reserve 1 c s.sec.useRes { s with sec := { s.sec with useCtr := c } }
  if c ≤ s.sec.useRes then (okWith (authReply s { o with ctr := c }), s1)
  else (.wait, modOp o.id (fun x => { x with ctr := c, interim := if s1.pwr.bow then some stDefer else x.interim }) s1)

/-- A waiting AUTH_CHAL is judged again: its reservation has been committed, or its commit has failed (R339). -/
def authSettle (s : State) (o : Oper) : State :=
  if o.op = .authChal ∧ o.final.isNone ∧ !o.waiting ∧ o.ctr ≠ 0 then
    if o.ctr ≤ s.sec.useRes then setFinal o.id stOk (authReply s o) s
    else if counterQueued 1 s then s
    else setFinal o.id stNvFail [] s
  else s

/-! ## Unlock (R334 to R337) -/

/-- UNLOCK_CHAL: ALREADY, BUSY where the entropy source fails, else a new challenge of the port (R334). -/
def runUnlockChal (o : Oper) (s : State) : RunAns × State :=
  match lockPortOf o.origin with
  | none => (.done stLocked [], s)
  | some p =>
    if o.argN ≤ s.sec.lock.code then (.done stAlready [], s)
    else
      let t := { s with drawn := s.drawn + 1 }
      if Config.entropyFails s.drawn then (.done stBusy [], logRaise 0x25 (originCode o.origin) (leBytes 1 (lockClass p)) t)
      else
        let c := sha 1 ((List.range 32).map (Config.entropy s.drawn))
        (okWith c, setPl p { plOf p t with chal := some (c, o.argN, now s), consumed := none } t)

/-- The response of an UNLOCK verifies the outstanding challenge of its port (R334, R335). -/
def unlockValid (s : State) (p : LockPort) (o : Oper) : Bool :=
  match (plOf p s).chal with
  | none => false
  | some c =>
    decide (now s < c.2.2 + secTicks (prm s 0x0A01)) && c.2.1 == o.argN &&
    match unlockSlot s o.argN with
    | some k => slotReady s k && o.payload == unlockResponse s p o.argN k c.1
    | none => false

/-- An invalid response counts, is logged, and ends AUTHFAIL; one that equals the response which consumed the last
challenge ends ALREADY (R336, R337). -/
def unlockBad (p : LockPort) (s : State) (o : Oper) : State :=
  if (plOf p s).consumed = some o.payload then setFinal o.id stAlready [] s
  else
    let t := countFailure p (originCode o.origin) s
    let l := plOf p t
    let data := leBytes 1 0x6A ++ [o.tag, stAuthFail] ++ leBytes 2 o.argN ++ leBytes 1 l.fails ++ leBytes 1 l.k
    setFinal o.id stAuthFail [] (logRaise 0x21 (originCode o.origin) data t)

/-- A verification round closes (R336): the earliest valid response changes the level, other valid ones end ALREADY,
invalid ones count in timestamp order. -/
def closeRound (p : LockPort) (s : State) : State :=
  let l := plOf p s
  let os := l.round.filterMap (opById s)
  let s0 := setPl p { l with round := [], roundAt := none } s
  let good := os.filter (unlockValid s p)
  let bad := os.filter fun o => !unlockValid s p o
  let s1 := match good with
    | [] => s0
    | g :: r =>
      let t := setPl p { plOf p s0 with chal := none, consumed := some g.payload, fails := 0, k := 0 } s0
      r.foldl (fun s o => setFinal o.id stAlready [] s) (setFinal g.id stOk [] (setLevel (lockOfCode g.argN) 0 (originCode g.origin) t))
  let s2 := bad.foldl (unlockBad p) s1
  if lockRec s2 = lockRec s1 then s2 else commitInternal [lockRec s2] s2

/-- An UNLOCK joins the open round of its port, or opens one at its timestamp; a round whose 819 ticks are over closes
first (R336). -/
def runUnlock (o : Oper) (s : State) : RunAns × State :=
  match lockPortOf o.origin with
  | none => (.done stLocked [], s)
  | some p =>
    let old := match (plOf p s).roundAt with | some t => decide (t + 819 < o.stamp) | none => false
    let t := if old then closeRound p s else s
    let l := plOf p t
    (.wait, setPl p { l with round := l.round ++ [o.id], roundAt := some (l.roundAt.getD o.stamp) } t)

/-- SEAL: ALREADY at SEALED, else it takes effect once its reply has left (R333, 03 R59). -/
def runSeal (o : Oper) (s : State) : RunAns × State :=
  if s.sec.lock = .sealed then (.done stAlready [], s) else (okWith [], defer .seal o s)

/-! ## KEY_LOAD (R331) -/

/-- KEY_LOAD: ACCEPTED, then RANGE where the unwrap fails, else the copy is committed; forty zero bytes empty the
slot. -/
def runKeyLoad (o : Oper) (s : State) : RunAns × State :=
  let slot := o.argN
  let gen := ((keyAt s slot).gen + 1) % 65536
  let use := keyUse s slot
  if o.payload.all fun b => b == 0 then (.accepted, commitFor o.id (.key slot gen [] use true) [] s)
  else
    match keyUnwrap (fusedKey Config.transportKey) o.payload with
    | none => (.accepted, setFinal o.id stRange [] s)
    | some raw =>
      (.accepted, commitFor o.id (.key slot gen (keyWrap (fusedKey Config.wrapKey) raw) use false) [] s)

end Sys2Proof.Machine
end

