-- ==== Sys2Proof/Machine/RunLink.lean ====
section
/-! DEFINITION. What the operations of the constellation and the log do once they start, and the table of all
operations (03_sprue_commands.md R58, 12_criuc_link.md, 14_tamper_quench.md). -/

namespace Sys2Proof.Machine

/-- CST_READ (12 R305). -/
def runCstRead (o : Oper) (s : State) : RunAns × State :=
  if o.argN = 0 then (okWith (cstSummary s), s)
  else if member s then (okWith (cstEntry s (o.argN - 1)), s)
  else (.done stNoPole [], s)

/-- CST_CONFIG: ACCEPTED, then BADLEN, BADARG or RANGE, else OK once the block is committed and adopted (12 R299). -/
def runCstConfig (o : Oper) (s : State) : RunAns × State :=
  let st := cfgCheck s o.payload
  if st = stOk then (.accepted, commitFor o.id .records [cfgRec o.payload] s) else (.accepted, setFinal o.id st [] s)

/-- LINK_STATS: ARG 1 clears the counters at the stamp it returns (12 R306). -/
def runLinkStats (o : Oper) (s : State) : RunAns × State :=
  if o.argN = 0 then (okWith (statsBytes s s.link.clearAt), s)
  else
    (okWith (statsBytes s (now s)),
      { s with link := { s.link with counters := Vector.replicate 16 0, clearAt := now s } })

/-- CST_LEAVE (12 R304). -/
def runCstLeave (_o : Oper) (s : State) : RunAns × State :=
  if member s then (okWith [], leaveLink s) else (.done stAlready [], s)

/-- LOG_READ of the log, or of the evidence store (14 R356). -/
def runLogRead (o : Oper) (s : State) : RunAns × State :=
  let p := byteAt o.payload 0
  let n := p % 8
  let es := if 128 ≤ p then (s.tamp.evid.drop o.argN).take n else logFrom s.tamp.log o.argN s.tamp.logNext n
  (okWith (es.map logBytes).flatten, s)

/-- Every raised entry is committed, in the order in which it was raised (14 R353). -/
def logFlush (s : State) : State :=
  s.tamp.logWait.foldl (fun s e => logStore e s) { s with tamp := { s.tamp with logWait := [] } }

/-- The entry of a LOG_MARK (14 R353). -/
def markEntry (s : State) (o : Oper) : LogEnt :=
  ⟨0, o.stamp, s.tmr.rtcSec, s.start.lifeAon, 0x70, originCode o.origin, logFlags s, s.start.stage.code, padTo 32 o.payload⟩

/-- LOG_MARK commits its entry and answers its index; NVFAIL without a store, DEFER under BOW (14 R353, 15 R371). -/
def runLogMark (o : Oper) (s : State) : RunAns × State :=
  if s.nv.storeBad then (.done stNvFail [], s)
  else if s.pwr.bow then (.accepted, modOp o.id (fun x => { x with interim := some stDefer }) s)
  else
    let t := logFlush s
    (okWith (leBytes 4 t.tamp.logNext), logStore (markEntry s o) t)

/-- A LOG_MARK held off by BOW is retried after the release (05 R109). -/
def markSettle (s : State) (o : Oper) : State :=
  if o.op = .logMark ∧ o.final.isNone ∧ !o.waiting ∧ o.interim = some stDefer ∧ !s.pwr.bow then
    let t := logFlush s
    setFinal o.id stOk (leBytes 4 t.tamp.logNext) (logStore (markEntry s o) t)
  else s

/-- What each operation does (R58). -/
def runOp (o : Oper) (s : State) : RunAns × State :=
  match o.op with
  | .ping => (okWith o.payload, s)
  | .ident => (okWith (identBytes s), s)
  | .stage => (okWith (stageBytes s), s)
  | .reset => runReset o s
  | .sleep => runSleep o s
  | .wake => runWake o s
  | .caps => (okWith capsBytes, s)
  | .poll => runPoll o s
  | .cancel => runCancel o s
  | .get => runGet o s
  | .set => runSet o s
  | .setBulk => runSetBulk o s
  | .commit => runCommit o s
  | .revert => runRevert o s
  | .peek => runPeek o s
  | .poke => runPoke o s
  | .accRead => runAccRead o s
  | .trkRead => runTrkRead o s
  | .accClear => runAccClear o s
  | .seqLoad => runSeqLoad o s
  | .seqStart => runSeqStart o s
  | .flare => runFlare o s
  | .calZero => runCal o s
  | .calSpan => runCal o s
  | .calStore => runCalStore o s
  | .gaugeRead => runGaugeRead o s
  | .cellRead => runCellRead o s
  | .modelLoad => runModelLoad o s
  | .glintRead => runGlintRead o s
  | .almRead => runAlmRead o s
  | .seaState => runSeaState o s
  | .schedLoad => runSchedLoad o s
  | .shedSet => runShedSet o s
  | .annealRead => runAnnealRead o s
  | .sbCapture => runSbCapture o s
  | .cmpSet => runCmpSet o s
  | .cdnSet => runCdnSet o s
  | .capqRead => runCapqRead o s
  | .rtcSet => runRtcSet o s
  | .dgOpen => runDgOpen o s
  | .dgFeed => runDgFeed o s
  | .dgDesc => runDgDesc o s
  | .dgFinish => runDgFinish o s
  | .dgExport => runLater o s
  | .dgImport => runLater o s
  | .authChal => runAuthChal o s
  | .unlockChal => runUnlockChal o s
  | .unlock => runUnlock o s
  | .seal => runSeal o s
  | .keyLoad => runKeyLoad o s
  | .cstRead => runCstRead o s
  | .cstConfig => runCstConfig o s
  | .linkStats => runLinkStats o s
  | .cstLeave => runCstLeave o s
  | .logRead => runLogRead o s
  | .logMark => runLogMark o s

end Sys2Proof.Machine
end

