-- ==== Sys2Proof/Machine/SbsOps.lean ====
section
/-! DEFINITION. The Smart Battery quantities and BatteryStatus, with the causes of SMBALERT# and Host Notify that its alarm
bits raise (11_host_field_ports.md R257 to R263, 09_gauge_model.md R222). -/

namespace Sys2Proof.Machine

/-- A signed quantity that saturates at ±32 767, as 16 bits. -/
def sat16 (v : Int) : Nat := (clampI (-32767) 32767 v % 65536).toNat

/-- A quantity that saturates at 65 535; a negative one reads 0. -/
def satU16 (v : Int) : Nat := min 65535 v.toNat

/-- A time in minutes that a charge takes at a current, at most 65 534; all ones where the current flows the other way,
and before Cast (R258). -/
def sbsMinutes (s : State) (mAh : Int) (rate : Int) : Nat :=
  if !atLeast s .cast || decide (rate ≤ 0) then 65535 else min 65534 (mAh.toNat * 60 / rate.toNat)

/-- RunTimeToEmpty, AverageTimeToEmpty, AverageTimeToFull (R258). -/
def runToEmpty (s : State) : Nat := sbsMinutes s s.gauge.snap.recA.rm (-s.gauge.snap.recA.curr)
def avgToEmpty (s : State) : Nat := sbsMinutes s s.gauge.snap.recA.rm (-s.gauge.snap.recA.avgCurr)
def avgToFull (s : State) : Nat :=
  sbsMinutes s (s.gauge.snap.recA.fcc - s.gauge.snap.recA.rm) s.gauge.snap.recA.avgCurr

/-- RSOC or ASOC in %, rounded (09 R222). -/
def percent (x : Nat) : Nat := (x + 5) / 10

/-- MaxError: ⌈2 × SOC_SIGMA / 10⌉ %, at most 100 (09 R222). -/
def maxErrorPct (s : State) : Nat := min 100 ((2 * s.gauge.snap.recA.sigma + 9) / 10)

/-- A Bank A OC1 charge hold runs (R259). -/
def chargeHold (s : State) : Bool := s.afe.ocA.holdEnd.isSome && s.afe.ocA.holdChg

/-- The alarm bits 15 to 8 of BatteryStatus (R259). -/
def alarmBits (s : State) : Nat :=
  let g := s.gauge.snap.recA
  32768 * bit (ova s) + 16384 * bit (ova s || chargeHold s) + 4096 * bit (decide (prm s 0x0822 ≤ g.temp))
    + 2048 * bit (uva s || decide (g.rsoc = 0)) + 512 * bit (prm s 0x0820 != 0 && decide (g.rm < (prm s 0x0820 : Int)))
    + 256 * bit (prm s 0x0821 != 0 && decide (avgToEmpty s < prm s 0x0821))

/-- BatteryStatus (R259). -/
def batteryWord (s : State) : Nat :=
  alarmBits s + 128 * bit (atLeast s .cast && s.start.estConf) + 64 * bit (decide (s.gauge.snap.recA.curr < 0))
    + 32 * bit s.host.fullChg + 16 * bit s.host.fullDsg + s.host.errCode

/-- FULLY_CHARGED and FULLY_DISCHARGED with their hysteresis (R259). -/
def fullTrack (s : State) : State :=
  let r := s.gauge.snap.recA.rsoc
  { s with host := { s.host with
      fullChg := decide (1000 ≤ r) || (s.host.fullChg && decide (950 ≤ r))
      fullDsg := decide (r = 0) || (s.host.fullDsg && decide (r < 200)) } }

/-- An alarm bit that is set now and was not before. -/
def alarmRises (s : State) : Bool := decide (Nat.land (alarmBits s) (65535 - s.host.alarms) ≠ 0)

/-- After any change the alarm bits are judged: a rising edge is a cause of SMBALERT# and of a Host Notify (R262, R263).
There is no gauge record before Pour. -/
def alarmTrack (s0 : State) : State :=
  if !atLeast s0 .pour then s0
  else
    let s := fullTrack s0
    let h := { s.host with alarms := alarmBits s }
    if alarmRises s && !s.start.hsel then
      { s with host := { h with
          alerts := if prm s 0x0801 = 1 then h.alerts ++ [2] else h.alerts
          notifies := if prm s 0x0802 = 1 then h.notifies ++ [(none, 0)] else h.notifies } }
    else { s with host := h }

end Sys2Proof.Machine
end

