-- ==== Sys2Proof/Machine/SprueOps.lean ====
section
/-! DEFINITION. The command sequencer: arrival of a packet, its slot, the order of starts and replies, stored results
(03_sprue_commands.md R46 to R70). -/

namespace Sys2Proof.Machine

/-! ## Packets (R46 to R49) -/

/-- A packet from its fields, with LEN and CRC-16. LEN has one byte: 256 to 260 are written as 0 to 4 (assumption
log 40). -/
def packetBytes (opc tag third : Byte) (arg : BitVec 16) (payload : List Byte) : List Byte :=
  let body := [BitVec.ofNat 8 (8 + payload.length), opc, tag, third] ++ leBytes 2 arg.toNat ++ payload
  body ++ leBytes 2 (crc16 body)

/-- A reply as its port sends it: OPC carries bit 7 (R47). -/
def replyBytes (r : Reply) : List Byte := packetBytes (r.opc ||| 0x80) r.tag r.status r.arg r.payload

/-- The LEN byte of a packet of `n` bytes fits (step 1). -/
def lenStep (b : List Byte) : Bool := decide (8 ≤ b.length ∧ b.length ≤ 260) && byteAt b 0 == b.length % 256

/-- The CRC-16 of a packet matches (step 2). -/
def crcStep (b : List Byte) : Bool := leAt b (b.length - 2) 2 == crc16 (b.take (b.length - 2))

/-- The fields of a packet that passed steps 1 and 2; the origin code replaces bits 7:4 of FLG (R49). -/
def pktOf (origin : Origin) (b : List Byte) : Pkt :=
  ⟨origin, b.getD 2 0, BitVec.ofNat 4 (byteAt b 3), BitVec.ofNat 16 (leAt b 4 2), (b.drop 6).take (b.length - 8)⟩

/-! ## Order (R50, R57, R70) -/

/-- The order of starts at one timestamp: internal, host, UART, SDI-12, link (R70). -/
def startRank : Origin → Nat
  | .internal => 0
  | .hostNative => 1
  | .gen2 => 1
  | .gen1 => 1
  | .fieldNative => 2
  | .modbus => 2
  | .sdi => 3
  | .link => 4

/-- `a` starts before `b` (R70). -/
def before (a b : Oper) : Bool :=
  decide (a.stamp < b.stamp) || (decide (a.stamp = b.stamp) &&
    (decide (startRank a.origin < startRank b.origin) || (startRank a.origin == startRank b.origin && decide (a.id < b.id))))

/-- An operation waits in its slot and may start now: no earlier one of its port waits, and an ORDERED one has no earlier
operation of its port without a final status (R50). -/
def startable (s : State) (o : Oper) : Bool :=
  o.waiting && o.final.isNone &&
    (ops s).all fun x => !(originPort x.origin == originPort o.origin && before x o)
      || x.final.isSome || (!x.waiting && !flgOrdered o.flg)

/-- The operation that starts next; none starts while the cores are halted (02 R40). -/
def nextStart (s : State) : Option Oper :=
  if s.clk.halt then none
  else ((ops s).filter (startable s)).foldl (fun best o => match best with
    | none => some o
    | some b => if before o b then some o else some b) none

/-! ## Starting an operation -/

/-- An answer of a run stands: the final status, or the interim one (R61). -/
def standAnswer (i : Nat) (a : RunAns) (s : State) : State :=
  match a with
  | .done st b => setFinal i st b s
  | .accepted => modOp i (fun x => { x with interim := some (x.interim.getD stAccepted) }) s
  | .wait => s

/-- A run that wrote its targets: it ended OK, or goes on. -/
def wrote : RunAns → Bool
  | .done st _ => st == stOk
  | _ => true

/-- An operation starts: steps 5 to 14, then its effect, and the windows its writes open (R54, R71; 13 R333). -/
def startOp (o : Oper) (s0 : State) : State :=
  let s := modOp o.id (fun x => { x with waiting := false }) s0
  match opRefusal s o with
  | some r => setFinal o.id r.1 r.2 s
  | none =>
    let w := openWindows s o
    let s1 := if lockU o.op then { s with sec := { s.sec with lockAt := now s } } else s
    let r := runOp o s1
    let s2 := standAnswer o.id r.1 r.2
    if wrote r.1 then pruneWindows { s2 with sprue := { s2.sprue with windows := s2.sprue.windows ++ w } } else s2

/-! ## Replies (R52, R57) -/

/-- NOREPLY suppresses OK, ACCEPTED and DEFER (R52). -/
def suppressed (flg : BitVec 4) (status : Byte) : Bool :=
  flgNoReply flg && (status == stOk || status == stAccepted || status == stDefer)

/-- The error code of BatteryStatus for a status (11 R259). -/
def errCodeOf (st : Byte) : Nat :=
  if st = stOk ∨ st = stAccepted then 0
  else if st = stBusy ∨ st = stNoSlot ∨ st = stDefer ∨ st = stStage ∨ st = stConflict then 1
  else if st = stBadOpc ∨ st = stBadArg then 3
  else if st = stLocked then 4
  else if st = stRange then 5
  else if st = stBadLen then 6
  else 7

/-! ## The SDI-12 line (11 R272, R273; 17 R402) -/

/-- The SDI-12 address in force. -/
def sdiAddr (s : State) : Byte := BitVec.ofNat 8 (prm s 0x0830)

/-- A response, ended by carriage return and line feed: GP2 rises at `t`, one bit time before the first start bit, and falls
one bit time after the last stop bit; a character is a start bit, seven data bits, even parity and a stop bit. The manual
gives a response no instant but its 15 ms limit (DESIGN CHOICE, assumption log 138). -/
def sdiSendAt (t : Nat) (b : List Byte) (s : State) : State :=
  { s with field := { s.field with
      sdiOut := b ++ [0x0D, 0x0A], sdiFrom := t, sdiTo := t + sdiBits (10 * (b.length + 2) + 2), sdiWait := none } }

/-- A response that begins now. -/
def sdiSend (b : List Byte) (s : State) : State := sdiSendAt (now s) b s

/-- The response to aXS or aXN: the address and the next 35 bytes of the reply, or the address alone where none remain; the
reply leaves with the response that carries its last byte (R273; 03 R59). -/
def sdiFetch (s : State) : State :=
  match s.field.sdiReply with
  | none => sdiSend [sdiAddr s] s
  | some b =>
    let t := sdiSend (sdiAddr s :: ((b.take 35).map fun x => hexText 2 x.toNat).flatten)
      { s with field := { s.field with sdiReply := some (b.drop 35) } }
    match s.field.sdiLast with
    | some i => if 35 < b.length then t else replySent i t.field.sdiTo { t with field := { t.field with sdiLast := none } }
    | none => t

/-- An aXS whose reply was not ready within 14 ms has been answered by the address alone (R273). -/
def sdiLapse (s : State) : State :=
  match s.field.sdiWait with
  | some t => if t < now s then sdiSendAt t [sdiAddr s] s else s
  | none => s

/-- The reply of an aXS is ready: the response that waits for it follows. -/
def sdiAnswer (s : State) : State := if s.field.sdiWait.isSome && (sdiLapse s).field.sdiWait.isSome then sdiFetch s else sdiLapse s

/-! ## Where a reply goes -/

/-- A write of generation 1 or 2 that SCL is stretched for has its status within 1 ms: it is acknowledged where that is OK
or ACCEPTED (11 R256). -/
def ackLate (r : Reply) (h : HostPort) (t : Nat) : HostPort :=
  match h.ackWait with
  | some (i, e) => if i = r.opId ∧ t ≤ e then { h with ackWait := none, ack := r.status == stOk || r.status == stAccepted } else h
  | none => h

/-- LAST_STATUS shows the last operation of the field port (11 R268). -/
def lastStatus (opc status : Byte) (f : FieldPort) : FieldPort :=
  { f with lastStatus := 256 * opc.toNat + status.toNat }

/-- The answer of a Modbus request reaches the frame that waits for it. -/
def mbAnswer (r : Reply) (f : FieldPort) : FieldPort :=
  match f.mbWait with
  | some w => if w.opId = r.opId then { f with mbWait := some { w with ans := some r } } else f
  | none => f

/-- A reply goes to its port (R47, R57; 11 R251, R256, R264, R268, R273; 12 R302). A refused write of generation 1 sets REJ. -/
def emit (origin : Origin) (peer : Nat) (quiet : Bool) (r0 : Reply) (s : State) : State :=
  let r := { r0 with ready := now s }
  match origin with
  | .hostNative => if quiet then s else { s with host := { s.host with queue := s.host.queue ++ [r] } }
  | .fieldNative =>
    let f := if quiet then s.field else { s.field with queue := s.field.queue ++ [r] }
    { s with field := lastStatus r.opc r.status f }
  | .gen1 =>
    { s with
      sprue := { s.sprue with answer := some r }
      host := ackLate r { s.host with
        legRej := s.host.legRej || (r.opc != BitVec.ofNat 8 (opCode .gaugeRead)
          && !(r.status == stOk || r.status == stAccepted)) } (now s) }
  | .gen2 =>
    { s with
      sprue := { s.sprue with answer := some r }
      host := ackLate r { s.host with errCode := errCodeOf r.status } (now s) }
  | .modbus =>
    { s with
      sprue := { s.sprue with answer := some r }
      field := lastStatus r.opc r.status (mbAnswer r s.field) }
  | .sdi =>
    if s.field.sdiOp = some r.opId then
      let f := { s.field with sdiReply := some (if quiet then [] else replyBytes r), sdiOp := none }
      sdiAnswer { s with field := lastStatus r.opc r.status f }
    else { s with sprue := { s.sprue with answer := some r }, field := lastStatus r.opc r.status s.field }
  | .link => if quiet then s else queueFrame 0x09 2 (leBytes 4 peer ++ replyBytes r) (some r.opId) s
  | .internal => s

/-- The reply queue of a native host path has room (11 R252). -/
def hasRoom (s : State) (origin : Origin) : Bool := origin != .hostNative || hostRdy s

/-- The reply of an operation with a status. -/
def opReply (o : Oper) (status : Byte) (payload : List Byte) : Reply :=
  ⟨o.id, BitVec.ofNat 8 (opCode o.op), o.tag, status, o.arg, payload, 0⟩

/-- An internal operation that does not end OK is logged (R66, 14 R354). -/
def logInternal (o : Oper) (status : Byte) (s : State) : State :=
  if o.origin = .internal ∧ status ≠ stOk then
    logRaise 0x23 0 (leBytes 1 (opCode o.op) ++ [o.tag, status] ++ leBytes 2 o.argN) s
  else s

/-- An operation of a port that still owes its reply, and comes first in the order of timestamps. -/
def firstOwing (s : State) (p : Port) : Option Oper :=
  ((ops s).filter fun o => originPort o.origin == p && !o.replied).foldl (fun best o => match best with
    | none => some o
    | some b => if o.id < b.id then some o else some b) none

/-- The first reply without a slot of a port, in the order of timestamps. -/
def firstEarly (s : State) (p : Port) : Option Early :=
  (s.sprue.early.filter fun e => originPort e.origin == p).foldl (fun best e => match best with
    | none => some e
    | some b => if e.reply.opId < b.reply.opId then some e else some b) none

/-- The next reply of a port leaves the sequencer, if there is one that no earlier packet's reply holds back (R57). -/
def deliver (p : Port) (s : State) : Option State :=
  let early (e : Early) : Option State :=
    if e.quiet || hasRoom s e.origin then
      some (emit e.origin e.peer e.quiet e.reply
        { s with sprue := { s.sprue with early := s.sprue.early.filter fun x => x.reply.opId != e.reply.opId } })
    else none
  let oper (o : Oper) : Option State :=
    match o.interim, o.final with
    | some st, _ =>
      let quiet := suppressed o.flg st
      if quiet || hasRoom s o.origin then
        some (emit o.origin o.peer quiet (opReply o st []) (modOp o.id (fun x => { x with replied := true }) s))
      else none
    | none, some f =>
      let quiet := suppressed o.flg f.1
      if quiet || hasRoom s o.origin then
        some (freeOp o.id (emit o.origin o.peer quiet (opReply o f.1 f.2) (logInternal o f.1 s)))
      else none
    | none, none => none
  match firstEarly s p, firstOwing s p with
  | some e, some o => if e.reply.opId < o.id then early e else oper o
  | some e, none => early e
  | none, some o => oper o
  | none, none => none

/-- An operation whose reply is ready, but held back by an earlier packet's or by a full queue, hands it over: it holds its
slot only until its final status is reached (R63, R64). -/
def release (s : State) (o : Oper) : State :=
  let add (status : Byte) (payload : List Byte) (t : State) : State :=
    { t with sprue := { t.sprue with
        early := t.sprue.early ++ [⟨o.origin, o.peer, suppressed o.flg status, opReply o status payload⟩] } }
  if o.replied then s
  else
    match o.interim, o.final with
    | some st, _ => add st [] (modOp o.id (fun x => { x with replied := true }) s)
    | none, some f => add f.1 f.2 (freeOp o.id (logInternal o f.1 s))
    | none, none => s

/-- Every such operation. -/
def releaseAll (s : State) : State := (ops s).foldl release s

/-- Replies leave as long as there are any. -/
def deliverAll : Nat → State → State
  | 0, s => s
  | n + 1, s =>
    match [Port.internal, .host, .field, .link].findSome? fun p => deliver p s with
    | some t => deliverAll n t
    | none => s

/-! ## Results (R66, R67) -/

/-- A new host result that asserts HIRQ_N raises cause 3 of SMBALERT# and a Host Notify (11 R262, R263). -/
def hostSignal (r : Result) (s : State) : State :=
  if hirqResult s r then
    { s with host := { s.host with
        alerts := if prm s 0x0801 == 1 && !s.start.hsel then s.host.alerts ++ [3] else s.host.alerts
        notifies :=
          if prm s 0x0802 == 1 && !s.start.hsel then s.host.notifies ++ [(some (r.tag, r.opc), 0)] else s.host.notifies } }
  else s

/-- The final result of an accepted operation is stored, and its slot is free (R63, R66). -/
def storeResult (o : Oper) (f : Byte × List Byte) (s : State) : State :=
  let p := originPort o.origin
  let r : Result := ⟨BitVec.ofNat 8 (opCode o.op), o.tag, f.1, f.2, flgUrgent o.flg⟩
  let l := resultsOf s p ++ [r]
  let t := freeOp o.id (setResults p (l.drop (l.length - 4)) (logInternal o f.1 s))
  let u := if p == .host then hostSignal r t else t
  if p = .field then { u with field := lastStatus (BitVec.ofNat 8 (opCode o.op)) f.1 u.field }
  else if o.origin = .gen2 then { u with host := { u.host with errCode := errCodeOf f.1 } }
  else if o.origin = .gen1 ∧ o.op ≠ .gaugeRead ∧ f.1 ≠ stOk then { u with host := { u.host with legRej := true } }
  else u

/-- Every accepted operation with a final status has its result stored, in the order of their numbers. -/
def storeAll (s : State) : State :=
  (ops s).foldl (fun s o => match o.final with
    | some f => if o.replied then storeResult o f s else s
    | none => s) s

/-! ## Settling -/

/-- An internal packet that waits takes a slot once one is free (R65). -/
def takeHeld (s : State) : State :=
  match s.sprue.held, freeSlot s .internal with
  | o :: r, some i => { s with sprue := { s.sprue with slots := vset s.sprue.slots i (some o), held := r } }
  | _, _ => s

/-- Replies leave, results are stored, waiting packets take their slots, and operations start, until nothing is left to
do. -/
def pump : Nat → State → State
  | 0, s => s
  | n + 1, s =>
    let t := takeHeld (storeAll (releaseAll (deliverAll 16 s)))
    match nextStart t with
    | some o => pump n (startOp o t)
    | none => t

/-- After any event: operations that waited for it end, the sequencer goes on, and actions whose reply has left take
effect (R59). -/
def settle (s0 : State) : State :=
  let s := alarmTrack s0
  let s1 := (ops s).foldl authSettle s
  let s2 := (ops s1).foldl markSettle s1
  runDeferred 8 (pump 32 s2)

/-! ## Arrival (R54, R63) -/

/-- A port passes packets on: Lode runs, Melt has been reached, the field port and the link from Pour on (04 R91), and
the host and field pads are supplied (05 R105). In low power the packet that would wake the part is discarded (05 R120). -/
def portOpen (o : Origin) (s : State) : Bool :=
  let p := originPort o
  lodeOn s && !lowPower s && atLeast s .melt && (!(p == .field || p == .link) || atLeast s .pour)
    && (!(p == .host || p == .field) || s.pwr.vddioOk)

/-- The traffic of a port that would wake the part is discarded, and wakes it where its source is enabled: a transfer to
0x2C or HCS_N, a falling edge on FRX, a break on FSDI (05 R119, R120). -/
def portWake (o : Origin) (s : State) : State :=
  let on := match o with
    | .hostNative => wakeEn s 0
    | .fieldNative => wakeEn s 1
    | .modbus => wakeEn s 1
    | .sdi => wakeEn s 2
    | _ => false
  if lowPower s && s.pwr.vddioOk && on then beginWake s else s

/-- A packet arrives: idleness begins anew, and an enabled wake source cancels a decided entry (05 R117, R118). -/
def arrive (o : Origin) (s : State) : State :=
  let t := entryTouch o s
  if o = .internal then t else { t with pwr := { t.pwr with idleSince := now t } }

/-- A reply without an operation, in its turn among the replies of its port (R56, R57). -/
def refuse (origin : Origin) (peer : Nat) (opc tag status : Byte) (arg : BitVec 16) (s : State) : State :=
  let r : Reply := ⟨s.sprue.nextId, opc, tag, status, arg, [], now s⟩
  { s with sprue := { s.sprue with early := s.sprue.early ++ [⟨origin, peer, false, r⟩], nextId := s.sprue.nextId + 1 } }

/-- A packet that its generation or protocol built carries no TAG of a requester (R55; assumption log 42). -/
def builtOrigin (o : Origin) : Bool := o == .gen1 || o == .gen2 || o == .modbus

/-- The TAG is in flight on this port, or names a stored result (step 4). -/
def tagBusy (s : State) (origin : Origin) (tag : Byte) : Bool :=
  let p := originPort origin
  !builtOrigin origin &&
    ((ops s ++ s.sprue.held).any (fun o => originPort o.origin == p && o.tag == tag && !builtOrigin o.origin)
      || (resultsOf s p).any fun r => r.tag == tag)

/-- Steps 3 and 4, for a packet whose opcode need not be defined: the status that refuses it. -/
def admission (s : State) (origin : Origin) (tag : Byte) : Option Byte :=
  if (freeSlot s (originPort origin)).isNone && origin != .internal then some stNoSlot
  else if tagBusy s origin tag then some stBusy
  else none

/-- The native host path discards a request while its reply queue is full: SPI counts it (11 R252), generation 3 does not
acknowledge it (R261). -/
def queueShut (origin : Origin) (s : State) : Bool := origin == .hostNative && !hostRdy s
def dropRequest (s : State) : State :=
  if s.start.hsel then { s with host := { s.host with hpDrop := satTo 0xFFFFFFFF (s.host.hpDrop + 1) } }
  else { s with host := { s.host with ack := false } }

/-- A packet that passed steps 1 and 2 is stamped now and takes its slot, or is refused (R54, R63, R65). -/
def enter (op : Op) (p : Pkt) (peer : Nat) (s : State) : State :=
  match admission s p.origin p.tag with
  | some st => refuse p.origin peer (BitVec.ofNat 8 (opCode op)) p.tag st p.arg s
  | none =>
    let o : Oper := ⟨s.sprue.nextId, op, p.origin, p.tag, p.flg, p.arg, p.payload, now s, peer, 0, true, false, none, false, none⟩
    let t := { s with sprue := { s.sprue with nextId := s.sprue.nextId + 1 } }
    match freeSlot t (originPort p.origin) with
    | some i => { t with sprue := { t.sprue with slots := vset t.sprue.slots i (some o) } }
    | none => { t with sprue := { t.sprue with held := t.sprue.held ++ [o] } }

/-! ## Packets of one edge (R70) -/

/-- The origin of the packet a command brings at the very edge of the command before it. -/
def edgeOrigin : Instr → Option Origin
  | .ping 0 p => some p.origin
  | .ident 0 p => some p.origin
  | .stage 0 p => some p.origin
  | .reset 0 p => some p.origin
  | .sleep 0 p => some p.origin
  | .wake 0 p => some p.origin
  | .caps 0 p => some p.origin
  | .poll 0 p => some p.origin
  | .cancel 0 p => some p.origin
  | .get 0 p => some p.origin
  | .set 0 p => some p.origin
  | .setBulk 0 p => some p.origin
  | .prtClear 0 p => some p.origin
  | .tampAck 0 p => some p.origin
  | .tampRearm 0 p => some p.origin
  | .annFccA 0 p => some p.origin
  | .commit 0 p => some p.origin
  | .revert 0 p => some p.origin
  | .peek 0 p => some p.origin
  | .poke 0 p => some p.origin
  | .accRead 0 p => some p.origin
  | .trkRead 0 p => some p.origin
  | .accClear 0 p => some p.origin
  | .seqLoad 0 p => some p.origin
  | .seqStart 0 p => some p.origin
  | .flare 0 p => some p.origin
  | .calZero 0 p => some p.origin
  | .calSpan 0 p => some p.origin
  | .calStore 0 p => some p.origin
  | .gaugeRead 0 p => some p.origin
  | .cellRead 0 p => some p.origin
  | .modelLoad 0 p => some p.origin
  | .glintRead 0 p => some p.origin
  | .almRead 0 p => some p.origin
  | .seaState 0 p => some p.origin
  | .schedLoad 0 p => some p.origin
  | .shedSet 0 p => some p.origin
  | .annealRead 0 p => some p.origin
  | .sbCapture 0 p => some p.origin
  | .cmpSet 0 p => some p.origin
  | .cdnSet 0 p => some p.origin
  | .capqRead 0 p => some p.origin
  | .rtcSet 0 p => some p.origin
  | .dgOpen 0 p => some p.origin
  | .dgFeed 0 p => some p.origin
  | .dgDesc 0 p => some p.origin
  | .dgFinish 0 p => some p.origin
  | .dgExport 0 p => some p.origin
  | .dgImport 0 p => some p.origin
  | .authChal 0 p => some p.origin
  | .unlockChal 0 p => some p.origin
  | .unlock 0 p => some p.origin
  | .seal 0 p => some p.origin
  | .keyLoad 0 p => some p.origin
  | .cstRead 0 p => some p.origin
  | .cstConfig 0 p => some p.origin
  | .linkStats 0 p => some p.origin
  | .cstLeave 0 p => some p.origin
  | .logRead 0 p => some p.origin
  | .logMark 0 p => some p.origin
  | .writePacket 0 _ => some .hostNative
  | .sprueBlockSubmit 0 _ _ => some .hostNative
  | .legCtrlSleep 0 => some .gen1
  | .remainingCapacityAlarmWrite 0 _ => some .gen2
  | .remainingTimeAlarmWrite 0 _ => some .gen2
  | .nativeFrame 0 _ _ => some .fieldNative
  | .readHoldingRegisters 0 _ _ _ => some .modbus
  | .readInputRegisters 0 _ _ _ => some .modbus
  | .writeSingleRegister 0 _ _ _ => some .modbus
  | .writeMultipleRegisters 0 _ _ _ _ => some .modbus
  | .sdiExtendedSprue 0 _ _ => some .sdi
  | .sprueReq 0 _ => some .link
  | _ => none

/-- A packet that starts before one of this origin still comes at this same edge (R70). -/
def earlierComes (s : State) (o : Origin) : Bool :=
  ((s.pending.map edgeOrigin).takeWhile Option.isSome).any fun x => match x with
    | some y => decide (startRank y < startRank o)
    | none => false

/-- A packet has arrived: the sequencer goes on, once every packet of this edge that starts before it is there. -/
def closeEdge (o : Origin) (s : State) : State := if earlierComes s o then s else settle s

/-- A Sprue request reaches an open port, and takes its slot or is refused. -/
def arriveOp (op : Op) (p : Pkt) (s : State) : State :=
  let t := arrive p.origin s
  if queueShut p.origin t then dropRequest t else enter op p 0 t

/-- A Sprue request arrives, having passed steps 1 and 2. -/
def submit (op : Op) (p : Pkt) (s : State) : State :=
  if portOpen p.origin s then closeEdge p.origin (arriveOp op p s) else portWake p.origin s

/-- A request that a transfer of generation 1 or 2 or an SDI-12 command turns into a packet (R55): its answer is taken in the
same transfer. -/
def submitNow (op : Op) (p : Pkt) (s : State) : State :=
  if portOpen p.origin s then settle (arriveOp op p s) else portWake p.origin s

/-- The bytes of a request reach an open port through its framing: steps 1 and 2, and step 5 for an undefined opcode (R54,
R56). Over the link a bad CRC gets no reply and is counted (R56, 12 R306). -/
def arriveRaw (origin : Origin) (peer : Nat) (b : List Byte) (s : State) : State :=
  let t := arrive origin s
  let opc := b.getD 1 0
  let p := pktOf origin b
  let arg := BitVec.ofNat 16 (leAt b 4 2)
  if queueShut origin t then dropRequest t
  else if !lenStep b then refuse origin peer opc (b.getD 2 0) stBadLen arg t
  else if !crcStep b then
    if origin = .link then linkCount 14 t else refuse origin peer opc (b.getD 2 0) stBadCrc arg t
  else
    match opOf opc.toNat with
    | some op => enter op p peer t
    | none => refuse origin peer opc p.tag ((admission t origin p.tag).getD stBadOpc) p.arg t

/-- The bytes of a request arrive. -/
def submitRaw (origin : Origin) (peer : Nat) (b : List Byte) (s : State) : State :=
  if portOpen origin s then closeEdge origin (arriveRaw origin peer b s) else portWake origin s

end Sys2Proof.Machine
end

