-- ==== Sys2Proof/Machine/AlmanacCmds.lean ====
section
/-! DEFINITION. The events of the Almanac and of the policy engine (10_almanac_policy.md R225 to R248). -/

namespace Sys2Proof.Machine

/-- Compare channel 5 has fired and the cores run in Cast (R225). -/
def evalDue (s : State) : Bool := fwFired 5 s && tmrRuns s && atLeast s .cast

/-- ALMANAC_EVALUATION (R225). -/
def execAlmanacEvaluation (dt : Nat) (s : State) : Out :=
  act dt (fun s => if evalDue s then settle (almEval (fwTake 5 s)) else s) s

/-- When the energy of a running pulse is next added up (R247). -/
def energyDue (s : State) : Option Nat := if s.pol.dpas && tmrRuns s then some (s.pol.dpasCap + msTicks 100) else none

/-- The latest mean of Bank B's voltage in mV: of the running accumulator, else of the last step (R247). -/
def latestVbb (s : State) : Rat :=
  let a := vget s.sar.acc 17 Acc.empty
  if a.count = 0 then s.gauge.b.volt else accMean a / 5

/-- A capture adds ΔQ_B × VBB; the pulse ends at DPAS_PULSE_MWH (R247). -/
def energyAdd (bits : Bits) (s : State) : State :=
  let t := captureTallies bits (dpasTimeout s)
  if !t.pol.dpas then t
  else
    let mAh := cqGain t .b * (tallyDiff t.cqb.cap t.pol.dpasT : Rat) * countC t .b * (10 / 36)
    let e := t.pol.dpasE - mAh * latestVbb t / 1000
    let u := { t with pol := { t.pol with dpasE := e, dpasCap := now t, dpasT := t.cqb.cap } }
    if (prm u 0x0724 : Rat) ≤ e then endPulse u else u

/-- DPAS_ENERGY_CAPTURE (R247). -/
def execDpasEnergyCapture (bits : Bits) (s : State) : Out := actAt energyDue (fun s => settle (energyAdd bits s)) s

/-- A half-hour boundary of the RTC has been passed (R227). -/
def halfHourDue (s : State) : Bool := atLeast s .pour && !inWatch s && s.tmr.rtcSec / 1800 != s.alm.binIdx

/-- The boundary; before Cast nothing is learned (R225). -/
def halfHourNow (s : State) : State :=
  if !halfHourDue s then s
  else if atLeast s .cast then halfHour s
  else halfHour { s with alm := { s.alm with binStart := none } }

/-- HALF_HOUR_LEARNING (R227). -/
def execHalfHourLearning (dt : Nat) (s : State) : Out := act dt halfHourNow s

/-- 00:00 UTC has been passed (R236). -/
def dayDue (s : State) : Bool := atLeast s .pour && !inWatch s && s.tmr.rtcValid && s.tmr.rtcSec / 86400 != s.alm.dayIdx

/-- The day's last bin ends first; then the day is summed up and the Almanac committed (R232, R236, R246). -/
def dayNow (s : State) : State :=
  if dayDue s then
    let t := dayRoll (halfHourNow s)
    settle (commitInternal (almRecs t) t)
  else s

/-- DAILY_COMMIT (R236). -/
def execDailyCommit (dt : Nat) (s : State) : Out := act dt dayNow s

/-- When the declared duties become stale (R230); a DUTY_AGE of 0 is never (R249). -/
def dutyDue (s : State) : Option Nat :=
  if atLeast s .pour && !s.alm.dutyStale && prm s 0x060D != 0 then some (s.alm.dutyAt + secTicks (86400 * prm s 0x060D)) else none

/-- The duty table is dropped, and Glint no longer arms on its entries (R230). -/
def dutyDrop (s : State) : State :=
  armLead { s with alm := { s.alm with duties := [], dutyStale := true } }

/-- DUTY_STALE (R230). -/
def execDutyStale (s : State) : Out := actAt dutyDue dutyDrop s

/-- When the class in force becomes stale (R231). -/
def seaDue (s : State) : Option Nat :=
  if atLeast s .pour && !s.alm.seaStale then some (s.alm.seaAt + secTicks (60 * prm s 0x060B)) else none

/-- SEA_STALE (R231). -/
def execSeaStale (s : State) : Out := actAt seaDue (fun s => seaSet (prm s 0x060A) true s) s

end Sys2Proof.Machine
end

