-- ==== Sys2Proof/Machine/TamperCmds.lean ====
section
/-! DEFINITION. The commands of the tamper block (14_tamper_quench.md R342 to R352, 04 R99, R100). -/

namespace Sys2Proof.Machine

/-! ## Sampling (R342, R343) -/

/-- The sampling grid of a source as period and one of its edges: SLOW for LID, and for the mesh with Lode off; the probe
period of 8 SLOW ticks; the edges at which the results of the ladder scans stand. -/
def grid (k : TampSrc) (s : State) : Nat × Nat :=
  match k with
  | .ingress => (16000, 0)
  | .temp => (8192 * 250, s.afe.scanAt + 32 * 250)
  | _ => (2000, 0)

/-- The edge at which a source is recognised: a sampling edge of its own; the next CBM edge for GLITCH; at once for CLOCK,
and for the mesh in the SEC domain. -/
def recogniseAt (k : TampSrc) (s : State) : Nat :=
  match k with
  | .glitch => upCbm (now s)
  | .clock => now s
  | .mesh => if meshFine s then now s else upSlow (now s)
  | k => upGrid (grid k s).1 (grid k s).2 (now s)

/-- The samples a source has had since what it shows last changed: a bit of the mesh takes 128 SEC ticks in the SEC
domain. -/
def samples (k : TampSrc) (s : State) : Nat :=
  let a := (srcOf s k).since
  if k == .mesh && meshFine s then now s * 25 / 2048 - a * 25 / 2048 else gridEdges (grid k s).1 (grid k s).2 a (now s)

/-- At least `need` samples in a row, of the `n` told, of those there were. -/
def inRow (k : TampSrc) (n need : Nat) (s : State) : Bool := decide (need ≤ min n (samples k s))

/-- What the window comparators make of LID (R343). -/
def lidOf (mv vreg : Nat) : LidState :=
  if 10 * mv < 3 * vreg then .closed else if 7 * vreg < 10 * mv then .opened else .indeterminate

/-- The event condition of a source holds now (R342): a source already in tamper has no new event. Lode runs while it locks
too; a CLOCK event stands while XTAL_FAIL or LODE_UNLOCK is set. -/
def tamperReal (x : Sensed) (s : State) : Bool :=
  match x with
  | .lid mv vreg n => !s.tamp.lid.inTamper && lidOf mv vreg == .opened && inRow .lid n (prm s 0x0B10) s
  | .mesh n => !s.tamp.mesh.inTamper && inRow .mesh n (prm s 0x0B12) s
  | .ingress g n => !s.tamp.ingress.inTamper && decide (prm s 0x0B13 < g) && inRow .ingress n (prm s 0x0B15) s
  | .glitch step core ns =>
    decide (300 < step) || (s.clk.lode != .off && decide (20 < ns) && decide (core < 750 ∨ 950 < core))
  | .clock => (s.clk.xtalFail || s.clk.lodeUnlock) && !s.tamp.clockSeen
  | .temp k n => !s.tamp.temp.inTamper && decide (k < prm s 0x0B17 ∨ prm s 0x0B18 < k) && inRow .temp n 2 s

/-- The release condition of a source holds now (R342): the probe has stayed dry for PRB_DRY, at 512 periods a second;
GLITCH and CLOCK release at once. -/
def tamperClear (x : Sensed) (s : State) : Bool :=
  match x with
  | .lid mv vreg n => lidOf mv vreg == .closed && inRow .lid n (prm s 0x0B10) s
  | .mesh n => inRow .mesh n (prm s 0x0B12) s
  | .ingress g n => decide (g + prm s 0x0B14 < prm s 0x0B13) && inRow .ingress n (512 * prm s 0x0B16) s
  | .temp k n => decide (prm s 0x0B17 + 50 ≤ k ∧ k + 50 ≤ prm s 0x0B18) && inRow .temp n 2 s
  | _ => true

/-- The value a source's entry carries: conductance or temperature, else 0 (R353). -/
def tamperValue : Sensed → Nat
  | .ingress g _ => g
  | .temp k _ => k
  | _ => 0

/-! ## Events and releases -/

/-- The debounced reading of LID (R343): INDETERMINATE counts its time from its first reading (assumption log 43). -/
def lidReads (v : LidState) (s : State) : State :=
  { s with tamp := { s.tamp with
      lidState := v
      lidSince := if v = .indeterminate then some (s.tamp.lidSince.getD (now s)) else none
      lid := { s.tamp.lid with since := now s } } }

/-- The debounced reading of LID where it has changed to an open or an indeterminate one. -/
def lidSeen (x : Sensed) (s : State) : State :=
  match x with
  | .lid mv vreg n =>
    if inRow .lid n (prm s 0x0B10) s && lidOf mv vreg != .closed && lidOf mv vreg != s.tamp.lidState
    then lidReads (lidOf mv vreg) s else s
  | _ => s

/-- An event: INGRESS drives PRTA_N and PRTB_N, and wakes the part or cancels a decided entry as a protection does (R348; 05
R118, R119; 10 R248). -/
def tamperAt (x : Sensed) (s : State) : State :=
  let s1 := lidSeen x s
  if !tamperReal x s then s1
  else
    let s2 := applyTamper x.src (tamperValue x) s1
    settle (dpasGuard (if x.src = .ingress then beginWake s2 else s2))

/-- The clock source has an event: the flag that raised it has just been set, and the source releases at once, so each is a
new event (R342; 02 R41, R44). -/
def clockEvent (s : State) : State := settle (dpasGuard (applyTamper .clock 0 s))

/-- TAMPER_EVENT (R345): recognised at the sampling edge of its source. -/
def execTamperEvent (dt : Nat) (x : Sensed) (s : State) : Out :=
  act dt (fun s => tamperAt x (elapseTo (recogniseAt x.src s) s)) s

/-- A source whose release condition holds leaves tamper (R342); LID reads CLOSED. -/
def tamperOff (x : Sensed) (s : State) : State :=
  if !tamperClear x s then s
  else
    let s1 := setSrc x.src { srcOf s x.src with inTamper := false, since := now s } s
    if x.src = .lid then lidReads .closed s1 else s1

/-- TAMPER_RELEASE (R342, R348). -/
def execTamperRelease (dt : Nat) (x : Sensed) (s : State) : Out :=
  act dt (fun s => tamperOff x (elapseTo (recogniseAt x.src s) s)) s

/-- The SLOW edge at which an INDETERMINATE reading has lasted LID_INDET_TIME (R99, R342). -/
def lidDue (s : State) : Option Nat :=
  if s.tamp.lidState = .indeterminate ∧ !s.tamp.lid.inTamper then
    s.tamp.lidSince.map fun t => upSlow (t + msTicks (prm s 0x0B11))
  else none

/-- An INDETERMINATE reading becomes a LID event. -/
def lidTimeout (s : State) : State :=
  settle (applyTamper .lid 0 { s with tamp := { s.tamp with lidSince := none } })

/-- LID_INDETERMINATE_TIMEOUT (R99). -/
def execLidIndeterminateTimeout (s : State) : Out := actAt lidDue lidTimeout s

/-- Q2_ERASE_COMPLETE (R369): the erase runs on under BOW, while the NVM domain has edges. -/
def execQ2EraseComplete (dt : Nat) (s : State) : Out :=
  act dt (fun s => if s.tamp.q2Erase && lodeOn s then settle (eraseDone s) else s) s

end Sys2Proof.Machine
end

