-- ==== Sys2Proof/Machine/Clocks.lean ====
section
/-! DEFINITION. The events of the clocks: the crystal monitor, loss of lock, the core watchdogs (02_lode_clock.md R41 to
R44, 04_staged_start.md R78, 01_buoy_system.md R19). -/

namespace Sys2Proof.Machine

/-- CRYSTAL_QUALIFIED (R43, 04 R78): 65 536 good cycles while AON runs from the LFRC. -/
def execCrystalQualified (dt : Nat) (s : State) : Out :=
  act dt (fun s => if s.clk.onLfrc then { s with clk := { s.clk with xtalQual := true } } else s) s

/-- AON runs from the LFRC by a failure: it is flagged and logged, and the clock source of the tamper block has an event
(R41; 14 R342). The link transmits no more (R42); a frame already in transmission runs to its end, which the manual does
not settle (DESIGN CHOICE, assumption log 124). -/
def crystalFailed (cycles : Nat) (s : State) : State :=
  let t := logEvent 0x04 (leBytes 4 cycles)
    { s with clk := { s.clk with xtalFail := true, onLfrc := true, xtalQual := false } }
  clockEvent t

/-- When a crystal that never qualified in this cold start counts as failed (04 R78). -/
def qualifyDue (s : State) : Option Nat :=
  if s.clk.napDue ∧ s.clk.onLfrc ∧ !s.clk.xtalQual then some (secTicks 10) else none

/-- CRYSTAL_QUALIFY_TIMEOUT (04 R78): no nap follows, and R41 to R43 govern from then on. -/
def execCrystalQualifyTimeout (s : State) : Out :=
  actAt qualifyDue (fun s => crystalFailed 0 { s with clk := { s.clk with napDue := false } }) s

/-- A window of 8 LFRC cycles is bad: fewer than 6 or more than 10 crystal edges (R41). -/
def badWindow (edges : Nat) : Bool := decide (edges < 6 ∨ 10 < edges)

/-- Two consecutive bad windows end (R41). While AON runs from the crystal it changes to the LFRC, and the counts of the AON
edges that went missing since the last crystal edge are supplied: `n` LFRC cycles of coarse counting. In fine counting the
TMR edges of the PLL have gone on, so nothing is missing (assumption log 125). While AON runs from the LFRC already the
good cycles are counted anew (R43). -/
def crystalBad (n : Nat) (s : State) : State :=
  if s.clk.onLfrc then { s with clk := { s.clk with xtalQual := false } }
  else crystalFailed n (if tmrRuns s then s else elapseTo (now s + 250 * n) s)

/-- CRYSTAL_FAILURE (R41): two windows end with `w1` and `w2` crystal edges, `lfrcCycles` after the last of them. -/
def execCrystalFailure (dt : Nat) (w1 w2 lfrcCycles : Nat) (s : State) : Out :=
  act dt (fun s => if badWindow w1 && badWindow w2 then crystalBad lfrcCycles s else s) s

/-- LODE_LOCK falls: flagged, logged, an event of the clock source, and both cores re-enter Melt with reason 0x6 (R44). -/
def unlockNow (s : State) : State :=
  let t := logEvent 0x06 (leBytes 1 s.clk.lockTry) { s with clk := { s.clk with lodeUnlock := true } }
  clockEvent (coreReset 6 true t)

/-- LODE_UNLOCK (R44). -/
def execLodeUnlock (dt : Nat) (s : State) : Out := act dt (fun s => if lodeOn s then unlockNow s else s) s

/-- The count of a core's watchdog. -/
def wdCount (core : Core) (s : State) : Nat := match core with | .forgeA => s.tmr.wdA | .forgeB => s.tmr.wdB

/-- CORE_WATCHDOG (01 R19): at an AON edge the watchdog of a released core has counted 65 536 AON ticks without service,
outside a debug halt. When the firmware last served it is the environment's (assumption log 16). -/
def execCoreWatchdog (dt : Nat) (core : Core) (s : State) : Out :=
  act dt (fun s =>
    let t := elapseTo (upAon (now s)) s
    if lodeOn t && t.start.released && !t.clk.halt && decide (65536 ≤ wdCount core t) then coreReset 5 false t else t) s

end Sys2Proof.Machine
end

