-- ==== Sys2Proof/Machine/Debug.lean ====
section
/-! DEFINITION. The debug port: register accesses with an access status, halt and resume (01_buoy_system.md R411,
02_lode_clock.md R37, R40, 16_register_parameter_map.md R385). -/

namespace Sys2Proof.Machine

/-- The words an access covers. -/
def debugWords : DebugOp → Nat
  | .read n => n
  | .write vs => vs.length

/-- An access is a read. -/
def debugIsRead : DebugOp → Bool
  | .read _ => true
  | .write _ => false

/-- The access reads DBG_ID or DBG_STAT alone, which every lock level may (R411). -/
def debugOpenRead (addr : Nat) (op : DebugOp) : Bool := op == .read 1 && (addr == 0x400F0000 || addr == 0x400F0014)

/-- DBG_STAT.LAST (R385): 0 OK, 1 LOCKED, 2 BADARG. An access of several words may not cross a block boundary, and a write
may not touch an offset that no table defines (R411). -/
def debugCheck (addr : Nat) (op : DebugOp) (s : State) : Nat :=
  if debugOpenRead addr op then 0
  else if !(atLeast s .pour && s.sec.lock == .opened) then 1
  else
    match blockOf addr with
    | none => 2
    | some b =>
      let off := addr % 0x10000
      if addr % 4 ≠ 0 ∨ b = 0xC ∨ 0x10000 < off + 4 * debugWords op then 2
      else if !debugIsRead op && (List.range (debugWords op)).any (fun i => !regDefined b (off + 4 * i)) then 2
      else 0

/-- An access ends with its status, held in DBG_STAT.LAST, and the words it returns (R411). -/
def debugEnd (status : Nat) (out : List Nat) (s : State) : State :=
  { s with clk := { s.clk with dbgLast := status, dbgOut := out.map (BitVec.ofNat 32), attachedAt := some (now s) } }

/-- One access (R411): a refused one changes nothing and reads 0; a read has no side effect (00 R8); several words are taken
in ascending order. -/
def debugAccess (addr : Nat) (op : DebugOp) (s : State) : State :=
  let st := debugCheck addr op s
  let b := (blockOf addr).getD 0
  let off := addr % 0x10000
  match op with
  | .read n =>
    debugEnd st ((List.range n).map fun i => if st = 0 then regRead s b (off + 4 * i) else 0) s
  | .write vs =>
    debugEnd st [] (if st = 0 then settle (pokeWords b off (vs.map BitVec.toNat) s) else s)

/-- The debug pads are supplied and the register bus has edges (R37; 05 R105). -/
def debugOn (s : State) : Bool := lodeOn s && s.pwr.vddioOk

/-- DEBUG_ACCESS (R411). -/
def execDebugAccess (dt : Nat) (addr : Word) (op : DebugOp) (s : State) : Out :=
  act dt (fun s => if debugOn s then debugAccess addr.toNat op s else s) s

/-- DEBUG_HALT (02 R37): a write of 1 to HALT through the debug port. -/
def execDebugHalt (dt : Nat) (s : State) : Out :=
  act dt (fun s => if debugOn s then debugAccess 0x400F0010 (.write [1]) s else s) s

/-- DEBUG_RESUME (02 R40): a write of 0 to HALT; the halt ends at the next AON edge. -/
def execDebugResume (dt : Nat) (s : State) : Out :=
  act dt (fun s => if debugOn s then debugAccess 0x400F0010 (.write [0]) s else s) s

end Sys2Proof.Machine
end

