-- ==== Sys2Proof/Machine/StoreOps.lean ====
section
/-! DEFINITION. The Ingot controller: the start of a transaction, reclaiming, word by word writing, word failures, and
what BOW does to work in progress (15_ingot_store.md R360 to R373, 05_supply_and_modes.md R109, R110). -/

namespace Sys2Proof.Machine

/-! ## Choice and checks (R364, R373) -/

/-- The transaction is deferred work of an operation with URGENT (03 R51). -/
def txnUrgent (s : State) (t : Txn) : Bool :=
  match t.opId.bind (opById s) with
  | some o => flgUrgent o.flg
  | none => false

/-- The transaction that comes first: one with URGENT ahead of one without, then the one whose operation has the earlier
timestamp (R364; 03 R51). -/
def txnBefore (s : State) (u t : Txn) : Bool :=
  (txnUrgent s u && !txnUrgent s t) || (txnUrgent s u == txnUrgent s t && decide (u.stamp < t.stamp))

/-- The transaction of a list that is written next. -/
def queueHead (s : State) : List Txn → Option Txn
  | [] => none
  | t :: r =>
    match queueHead s r with
    | none => some t
    | some u => if txnBefore s u t then some u else some t

/-- The transactions that wait: the queue, and those abandoned under BOW or without room, which keep their place in the
order of timestamps (R364; 05 R109). -/
def waitingTxns (s : State) : List Txn := s.nv.queue ++ s.nv.held

/-- A transaction no longer waits. -/
def dequeue (t : Txn) (s : State) : State :=
  if s.nv.queue.contains t then { s with nv := { s.nv with queue := s.nv.queue.erase t } }
  else { s with nv := { s.nv with held := s.nv.held.erase t } }

/-- A transaction ends with NVFAIL before it begins: STORE_BAD, fewer than 34 usable sectors, or more than 4096 live words
(R373). A key copy needs no sector. -/
def storeRefuses (t : Txn) (s : State) : Bool :=
  s.nv.storeBad || (match t.kind with
    | .records => decide (64 - retiredCount s < 34) || decide (4096 < liveAfter s t.recs)
    | .key _ _ _ _ _ => false)

/-! ## Reclaiming (R366) -/

/-- The sectors that records take beyond the head, with the words already used in the sector in hand. -/
def sectorsTaken (recs : List Rec) (used : Nat) : Nat :=
  ((List.range recs.length).foldl (fun (x : Nat × Nat) i =>
    let n := needWords recs i
    if x.2 + n ≤ 128 then (x.1, x.2 + n) else (x.1 + 1, n)) (0, used)).1

/-- The words used of the head sector, as full where the head takes no record. -/
def headUsed (s : State) : Nat :=
  let x := sectorAt s s.nv.head
  if !x.retired && x.recs.all (fun r => r.whole) then x.used else 128

/-- Fewer than two blank sectors would remain ahead of the head after these records (R366). -/
def reclaimDue (recs : List Rec) (s : State) : Bool :=
  decide ((blankAhead s).length < sectorsTaken recs (headUsed s) + 2)

/-- A tombstone with no older record of its key left in the ring outside a sector (R366). -/
def deadTombstone (s : State) (v : Nat) (r : Rec) : Bool :=
  r.typ == 0x10 && r.len == 0 &&
    !(storedAll s).any fun x => x.1 != v && x.2.rcd.typ == r.typ && x.2.rcd.key == r.key

/-- The records a COMPACT transaction copies from a sector (R366). -/
def compactRecs (s : State) (v : Nat) : List Rec :=
  (((liveRecs s).filter fun r => r.1 == v).map fun r => r.2.rcd).filter fun r => !deadTombstone s v r

/-! ## Jobs -/

/-- Put a job in front of those it interrupts. -/
def pushJob (j : Job) (s : State) : State := { s with nv := { s.nv with jobs := j :: s.nv.jobs } }

/-- The job in hand changes, or ends. -/
def setJob (j : Option Job) (s : State) : State :=
  { s with nv := { s.nv with jobs := j.toList ++ s.nv.jobs.drop 1 } }

/-- A transaction begins: it takes the next TXN, and writing its first prepare word is its operation's point of no return
(R363). -/
def beginJournal (t : Txn) (victim : Option Nat) (s : State) : State :=
  let s1 := match t.opId with
    | some i => setPonr i (rearmItems i s)
    | none => s
  pushJob (.journal t s.nv.nextTxn 0 0 victim)
    (beginRec s.nv.nextTxn 0 t.recs { s1 with nv := { s1.nv with nextTxn := (s.nv.nextTxn + 1) % 2 ^ 24 } })

/-- A key copy begins at a copy position; what stood there is gone with its first word (R368). -/
def beginKey (t : Txn) (copy : Nat) (s : State) : State :=
  let s1 := match t.opId with
    | some i => setPonr i s
    | none => s
  pushJob (.keyCopy t copy 0) s1

/-- The sector to be reclaimed is copied forward, or blanked at once where nothing in it is live; a retired one is passed
over (R366). -/
def beginReclaim (v : Nat) (s : State) : State :=
  let recs := compactRecs s v
  if recs ≠ [] then beginJournal ⟨none, now s, .records, recs, false, false⟩ (some v) s
  else if (sectorAt s v).retired then s
  else pushJob (.blank v 0) s

/-- The sector of a committed COMPACT transaction is written blank, unless it is retired (R366). -/
def afterCompact (v : Nat) (s : State) : State := if (sectorAt s v).retired then s else pushJob (.blank v 0) s

/-- The transaction at the head of the queue begins; a reclaim that is due comes first (R364, R366, R373). -/
def startTxn (s : State) : State :=
  match queueHead s (waitingTxns s) with
  | none => s
  | some t =>
    if storeRefuses t s then txnFailed t (dequeue t s)
    else
      match t.kind with
      | .key slot _ _ _ _ => beginKey t (nextCopy s slot) (dequeue t s)
      | .records =>
        match oldestSector s with
        | some v => if reclaimDue t.recs s then beginReclaim v s else beginJournal t none (dequeue t s)
        | none => beginJournal t none (dequeue t s)

/-! ## Completion -/

/-- What a rearm does when its transaction has committed (14 R357): marks, latches and evidence are cleared, the entry is
raised, the level is set, and a core reset follows once the reply has left. -/
def rearmDone (ctr level opId : Nat) (s : State) : State :=
  let origin := match opById s opId with | some o => o.origin | none => .internal
  let s1 := clearMarks s
  let s2 := allSources.foldl (fun s k => setSrc k (clearSource (srcOf s k)) s) s1
  let s3 := logRaise 0x48 (originCode origin) (leBytes 4 ctr ++ leBytes 1 level)
    { s2 with tamp := { s2.tamp with evid := [], rearming := none, rearmCtr := ctr } }
  let s4 := setLevel (lockOfCode level) 4 (originCode origin) s3
  let quiet := match opById s opId with | some o => flgNoReply o.flg | none => true
  { s4 with pwr := { s4.pwr with deferred := s4.pwr.deferred ++ [⟨.rearmReset, opId, origin, now s, none, quiet⟩] } }

/-- The operation of a committed transaction ends OK; the pending entries its COMMIT marked leave the table (R365). -/
def opCommitted (i : Nat) (s : State) : State :=
  let s1 := { s with par := { s.par with pending := s.par.pending.filter fun e => e.mark != some i } }
  let s2 := match s.tamp.rearming with
    | some r => if r.2.2 = i then rearmDone r.1 r.2.1 i s1 else s1
    | none => s1
  setFinal i stOk [] s2

/-- The COMMIT of new settings of the field port starts its wait for an idle port (11 R274). -/
def fieldStored (recs : List Rec) (s : State) : State :=
  if recs.any fun r => r.typ == 0x10 && decide (0x0810 ≤ r.key ∧ r.key ≤ 0x0813) then
    { s with field := { s.field with reconf := some (now s) } }
  else s

/-- A journal transaction has its MARK (R363): its records count; a COMPACT one leaves its victim to be blanked. -/
def journalDone (t : Txn) (txn : Nat) (victim : Option Nat) (s : State) : State :=
  let s1 := { s with nv := { s.nv with lastTxn := txn } }
  match victim with
  | some v => afterCompact v s1
  | none =>
    let s2 := applyCommitted t.recs s1
    match t.opId with
    | some i => opCommitted i (fieldStored t.recs s2)
    | none => s2

/-- A new key in the slot of CST_KEY_SLOT starts the link's counters anew (12 R288, R289). -/
def linkRekey (s : State) : State :=
  commitInternal [counterRec 0 4097] { s with link := { s.link with ctr := 1, rxTable := [] } }

/-- A key copy is whole: the slot is loaded or empty, contexts keyed from it close and their operations end SUPERSEDED, and
KEY_LOAD ends OK (13 R331). -/
def keyDone (t : Txn) (slot copy : Nat) (c : KeyCopy) (s : State) : State :=
  let s1 := putCopy slot copy (some c) s
  let s2 := setKey slot (loadSlot s1 slot) s1
  let hit (n : Nat) : Bool := (ctxAt s n).slot == some slot
  let s3 := (List.range 6).foldl (fun s n => if hit n then setCtx n Ctx.closed s else s) s2
  let s4 := mapOps (fun o =>
    if [Op.dgFeed, .dgDesc, .dgFinish, .dgExport, .dgImport].contains o.op && hit (o.argN % 256) && o.final.isNone
    then { o with final := some (stSuperseded, []) } else o) s3
  let s5 := if slot = s.link.keySlot then linkRekey s4 else s4
  match t.opId with
  | some i => setFinal i stOk [] s5
  | none => s5

/-! ## Word failures (R366, R373) -/

/-- Retire a sector; the retirement is then recorded in both header copies. -/
def retire (v : Nat) (s : State) : State := setSector v { sectorAt s v with retired := true } s

/-- A word of a journal transaction failed: its sector is retired, and the transaction is to be retried after the header
copies are written. -/
def journalFailed (t : Txn) (victim : Option Nat) (s : State) : State :=
  pushJob (.header false 0 (some t) victim) (retire s.nv.head (setJob none s))

/-- A transaction of the journal ends with NVFAIL; with a COMPACT transaction ends the one whose reclaim it served. -/
def journalNvFail (t : Txn) (victim : Option Nat) (s : State) : State :=
  let s1 := txnFailed t s
  match victim, queueHead s1 (waitingTxns s1) with
  | some _, some u => txnFailed u (dequeue u s1)
  | _, _ => s1

/-- Both header copies are dealt with: the retirement stands unless both failed, and the transaction is retried once in the
next blank sector. -/
def headerDone (t : Option Txn) (victim : Option Nat) (s0 : State) : State :=
  let s := { s0 with nv := { s0.nv with storeBad := !s0.nv.hdrA && !s0.nv.hdrB } }
  match t with
  | none => s
  | some t =>
    if s.nv.storeBad || t.failRetry then journalNvFail t victim s
    else beginJournal { t with failRetry := true } victim s

/-! ## One word (R360) -/

/-- A header copy becomes invalid, or valid with the sectors retired now. -/
def setHdr (second ok : Bool) (s : State) : State :=
  let m := retiredNow s
  if second then { s with nv := { s.nv with hdrB := ok, mapB := if ok then m else s.nv.mapB } }
  else { s with nv := { s.nv with hdrA := ok, mapA := if ok then m else s.nv.mapA } }

/-- One more word of a header copy; three words of it change, the two of the map and the CRC (R359). -/
def headerWord (second : Bool) (w : Nat) (t : Option Txn) (victim : Option Nat) (ok : Bool) (s : State) : State :=
  if ok && decide (w + 1 < 3) then setJob (some (.header second (w + 1) t victim)) (setHdr second false s)
  else
    let s1 := setHdr second ok s
    if second then headerDone t victim (setJob none s1) else setJob (some (.header true 0 t victim)) s1

/-- One more word of a journal transaction. -/
def journalWord (t : Txn) (txn i w : Nat) (victim : Option Nat) (ok : Bool) (s0 : State) : State :=
  let s := useWord s0
  if !ok then journalFailed t victim s
  else
    let n := match t.recs[i]? with | some r => r.words | none => 0
    let last := decide (t.recs.length ≤ i + 1)
    if w + 1 < n then setJob (some (.journal t txn i (w + 1) victim)) s
    else if w + 1 = n then
      let s1 := modLast (fun r => { r with whole := true }) s
      if last then setJob (some (.journal t txn i n victim)) s1
      else setJob (some (.journal t txn (i + 1) 0 victim)) (beginRec txn (i + 1) t.recs s1)
    else journalDone t txn victim (setJob none (modLast (fun r => { r with marked := true }) s))

/-- One more word of a key copy; a failed copy is written once more at the next position (R368, R373). -/
def keyWord (t : Txn) (copy w : Nat) (ok : Bool) (s : State) : State :=
  match t.kind with
  | .records => setJob none s
  | .key slot gen wrapped use empty =>
    let s1 := putCopy slot copy (some ⟨gen, use, wrapped, empty, false⟩) s
    if !ok then
      if t.failRetry then txnFailed t (setJob none s1)
      else setJob (some (.keyCopy { t with failRetry := true } ((copy + 1) % 3) 0)) s1
    else if w + 1 < 25 then setJob (some (.keyCopy t copy (w + 1))) s1
    else keyDone t slot copy ⟨gen, use, wrapped, empty, true⟩ (setJob none s1)

/-- One more blank word of a reclaimed sector; a failure retires the sector instead (R366). -/
def blankWord (v w : Nat) (ok : Bool) (s : State) : State :=
  if !ok then setJob (some (.header false 0 none none)) (retire v s)
  else if w + 1 < 128 then setJob (some (.blank v (w + 1))) s
  else setSector v Sector.blank (setJob none s)

/-- One word write of the job in hand has ended. -/
def wordDone (ok : Bool) (s : State) : State :=
  match s.nv.jobs with
  | [] => s
  | .journal t txn i w v :: _ => journalWord t txn i w v ok s
  | .keyCopy t c w :: _ => keyWord t c w ok s
  | .blank v w :: _ => blankWord v w ok s
  | .header x w t v :: _ => headerWord x w t v ok s

/-! ## BOW (R372; 05 R109, R110; 03 R62) -/

/-- The word in progress completes its job (a MARK, or W24 of a key copy), or the job goes on after the release (the blanking
of a sector, a header copy). -/
def lastWord : Job → Bool
  | .journal t _ i w _ =>
    decide (t.recs.length ≤ i + 1) && decide (w = match t.recs[i]? with | some r => r.words | none => 0)
  | .keyCopy _ _ w => w == 24
  | .blank _ _ => true
  | .header _ _ _ _ => true

/-- A transaction held up by BOW: its operation gets DEFER and it waits for its one retry; a retry that BOW cuts off ends
with NVFAIL (03 R62). -/
def bowHeld (t : Txn) (s : State) : State :=
  if t.bowRetry then txnFailed t s
  else deferOp t { s with nv := { s.nv with held := s.nv.held ++ [{ t with bowRetry := true }] } }

/-- The transaction in progress is abandoned after the word in progress; a COMPACT one is formed again when it is due. A
transaction whose word failure is being recorded has no MARK either: it is held with its retry after that failure still to
come, and the header copies go on after the release (05 R109, R110; 03 R62). -/
def bowAbandon (s : State) : State :=
  match s.nv.jobs with
  | [] => s
  | j :: _ =>
    if lastWord j then
      match j with
      | .header x w (some t) none =>
        if t.failRetry then s else bowHeld { t with failRetry := true } (setJob (some (.header x w none none)) s)
      | .header x w (some _) (some _) => setJob (some (.header x w none none)) s
      | _ => s
    else
      match j with
      | .journal t _ _ _ none => bowHeld t (setJob none (useWord s))
      | .journal _ _ _ _ (some _) => setJob none (useWord s)
      | .keyCopy t _ _ => bowHeld t (setJob none s)
      | _ => s

/-- Every queued transaction waits, and its operation gets DEFER (R372). -/
def bowQueue (s : State) : State :=
  let q := s.nv.queue
  q.foldl (fun s t => deferOp t s) { s with nv := { s.nv with queue := q.map fun t => { t with bowRetry := true } } }

end Sys2Proof.Machine
end

