-- ==== Sys2Proof/Machine/FieldCmds.lean ====
section
/-! DEFINITION. The field-port UART: native frames, Modbus RTU, NMEA 0183, transmission and change of settings
(11_host_field_ports.md R264 to R271, R274). -/

namespace Sys2Proof.Machine

/-! ## Shared operations -/

/-- The field port works: Pour reached, Lode on, the pads supplied (04 R91; 05 R105). -/
def fieldUp (s : State) : Bool := lodeOn s && !lowPower s && atLeast s .pour && s.pwr.vddioOk

/-- The ticks of `n` bit times at FP_BAUD (R264). -/
def bitTicks (s : State) (n : Nat) : Nat := n * 8192000 / s.field.baud

/-- The bits of one character: start, eight data bits, stop, and a parity or second stop bit (R264, R274). -/
def charBits (s : State) : Nat := if s.field.frame = 0 then 10 else 11

/-- The ticks of `n` characters. -/
def charTicks (s : State) (n : Nat) : Nat := bitTicks s (n * charBits s)

/-- FRX was active until now; where it is a wake source, it cancels a decided entry (05 R118). -/
def frxActive (s : State) : State :=
  entryTouch .fieldNative { s with field := { s.field with rxAt := now s, activeAt := now s } }

/-- Traffic on FRX in a protocol; in low power it wakes the part and is discarded (05 R119, R120). FRX is ignored while FDE is
high and in NMEA (R264, R270). -/
def frx (proto : Nat) (o : Origin) (f : State → State) (s : State) : State :=
  if fieldUp s then
    if fdePin s || s.field.proto = 2 then s
    else if s.field.proto = proto then f (frxActive s)
    else frxActive s
  else portWake o s

/-- When the last stop bit of a transmission of `n` characters that begins now has left: FDE rises now, FDE_GUARD bit times
before the first start bit (R264). -/
def ftxEnd (n : Nat) (s : State) : Nat := now s + bitTicks s (prm s 0x0815 + n * charBits s)

/-- FTX sends bytes: FDE is high from FDE_GUARD bit times before the first start bit to as long after the last stop bit, and
the port is active until that stop bit (R264). -/
def ftxSend (b : List Byte) (s : State) : State :=
  { s with field := { s.field with
      tx := b, activeAt := ftxEnd b.length s, fdeFrom := now s
      fdeTo := now s + bitTicks s (2 * prm s 0x0815 + b.length * charBits s) } }

/-! ## Native frames (R265) -/

/-- Remove the byte stuffing; a 0x7D right before the closing flag is an error. -/
def unstuff : List Byte → Option (List Byte)
  | [] => some []
  | c :: r =>
    if c = 0x7D then
      match r with
      | [] => none
      | d :: q => (unstuff q).map fun l => (d ^^^ 0x20) :: l
    else (unstuff r).map fun l => c :: l

/-- Add flags and stuffing. -/
def stuff (b : List Byte) : List Byte :=
  [0x7E] ++ (b.flatMap fun c => if c = 0x7E then [0x7D, 0x5E] else if c = 0x7D then [0x7D, 0x5D] else [c]) ++ [0x7E]

/-- A frame is discarded and counted. -/
def frameError (s : State) : State :=
  { s with field := { s.field with frameErr := satTo 0xFFFFFFFF (s.field.frameErr + 1) } }

/-- The characters between two flags: an empty frame is ignored. -/
def nativeRx (chars : List Byte) (charError : Bool) (s : State) : State :=
  if chars.isEmpty && !charError then s
  else
    match charError, unstuff chars with
    | false, some b => if 260 < b.length then frameError s else submitRaw .fieldNative 0 b s
    | _, _ => frameError s

/-- NATIVE_FRAME (R265). -/
def execNativeFrame (dt : Nat) (chars : List Byte) (charError : Bool) (s : State) : Out :=
  act dt (frx 0 .fieldNative (nativeRx chars charError)) s

/-! ## Transmission and settings (R264, R274) -/

/-- FP_TURN character times have passed since FRX was last active, and no transmission runs (R264). -/
def mayTransmit (s : State) : Bool :=
  fieldUp s && decide (s.field.rxAt + charTicks s (prm s 0x0814) ≤ now s) && decide (s.field.fdeTo ≤ now s)

/-- The oldest reply begins to leave; the actions that wait for it follow its last byte (03 R59). -/
def fieldSend (s : State) : State :=
  match s.field.queue, s.field.mbQueue with
  | r :: q, _ =>
    let b := stuff (replyBytes r)
    replySent r.opId (ftxEnd b.length s) (ftxSend b { s with field := { s.field with queue := q } })
  | [], b :: q => ftxSend b { s with field := { s.field with mbQueue := q } }
  | [], [] => s

/-- When the port has been idle for 100 ms after the COMMIT (R274). -/
def reconfDue (s : State) : Option Nat :=
  if fieldUp s then s.field.reconf.map fun t => max t s.field.activeAt + msTicks 100 else none

/-- The committed settings take effect. -/
def reconfigure (s : State) : State :=
  let v (id : Nat) : Nat := leNat (s.par.committedOf id)
  let p := [0x0810, 0x0811, 0x0812, 0x0813].foldl (fun p id => p.setForce id (s.par.committedOf id)) s.par
  { s with
    par := p
    field := { s.field with
      proto := v 0x0810, baud := v 0x0811, frame := v 0x0812, addr := v 0x0813, reconf := none, nmeaAt := now s
      nmeaBankB := false } }

/-- FIELD_PORT_RECONFIGURE (R274). -/
def execFieldPortReconfigure (s : State) : Out := actAt reconfDue reconfigure s

/-! ## Modbus RTU (R266 to R269) -/

/-- A request to this slave; broadcasts are obeyed for writes only (R266). The master no longer awaits the reply of an earlier
frame that is held. -/
def modbus (dt : Nat) (unit : Byte) (broadcast : Bool) (f : State → State) (s : State) : Out :=
  act dt (frx 1 .modbus fun s =>
    if unit.toNat = s.field.addr ∨ (broadcast ∧ unit = 0) then f { s with field := { s.field with mbWait := none } } else s) s

/-- A reply waits to be sent; a broadcast gets none. -/
def mbReply (unit : Byte) (pdu : List Byte) (s : State) : State :=
  if unit = 0 then s
  else
    let b := unit :: pdu
    { s with field := { s.field with mbQueue := s.field.mbQueue ++ [b ++ leBytes 2 (crcModbus b)] } }

/-- An exception reply. -/
def mbExc (unit : Byte) (fc code : Byte) (s : State) : State := mbReply unit [fc ||| 0x80, code] s

/-- The exception of a Sprue status (R269). -/
def excOf (st : Byte) : Byte :=
  if st = stBadArg then 2
  else if st = stRange ∨ st = stBadLen then 3
  else if st = stBusy ∨ st = stNoSlot ∨ st = stDefer ∨ st = stStage ∨ st = stConflict then 6
  else 4

/-- A Sprue request that a Modbus frame stands for, with its answer where it is there at once (03 R55). -/
def mbOp (op : Op) (arg : Nat) (payload : List Byte) (s : State) : Option Reply × State :=
  let t := submit op ⟨.modbus, 0, 0, BitVec.ofNat 16 arg, payload⟩ { s with sprue := { s.sprue with answer := none } }
  (t.sprue.answer, t)

/-- The exception of an answer that refuses the request (R269). -/
def mbFails (a : Reply) : Option Byte :=
  if a.status = stOk ∨ a.status = stAccepted then none else some (excOf a.status)

/-- The frame waits for the answer of the operation its request makes. -/
def mbHold (w : MbWait) (s : State) : State := { s with field := { s.field with mbWait := some w } }

/-- Registers as bytes, the most significant byte first. -/
def regBytes (l : List Nat) : List Byte := (l.map (beBytes 2)).flatten

/-- The two registers of a 32-bit value, high word first. -/
def regs32 (v : Int) : List Nat := [(v / 65536 % 65536).toNat, (v % 65536).toNat]

/-- The input registers 0 to 27, 32 to 49 (R267). -/
def inputReg (s : State) (a : Nat) : Option Nat :=
  let g := s.gauge.snap
  let cast := atLeast s .cast && s.alm.rcd.isSome
  let alm (f : AlmRec → Nat) : Nat := match s.alm.rcd with | some r => if atLeast s .cast then f r else 0xFFFFFFFF | none => 0xFFFFFFFF
  let l : List Nat :=
    [g.recA.flags] ++ regs32 g.recA.volt ++ regs32 g.recA.curr ++ [g.recA.temp, g.recA.rsoc, g.recA.sigma]
      ++ regs32 g.recA.rm ++ regs32 g.recA.fcc ++ [min 65535 (alm AlmRec.autonomy)] ++ regs32 (alm AlmRec.tte)
      ++ regs32 (alm AlmRec.ttr) ++ [shedLevel s, s.alm.sea, if cast then alm AlmRec.sdf else 0xFFFF] ++ regs32 g.recB.volt
      ++ regs32 g.recB.curr ++ regs32 g.recB.rm ++ [g.recB.pasv, 256 * s.start.stage.code + protStat s % 256]
  if a < 28 then l[a]?
  else if 32 ≤ a ∧ a < 48 then some (cellWord s (a - 32))
  else if a = 48 then some (prm s 0x0101 / 65536)
  else if a = 49 then some (prm s 0x0101 % 65536)
  else none

/-- The addresses a request covers. -/
def mbRange (start count : Nat) : List Nat := (List.range count).map fun i => start + i

/-- The reply of a read of input registers. -/
def inputReply (unit : Byte) (l : List Nat) (s : State) : State :=
  mbReply unit ([4, BitVec.ofNat 8 (2 * l.length)] ++ regBytes l) s

/-- Function 0x04 (R267): a GAUGE_READ whose frame draws every register from the snapshot of this instant (03 R55; assumption
log 139). -/
def readInput (unit : Byte) (start count : Nat) (s : State) : State :=
  if count < 1 ∨ 125 < count then mbExc unit 4 3 s
  else
    match (mbRange start count).mapM (inputReg s) with
    | none => mbExc unit 4 2 s
    | some l =>
      let x := mbOp .gaugeRead 0 [] s
      match x.1 with
      | some a =>
        (match mbFails a with
        | some e => mbExc unit 4 e x.2
        | none => inputReply unit l x.2)
      | none => mbHold ⟨unit, 4, s.sprue.nextId, [], [], l, none⟩ x.2

/-- READ_INPUT_REGISTERS (0x04). -/
def execReadInputRegisters (dt : Nat) (unit : Byte) (start count : BitVec 16) (s : State) : Out :=
  modbus dt unit false (readInput unit start.toNat count.toNat) s

/-- A holding register exists (R268). -/
def holdDefined (a : Nat) : Bool := decide (a ≤ 2 ∨ (16 ≤ a ∧ a ≤ 19))

/-- The value of a holding register; the manual gives none for a read of COMMIT (assumption log 2). -/
def holdReg (s : State) (free : Nat) (a : Nat) : Nat :=
  match a with
  | 0 => s.field.paramId
  | 1 => s.field.paramVal / 65536
  | 2 => s.field.paramVal % 65536
  | 16 => s.alm.sea
  | 17 => s.pol.floor
  | 18 => free % 65536
  | _ => s.field.lastStatus

/-- The value a GET has answered is held in registers 1 and 2, extended to 32 bits (R268). -/
def holdValue (a : Reply) (s : State) : State :=
  let v : Int := match prmOf s.field.paramId with | some p => p.value a.payload | none => leNat a.payload
  { s with field := { s.field with paramVal := (v % 4294967296).toNat } }

/-- The reply of a read of holding registers. -/
def holdRead (unit : Byte) (l : List Nat) (s : State) : State :=
  let d := drawNat s
  mbReply unit ([3, BitVec.ofNat 8 (2 * l.length)] ++ regBytes (l.map (holdReg d.2 d.1))) d.2

/-- Function 0x03 (R268): a read that covers register 2 is a GET of the parameter register 0 names. -/
def readHold (unit : Byte) (start count : Nat) (s : State) : State :=
  let l := mbRange start count
  if count < 1 ∨ 125 < count then mbExc unit 3 3 s
  else if !l.all holdDefined then mbExc unit 3 2 s
  else if !l.contains 2 then holdRead unit l s
  else if (match prmOf s.field.paramId with | some p => decide (4 < p.len) | none => false) then mbExc unit 3 3 s
  else
    let x := mbOp .get s.field.paramId [] s
    match x.1 with
    | some a =>
      (match mbFails a with
      | some e => mbExc unit 3 e x.2
      | none => holdRead unit l (holdValue a x.2))
    | none => mbHold ⟨unit, 3, s.sprue.nextId, [], [], l, none⟩ x.2

/-- READ_HOLDING_REGISTERS (0x03). -/
def execReadHoldingRegisters (dt : Nat) (unit : Byte) (start count : BitVec 16) (s : State) : Out :=
  modbus dt unit false (readHold unit start.toNat count.toNat) s

/-- What a write of one holding register comes to: it is stored, it is the Sprue request it stands for, or it is an exception
(R268). -/
inductive HoldAct where
  | stored
  | asks (op : Op) (arg : Nat) (payload : List Byte)
  | exc (code : Byte)
  deriving DecidableEq, Repr

/-- The registers 0 to 2 take what is written to them. -/
def holdStore (a v : Nat) (s : State) : State :=
  match a with
  | 0 => { s with field := { s.field with paramId := v } }
  | 1 => { s with field := { s.field with paramVal := 65536 * v + s.field.paramVal % 65536 } }
  | 2 => { s with field := { s.field with paramVal := s.field.paramVal / 65536 * 65536 + v } }
  | _ => s

/-- What a write of `v` to register `a` comes to, judged once registers 0 to 2 hold what is written. -/
def holdAct (a v : Nat) (s : State) : HoldAct :=
  match a with
  | 0 => .stored
  | 1 => .stored
  | 2 =>
    (match prmOf s.field.paramId with
    | some p => if 4 < p.len then .exc 3 else .asks .set s.field.paramId (leBytes p.len s.field.paramVal)
    | none => .asks .set s.field.paramId (leBytes 4 s.field.paramVal))
  | 16 => .asks .seaState v []
  | 17 => .asks .shedSet v []
  | 18 => if v = 0xC0DE then .asks .commit 0 [] else .exc 3
  | _ => .exc 2

/-- Registers are written in ascending order up to the first exception, each request before the next register; a request
without an answer yet holds the frame (R55, R269). -/
def holdWrites (unit fc : Byte) (ok : List Byte) : List (Nat × Nat) → State → State
  | [], s => mbReply unit (fc :: ok) s
  | (a, v) :: r, s0 =>
    let s := holdStore a v s0
    match holdAct a v s with
    | .stored => holdWrites unit fc ok r s
    | .exc e => mbExc unit fc e s
    | .asks op arg payload =>
      let x := mbOp op arg payload s
      match x.1 with
      | some y =>
        (match mbFails y with
        | some e => mbExc unit fc e x.2
        | none => holdWrites unit fc ok r x.2)
      | none => mbHold ⟨unit, fc, s.sprue.nextId, r, ok, [], none⟩ x.2

/-- A write with its reply. -/
def holdReply (unit fc : Byte) (l : List (Nat × Nat)) (ok : List Byte) (s : State) : State :=
  if !l.all (fun x => holdDefined x.1 && x.1 != 19) then mbExc unit fc 2 s
  else if l.any fun x => x.1 == 18 && x.2 != 0xC0DE then mbExc unit fc 3 s
  else holdWrites unit fc ok l s

/-- The frame that waits goes on once its request is answered (R269). -/
def mbResume (s : State) : State :=
  match s.field.mbWait with
  | none => s
  | some w =>
    match w.ans with
    | none => s
    | some a =>
      let t := { s with field := { s.field with mbWait := none } }
      match mbFails a with
      | some e => mbExc w.unit w.fc e t
      | none =>
        if w.fc = 3 then holdRead w.unit w.addrs (holdValue a t)
        else if w.fc = 4 then inputReply w.unit w.addrs t
        else holdWrites w.unit w.fc w.ok w.regs t

/-- FIELD_REPLY_TRANSMIT (R264). -/
def execFieldReplyTransmit (dt : Nat) (s : State) : Out :=
  act dt (fun s0 => let s := mbResume s0; if mayTransmit s then fieldSend s else s) s

/-- WRITE_SINGLE_REGISTER (0x06). -/
def execWriteSingleRegister (dt : Nat) (unit : Byte) (reg value : BitVec 16) (s : State) : Out :=
  modbus dt unit true
    (holdReply unit 6 [(reg.toNat, value.toNat)] (regBytes [reg.toNat, value.toNat])) s

/-- Function 0x10 (R266, R268). -/
def writeHold (unit : Byte) (start count : Nat) (values : List Nat) (s : State) : State :=
  if count < 1 ∨ 123 < count ∨ values.length ≠ count then mbExc unit 0x10 3 s
  else holdReply unit 0x10 (List.zip (mbRange start count) values) (regBytes [start, count]) s

/-- WRITE_MULTIPLE_REGISTERS (0x10). -/
def execWriteMultipleRegisters (dt : Nat) (unit : Byte) (start count : BitVec 16) (values : List (BitVec 16)) (s : State) :
    Out :=
  modbus dt unit true (writeHold unit start.toNat count.toNat (values.map BitVec.toNat)) s

/-- DIAGNOSTICS (0x08): subfunction 0x0000 returns the query; another is an illegal function (R266). -/
def execDiagnostics (dt : Nat) (unit : Byte) (sub : BitVec 16) (data : List Byte) (s : State) : Out :=
  modbus dt unit false (fun s =>
    if sub = 0 then mbReply unit ([8, 0, 0] ++ data) s else mbExc unit 8 1 s) s

/-- Object `i` of the device identification (R266). -/
def mbObject (s : State) (i : Nat) : List Byte :=
  match i with
  | 0 => ascii "Svetyen"
  | 1 => if Config.variantQX then ascii "MG16-QX" else ascii "MG16-QA"
  | _ => ascii "B-3.1" ++ Config.patchText s.start.patchVer

/-- Function 0x2B with MEI type 0x0E (R266): read code 0x01 streams the objects, 0x04 gives one. -/
def deviceId (unit mei code object : Byte) (s : State) : State :=
  let one (i : Nat) : List Byte := leBytes 1 i ++ leBytes 1 (mbObject s i).length ++ mbObject s i
  let send (ids : List Nat) : State :=
    mbReply unit ([0x2B, 0x0E, code, 0x81, 0, 0] ++ leBytes 1 ids.length ++ (ids.map one).flatten) s
  if mei ≠ 0x0E then mbExc unit 0x2B 1 s
  else if code = 1 then send (if object.toNat ≤ 2 then (List.range 3).drop object.toNat else [0, 1, 2])
  else if code = 4 then (if object.toNat ≤ 2 then send [object.toNat] else mbExc unit 0x2B 2 s)
  else mbExc unit 0x2B 3 s

/-- ENCAPSULATED_INTERFACE_TRANSPORT (0x2B). -/
def execEncapsulatedInterfaceTransport (dt : Nat) (unit mei code object : Byte) (s : State) : Out :=
  modbus dt unit false (deviceId unit mei code object) s

/-- MODBUS_BAD_FRAME (R266, 16 R385): the frame is discarded; a bad CRC is counted. -/
def execModbusBadFrame (dt : Nat) (badCrc : Bool) (s : State) : Out :=
  act dt (frx 1 .modbus fun s =>
    if badCrc then { s with field := { s.field with mbCrcErr := satTo 0xFFFFFFFF (s.field.mbCrcErr + 1) } } else s) s

/-! ## NMEA 0183 (R270, R271) -/

/-- A sentence with its checksum, carriage return and line feed (R270). -/
def nmeaSentence (body : List Byte) : List Byte :=
  ascii "$" ++ body ++ ascii "*" ++ hexText 2 (body.foldl (fun x c => Nat.xor x c.toNat) 0) ++ [0x0D, 0x0A]

/-- UTC as hhmmss, empty while RTC_VALID is clear. -/
def nmeaTime (s : State) : List Byte :=
  let t := s.tmr.rtcSec % 86400
  if s.tmr.rtcValid then decFixed 2 (t / 3600) ++ decFixed 2 (t / 60 % 60) ++ decFixed 2 (t % 60) else []

/-- Fields joined by commas. -/
def commas (l : List (List Byte)) : List Byte := (l.intersperse (ascii ",")).flatten

/-- A temperature of 0.1 K in 0.1 °C. -/
def deciC (t : Nat) : Int := roundFree (((10 * t : Nat) - 27315 : Int) / 10 : Rat)

/-- The battery sentence of a bank. -/
def psvyb (s : State) (b : Bank) : List Byte :=
  let g := match b with | .a => s.gauge.snap.recA | .b => s.gauge.snap.recB
  let aut : List Byte := match s.alm.rcd with
    | some r => if atLeast s .cast && r.autonomy != 0xFFFF then fixText 1 r.autonomy else []
    | none => []
  nmeaSentence (commas
    [ascii "PSVYB", nmeaTime s, hexText 8 (prm s 0x0101), match b with | .a => ascii "A" | .b => ascii "B",
      fixText 3 g.volt, fixText 3 g.curr, fixText 1 (deciC g.temp), fixText 1 g.rsoc, fixText 3 g.rm, aut,
      decText (shedLevel s), hexText 4 g.flags])

/-- The name and the condition of an alarm code (R271). -/
def alarmText : AlarmCode → List Byte
  | .prta => ascii "PRTA"
  | .prtb => ascii "PRTB"
  | .ingress => ascii "INGRESS"
  | .tamper => ascii "TAMPER"
  | .shed => ascii "SHED"
  | .eod => ascii "EOD"
  | .bow => ascii "BOW"

/-- An alarm is active: for TAMPER a latch of ALARM or higher. -/
def alarmOn (s : State) : AlarmCode → Bool
  | .prta => prtA s
  | .prtb => prtB s
  | .ingress => ingressOn s
  | .tamper => allSources.any fun k => match (srcOf s k).latch with | some r => decide (1 ≤ r.code) | none => false
  | .shed => decide (0 < shedLevel s)
  | .eod => s.gauge.eod
  | .bow => s.pwr.bow

/-- The alarm sentence that is due for a code: active at onset and every NMEA_ALM_REP, cleared once at clearance (R271). -/
def alarmMark (s : State) (c : AlarmCode) : Option String :=
  match alarmOn s c, s.field.nmeaAct.find? fun x => x.1 == c with
  | true, none => some "A"
  | true, some x => if x.2 + secTicks (prm s 0x0817) ≤ now s then some "A" else none
  | false, some _ => some "C"
  | false, none => none

/-- The alarm sentence of a code leaves. -/
def nmeaAlarm (c : AlarmCode) (s : State) : State :=
  match alarmMark s c with
  | none => s
  | some mark =>
    let rest := s.field.nmeaAct.filter fun x => x.1 != c
    ftxSend (nmeaSentence (commas
      [ascii "PSVYA", nmeaTime s, hexText 8 (prm s 0x0101), alarmText c, ascii mark]))
      { s with field := { s.field with nmeaAct := if mark = "A" then rest ++ [(c, now s)] else rest } }

/-- The alarm codes (R271). -/
def allAlarms : List AlarmCode := [.prta, .prtb, .ingress, .tamper, .shed, .eod, .bow]

/-- The period has passed, or Bank B's sentence of this period is still to be sent; the alarm sentences that are due leave
first (R270, R271). -/
def nmeaBattery (s : State) : State :=
  let p := secTicks (prm s 0x0816)
  if allAlarms.any fun c => (alarmMark s c).isSome then s
  else if s.field.nmeaBankB then ftxSend (psvyb s .b) { s with field := { s.field with nmeaBankB := false } }
  else if s.field.nmeaAt + p ≤ now s then
    ftxSend (psvyb s .a)
      { s with field := { s.field with
          nmeaAt := s.field.nmeaAt + (now s - s.field.nmeaAt) / p * p, nmeaBankB := bbPresent s } }
  else s

/-- The port may send NMEA: no transmission runs, and FP_TURN has passed (R264). -/
def nmeaUp (s : State) : Bool := mayTransmit s && decide (s.field.proto = 2)

/-- NMEA_BATTERY_SENTENCE (R270). -/
def execNmeaBatterySentence (dt : Nat) (s : State) : Out := act dt (fun s => if nmeaUp s then nmeaBattery s else s) s

/-- NMEA_ALARM_SENTENCE (R271). -/
def execNmeaAlarmSentence (dt : Nat) (code : AlarmCode) (s : State) : Out :=
  act dt (fun s => if nmeaUp s then nmeaAlarm code s else s) s

end Sys2Proof.Machine
end

