-- ==== Sys2Proof/Machine/GaugeCmds.lean ====
section
/-! DEFINITION. The model step and the coulomb commit (09_gauge_model.md R193 to R211, 04_staged_start.md R96, R97). -/

namespace Sys2Proof.Machine

/-- The discharged charge of the step raises the cycle counts (R219). -/
def stepCycles (dt : Rat) (s : State) : State :=
  let mAh (x : Acct) : Rat := x.iStep * dt / 36 * 10
  let t := setAcct .a (cycleStep s (fccA s) (mAh s.gauge.a) s.gauge.a) s
  if bbPresent t then setAcct .b (cycleStep t (fccB t (modelTemp t.gauge.b (now t))) (mAh t.gauge.b) t.gauge.b) t else t

/-- OFFPWR of Bank A clears when every uncertainty has fallen below CAST_SOC_SIGMA (R206); that of Bank B when the RTC is
valid, with the self-discharge of the interval, or an enlarged uncertainty where the record had no valid RTC (R209). -/
def stepOffPower (s : State) : State :=
  let t := if sigmaBelow s (castSigma s) true then setAcct .a { s.gauge.a with offpwr := false } s else s
  let x := t.gauge
  if x.b.offpwr && t.tmr.rtcValid && bbPresent t then
    match x.offRec with
    | some (rtc, k) =>
      { t with gauge := { x with
          sd := x.sd + selfDischarge t k ((t.tmr.rtcSec - rtc : Nat) : Rat)
          offRec := none
          b := { x.b with offpwr := false } } }
    | none =>
      { t with gauge := { x with
          sigBAdd := x.sigBAdd + 2 / 100 * fccB t (modelTemp x.b (now t))
          b := { x.b with offpwr := false } } }
  else t

/-- Orders 1 to 3 with the anchor of a rest that ended with the past step (R193, 10 R237): what the accounting starts
from. -/
def stepBegin (bits : Bits) (s0 : State) : State :=
  let p := stepParams s0
  let c := captureTallies bits (if prm p 0x0527 = prm s0 0x0527 then p else armLead p)
  match annealAnchor s0 (!resting (stepCharge c)) with
  | some socs => closeEvent socs c
  | none => c

/-- Orders 4 to 8 (R193). -/
def stepModel (c : State) : State :=
  let acc (i : Nat) : Acc := vget c.sar.acc i Acc.empty
  let a1 := stepTemps acc (clearFirmware (stepCharge c))
  let a2 := stepGlint (stepRest c a1)
  let a3 := stepOffPower (stepCycles (stepDt c a2) (stepBankB c (stepCells c acc a2)))
  let a4 := annealB c (annealNote a3)
  { a4 with
    cqa := { a4.cqa with satStep := 0 }
    cqb := { a4.cqb with satStep := 0 } }

/-- Order 9: ESTIMATE_CONF, the balancing policy, the snapshot, and what the Almanac notes of the step (R96, R97, R193;
10 R228, R245, R248). -/
def stepEnd (c s : State) : State :=
  let t := { s with start := { s.start with estConf := sigmaBelow s (castSigma s) false } }
  binStep (publish (stepBalance c (dpasGuard t)))

/-- Cast is entered at the end of a step whose uncertainties allow it, or after 120 s; the first evaluation comes before
(R96; 10 R225). -/
def castCheck (s : State) : State :=
  if s.start.stage == .pour && (s.start.estConf || decide (s.start.startBase + secTicks 120 ≤ now s)) then
    let t := almEval s
    armFw 5 (now t + secTicks (prm t 0x0601)) 0x13 { t with start := { t.start with stage := .cast } }
  else s

/-- One model step (R193). -/
def modelStep (bits : Bits) (s : State) : State :=
  let c := stepBegin bits (fwTake 4 s)
  retain (settle (castCheck (stepEnd c (stepModel c))))

/-- Compare channel 4 has fired and the cores run, from Pour on. -/
def stepDue (s : State) : Bool := fwFired 4 s && tmrRuns s && atLeast s .pour

/-- MODEL_STEP (R193). -/
def execModelStep (dt : Nat) (bits : Bits) (s : State) : Out := act dt (fun s => if stepDue s then modelStep bits s else s) s

/-- When the next coulomb transaction falls due (R200). -/
def coulDue (s : State) : Option Nat :=
  if lodeOn s && atLeast s .pour && !s.clk.halt then some (s.gauge.coulAt + secTicks (prm s 0x050C)) else none

/-- The coulomb records are committed; every tenth time the cells with them (R200; 15 R362). -/
def coulNow (s : State) : State :=
  let n := s.gauge.coulN + 1
  let t := { s with gauge := { s.gauge with coulAt := now s, coulN := n } }
  settle (commitInternal (coulRecs t (n % 10 == 0)) t)

/-- COULOMB_COMMIT (R200). -/
def execCoulombCommit (s : State) : Out := actAt coulDue coulNow s

end Sys2Proof.Machine
end

