-- ==== Sys2Proof/Machine/GlintCmds.lean ====
section
/-! DEFINITION. The events of Glint (09_gauge_model.md R212 to R215). -/

namespace Sys2Proof.Machine

/-- The next slice boundary while Glint runs (R212). -/
def sliceDue (s : State) : Option Nat := if s.glint.on && tmrRuns s then s.glint.sliceAt else none

/-- GLINT_SLICE (R212). -/
def execGlintSlice (s : State) : Out := actAt sliceDue glintSliceAt s

/-- The after-window of a bank's event has closed. -/
def eventClosed (b : Bank) (s : State) : Bool := match openOf s b with | some o => o.ended.isSome | none => false

/-- GLINT_EVENT (R214). -/
def execGlintEvent (dt : Nat) (b : Bank) (s : State) : Out :=
  act dt (fun s => if eventClosed b s && tmrRuns s then glintForm b s else s) s

end Sys2Proof.Machine
end

