-- ==== Sys2Proof/Machine/HostCmds.lean ====
section
/-! DEFINITION. The host port: the stage responder, SPI, the three I2C generations, SMBALERT# and Host Notify
(04_staged_start.md R81, R92; 11_host_field_ports.md R250 to R263). -/

namespace Sys2Proof.Machine

/-! ## Shared operations -/

/-- The PORT domain serves the host: Lode runs, Melt is reached, the pads are supplied (R81; 05 R105). -/
def hostUp (s : State) : Bool := lodeOn s && !lowPower s && atLeast s .melt && s.pwr.vddioOk

/-- The stage responder serves the host, from AON tick 16 on (04 R79, R81). -/
def responderLive (s : State) : Bool := s.clk.fllLock && s.pwr.vddioOk && !hostUp s

/-- The four bytes of the stage reply (04 R82). -/
def stageReply (s : State) : List Byte := (0x5D : Byte) :: (stageBytes s).take 3

/-- `n` bytes on the wire: what is there, then 0xFF. -/
def fillTo (n : Nat) (b : List Byte) : List Byte := (b ++ List.replicate n 0xFF).take n

/-- What the MG16 drove in the transaction, and whether it acknowledged its last byte. -/
def driven (out : List Byte) (ack : Bool) (s : State) : State :=
  { s with host := { s.host with out := out, ack := ack, ackWait := none } }

/-- An SPI transfer (R250): HCS_N falling cancels a decided entry; without the port the responder drives the stage reply
and the transfer wakes the part (R81; 05 R118 to R120). -/
def spiTransfer (n : Nat) (f : State → State) (s : State) : State :=
  if !s.start.hsel then s
  else if hostUp s then f (entryTouch .hostNative s)
  else if responderLive s then portWake .hostNative (driven (fillTo n (stageReply s)) true s)
  else s

/-- A write to 0x2C (R260): the responder acknowledges and discards it, and it wakes the part. -/
def gen3Write (f : State → State) (s : State) : State :=
  if s.start.hsel then s
  else if hostUp s then f (entryTouch .hostNative s)
  else if responderLive s then portWake .hostNative (driven [] true s)
  else driven [] false s

/-- A read of 0x2C of `n` bytes, which begins with the write of its command (R260): it too cancels a decided entry and wakes
the part (05 R118, R119). -/
def gen3Read (n : Nat) (f : State → State) (s : State) : State :=
  if s.start.hsel then s
  else if hostUp s then f (entryTouch .hostNative s)
  else if responderLive s then portWake .hostNative (driven (fillTo n ((4 : Byte) :: stageReply s)) true s)
  else driven [] false s

/-- A transaction with 0x2D or 0x0B, answered from a stage on; else its address or command byte is not acknowledged
(R92). -/
def oldGen (from_ : Stage) (f : State → State) (s : State) : State :=
  if s.start.hsel then s
  else if hostUp s && atLeast s from_ then f s
  else driven [] false s

/-- Data with its PEC over the address bytes and the command, where the master reads it (R255). -/
def withPec (pre data : List Byte) (pec : Bool) : List Byte :=
  if pec then data ++ [BitVec.ofNat 8 (pec8 (pre ++ data))] else data

/-- How the PEC of a write was found (R255). -/
inductive PecEnd where
  | good | wrong | missing
  deriving DecidableEq, Repr

/-- The PEC of a write: right, wrong, or absent where PEC_REQ asks for it. -/
def pecCheck (s : State) (body : List Byte) (pec : Option Byte) : PecEnd :=
  match pec with
  | some p => if p.toNat = pec8 body then .good else .wrong
  | none => if prm s 0x0803 = 1 then .missing else .good

/-- A wrong PEC is not acknowledged and counted; a missing one is not acknowledged (R255). -/
def pecRefuse (e : PecEnd) (s : State) : State :=
  match e with
  | .wrong => driven [] false { s with host := { s.host with pecErr := satTo 0xFFFFFFFF (s.host.pecErr + 1) } }
  | _ => driven [] false s

/-! ## Stage responder (04 R81) -/

/-- What a read of the responder returns. -/
def responderRead (n : Nat) (s : State) : State :=
  if !responderLive s then (if hostUp s then s else driven [] false s)
  else if s.start.hsel then portWake .hostNative (driven (fillTo n (stageReply s)) true s)
  else driven (fillTo n ((4 : Byte) :: stageReply s)) true s

/-- STAGE_RESPONDER_READ (R81). -/
def execStageResponderRead (dt : Nat) (n : Nat) (s : State) : Out := act dt (responderRead n) s

/-! ## SPI (R250 to R252) -/

/-- The bytes a packet occupies by its first byte: LEN, where 0 to 4 stand for 256 to 260 (assumption log 40). -/
def packetLen (b : List Byte) : Nat := if byteAt b 0 < 5 then 256 + byteAt b 0 else byteAt b 0

/-- Header 0x50: the packet ends after LEN bytes; fewer bytes fail step 1 (R251). -/
def spiWrite (b : List Byte) (s : State) : State :=
  let out := BitVec.ofNat 8 (spiStatus s) :: List.replicate b.length (0xFF : Byte)
  submitRaw .hostNative 0 (b.take (packetLen b)) (driven out true s)

/-- WRITE_PACKET (R251). -/
def execWritePacket (dt : Nat) (bytes : List Byte) (s : State) : Out :=
  act dt (spiTransfer (bytes.length + 1) (spiWrite bytes)) s

/-- The oldest reply has left the queue (R251; 03 R59). -/
def popReply (s : State) : State :=
  match s.host.queue with
  | [] => s
  | r :: q => settle (replyLeft r.opId { s with host := { s.host with queue := q, readOff := 0 } })

/-- Header 0x52: `n` bytes after the header; the reply leaves when its last byte has been clocked out (R250, R251). -/
def spiRead (n : Nat) (s : State) : State :=
  let st := BitVec.ofNat 8 (spiStatus s)
  match s.host.queue with
  | [] => driven (st :: fillTo n [(0 : Byte)]) true s
  | r :: _ =>
    let t := driven (st :: fillTo n (replyBytes r)) true s
    if (replyBytes r).length ≤ n then popReply t else t

/-- READ_REPLY (R251). -/
def execReadReply (dt : Nat) (n : Nat) (s : State) : Out := act dt (spiTransfer (n + 1) (spiRead n)) s

/-- READ_STATUS (R250). -/
def execReadStatus (dt : Nat) (n : Nat) (s : State) : Out :=
  act dt (spiTransfer (n + 1) fun s => driven (List.replicate (n + 1) (BitVec.ofNat 8 (spiStatus s))) true s) s

/-! ## I2C: timeout and generation 1 (R253, R257) -/

/-- SMBUS_TIMEOUT (R253): the transaction is abandoned, HSDA released, and the timeout counted. -/
def execSmbusTimeout (dt : Nat) (s : State) : Out :=
  act dt (fun s =>
    if !s.start.hsel && hostUp s then
      driven [] false { s with host := { s.host with smbTimeout := satTo 0xFFFFFFFF (s.host.smbTimeout + 1) } }
    else s) s

/-- A request built by generation 1 or 2, with its answer where it is there at once. -/
def built (op : Op) (p : Pkt) (s : State) : Option Reply × State :=
  let t := submitNow op p { s with sprue := { s.sprue with answer := none } }
  (t.sprue.answer, t)

/-- A status that lets a request pass (R256). -/
def passed (r : Reply) : Bool := r.status == stOk || r.status == stAccepted

/-- A write built by generation 1 or 2 (R256): SCL is stretched until its status is there, and it is acknowledged with OK or
ACCEPTED; where no status exists after 1 ms it is acknowledged. -/
def builtRequest (op : Op) (p : Pkt) (s : State) : State :=
  let i := s.sprue.nextId
  let x := built op p s
  match x.1 with
  | some r => driven [] (passed r) x.2
  | none =>
    let t := driven [] true x.2
    { t with host := { t.host with ackWait := some (i, now t + msTicks 1) } }

/-- A read built by generation 1 or 2 (01 R21, R55; 03 R21): a GAUGE_READ of Bank A from Pour on, in Melt a GET of a live
reading; the bytes are drawn from the snapshot of this instant (R254). A read whose operation is refused or has no answer
yet is not acknowledged (DESIGN CHOICE, assumption log 139). -/
def builtRead (o : Origin) (id : Nat) (f : State → State) (s : State) : State :=
  let op : Op := if atLeast s .pour then .gaugeRead else .get
  let x := built op ⟨o, 0, 0, BitVec.ofNat 16 (if atLeast s .pour then 0 else id), []⟩ s
  match x.1 with
  | some r => if passed r then f x.2 else driven [] false x.2
  | none => driven [] false x.2

/-- The byte pointer after one byte (R257). -/
def legNext (p : Nat) : Nat := if p = 0x4F then 0 else (p + 1) % 256

/-- A byte stored in LEG_CTRL (R257). -/
def legCtrl (v : Byte) (s : State) : State :=
  let t := if v.getLsbD 0 then { s with host := { s.host with legRej := false } } else s
  if v = 2 then builtRequest .sleep ⟨.gen1, 0, 0, 0, []⟩ t else driven [] true t

/-- The bytes of a write from the pointer on: only LEG_CTRL takes one, any other is not acknowledged (R257). -/
def legStore : List Byte → State → State
  | [], s => s
  | v :: r, s =>
    if s.host.legPtr = 1 then
      let t := legCtrl v s
      legStore r { t with host := { t.host with legPtr := legNext t.host.legPtr } }
    else driven [] false s

/-- A write sets the pointer with its first byte. -/
def legWrite (b : List Byte) (s : State) : State :=
  match b with
  | [] => driven [] true s
  | p :: r => legStore r (driven [] true { s with host := { s.host with legPtr := p.toNat } })

/-- LEGACY_WRITE (R257). -/
def execLegacyWrite (dt : Nat) (bytes : List Byte) (s : State) : Out := act dt (oldGen .pour (legWrite bytes)) s

/-- LEG_CTRL_CLEAR_REJ (R257): a write of 1 to LEG_CTRL. -/
def execLegCtrlClearRej (dt : Nat) (s : State) : Out := act dt (oldGen .pour (legWrite [1, 1])) s

/-- LEG_CTRL_SLEEP (R257): a write of 2 to LEG_CTRL. -/
def execLegCtrlSleep (dt : Nat) (s : State) : Out := act dt (oldGen .pour (legWrite [1, 2])) s

/-- LEG_STATUS (R257). -/
def legStatus (s : State) : Nat :=
  bit (prtA s) + 2 * bit (prtB s) + 4 * bit (ova s) + 8 * bit (uva s) + 16 * bit s.host.legRej + 32 * bit s.start.estConf
    + 64 * (s.start.stage.code - 1)

/-- The legacy window from 0x00 to 0x4F (R257); a byte without a field reads 0xFF. -/
def legWindow (s : State) : List Byte :=
  let g := s.gauge.snap.recA
  let ff (n : Nat) : List Byte := List.replicate n 0xFF
  let aut : Nat := if atLeast s .cast then (match s.alm.rcd with | some r => r.autonomy | none => 0xFFFF) else 0xFFFF
  leBytes 1 (legStatus s) ++ ff 1 ++ leBytes 2 (min 65535 g.volt) ++ leBytes 2 (sat16 g.curr) ++ leBytes 2 g.temp
    ++ leBytes 1 (percent g.rsoc) ++ ff 1 ++ leBytes 2 (satU16 g.rm) ++ leBytes 2 (satU16 g.fcc) ++ leBytes 2 g.cycles
    ++ ((List.range 8).map fun i => leBytes 2 (cellWord s i)).flatten ++ leBytes 2 aut ++ leBytes 4 (prm s 0x0101)
    ++ ff 26 ++ ((List.range 8).map fun i => leBytes 2 (cellWord s (8 + i))).flatten

/-- `n` bytes from the pointer on. -/
def legBytes (w : List Byte) : Nat → Nat → List Byte × Nat
  | 0, p => ([], p)
  | n + 1, p =>
    let r := legBytes w n (legNext p)
    (w.getD p 0xFF :: r.1, r.2)

/-- A read of generation 1 (R257). -/
def legRead (n : Nat) (s : State) : State :=
  let r := legBytes (legWindow s) n s.host.legPtr
  builtRead .gen1 0 (fun s => driven r.1 true { s with host := { s.host with legPtr := r.2 } }) s

/-- LEGACY_READ (R257). -/
def execLegacyRead (dt : Nat) (n : Nat) (s : State) : Out := act dt (oldGen .pour (legRead n)) s

/-! ## Generation 2 (R258, R259) -/

/-- Read Word of an SBS command (R255, R258). -/
def sbsWord (cmd : Nat) (pec : Bool) (v : Nat) (s : State) : State :=
  driven (withPec [0x16, BitVec.ofNat 8 cmd, 0x17] (leBytes 2 v) pec) true s

/-- Block Read of an SBS command. -/
def sbsBlock (cmd : Nat) (pec : Bool) (b : List Byte) (s : State) : State :=
  driven (withPec [0x16, BitVec.ofNat 8 cmd, 0x17] (leBytes 1 b.length ++ b) pec) true s

/-- A read answered from Pour on, with its value. -/
def sbsRead (dt cmd : Nat) (pec : Bool) (v : State → Nat) (s : State) : Out :=
  act dt (oldGen .pour fun s => builtRead .gen2 0 (sbsWord cmd pec (v s)) s) s

/-- Write Word to SBS_RCA or SBS_RTA (R255, R258): a SET of the parameter. -/
def sbsWrite (cmd id : Nat) (b : List Byte) (s : State) : State :=
  let body := [(0x16 : Byte), BitVec.ofNat 8 cmd] ++ b.take 2
  if b.length < 2 then driven [] true s
  else if 3 < b.length then driven [] false s
  else
    match pecCheck s body b[2]? with
    | .good => builtRequest .set ⟨.gen2, 0, 0, BitVec.ofNat 16 id, b.take 2⟩ s
    | e => pecRefuse e s

/-- REMAINING_CAPACITY_ALARM read (0x01). -/
def execRemainingCapacityAlarmRead (dt : Nat) (pec : Bool) (s : State) : Out := sbsRead dt 0x01 pec (prm · 0x0820) s

/-- REMAINING_CAPACITY_ALARM write (0x01). -/
def execRemainingCapacityAlarmWrite (dt : Nat) (bytes : List Byte) (s : State) : Out :=
  act dt (oldGen .pour (sbsWrite 0x01 0x0820 bytes)) s

/-- REMAINING_TIME_ALARM read (0x02). -/
def execRemainingTimeAlarmRead (dt : Nat) (pec : Bool) (s : State) : Out := sbsRead dt 0x02 pec (prm · 0x0821) s

/-- REMAINING_TIME_ALARM write (0x02). -/
def execRemainingTimeAlarmWrite (dt : Nat) (bytes : List Byte) (s : State) : Out :=
  act dt (oldGen .pour (sbsWrite 0x02 0x0821 bytes)) s

/-- BATTERY_MODE (0x03). -/
def execBatteryMode (dt : Nat) (pec : Bool) (s : State) : Out := sbsRead dt 0x03 pec (fun _ => 0) s

/-- A quantity that generation 2 also answers in Melt, from the live reading there (04 R91, R92). -/
def sbsLive (dt cmd : Nat) (pec : Bool) (id : Nat) (melt : List Byte → Nat) (rec : GaugeRec → Nat) (s : State) : Out :=
  act dt (oldGen .melt fun s => builtRead .gen2 id
    (sbsWord cmd pec (if atLeast s .pour then rec s.gauge.snap.recA else melt (liveReading id s))) s) s

/-- TEMPERATURE (0x08). -/
def execTemperature (dt : Nat) (pec : Bool) (s : State) : Out := sbsLive dt 0x08 pec 0x0405 leNat GaugeRec.temp s

/-- VOLTAGE (0x09). -/
def execVoltage (dt : Nat) (pec : Bool) (s : State) : Out :=
  sbsLive dt 0x09 pec 0x0401 (fun b => min 65535 (leNat b)) (fun g => min 65535 g.volt) s

/-- CURRENT (0x0A). -/
def execCurrent (dt : Nat) (pec : Bool) (s : State) : Out :=
  sbsLive dt 0x0A pec 0x0402 (fun b => sat16 (signed 32 (leNat b))) (fun g => sat16 g.curr) s

/-- AVERAGE_CURRENT (0x0B). -/
def execAverageCurrent (dt : Nat) (pec : Bool) (s : State) : Out :=
  sbsRead dt 0x0B pec (fun s => sat16 s.gauge.snap.recA.avgCurr) s

/-- MAX_ERROR (0x0C). -/
def execMaxError (dt : Nat) (pec : Bool) (s : State) : Out := sbsRead dt 0x0C pec maxErrorPct s

/-- RELATIVE_STATE_OF_CHARGE (0x0D). -/
def execRelativeStateOfCharge (dt : Nat) (pec : Bool) (s : State) : Out :=
  sbsRead dt 0x0D pec (fun s => percent s.gauge.snap.recA.rsoc) s

/-- ABSOLUTE_STATE_OF_CHARGE (0x0E). -/
def execAbsoluteStateOfCharge (dt : Nat) (pec : Bool) (s : State) : Out :=
  sbsRead dt 0x0E pec (fun s => percent s.gauge.snap.recA.asoc) s

/-- REMAINING_CAPACITY (0x0F). -/
def execRemainingCapacity (dt : Nat) (pec : Bool) (s : State) : Out :=
  sbsRead dt 0x0F pec (fun s => satU16 s.gauge.snap.recA.rm) s

/-- FULL_CHARGE_CAPACITY (0x10). -/
def execFullChargeCapacity (dt : Nat) (pec : Bool) (s : State) : Out :=
  sbsRead dt 0x10 pec (fun s => satU16 s.gauge.snap.recA.fcc) s

/-- RUN_TIME_TO_EMPTY (0x11). -/
def execRunTimeToEmpty (dt : Nat) (pec : Bool) (s : State) : Out := sbsRead dt 0x11 pec runToEmpty s

/-- AVERAGE_TIME_TO_EMPTY (0x12). -/
def execAverageTimeToEmpty (dt : Nat) (pec : Bool) (s : State) : Out := sbsRead dt 0x12 pec avgToEmpty s

/-- AVERAGE_TIME_TO_FULL (0x13). -/
def execAverageTimeToFull (dt : Nat) (pec : Bool) (s : State) : Out := sbsRead dt 0x13 pec avgToFull s

/-- BATTERY_STATUS (0x16): the error code is returned and then set to 0 (R259). -/
def execBatteryStatus (dt : Nat) (pec : Bool) (s : State) : Out :=
  act dt (oldGen .pour fun s0 =>
    let s := alarmTrack s0
    builtRead .gen2 0 (fun t =>
      let u := sbsWord 0x16 pec (batteryWord s) t
      { u with host := { u.host with errCode := 0 } }) s) s

/-- CYCLE_COUNT (0x17). -/
def execCycleCount (dt : Nat) (pec : Bool) (s : State) : Out := sbsRead dt 0x17 pec (fun s => s.gauge.snap.recA.cycles) s

/-- DESIGN_CAPACITY (0x18). -/
def execDesignCapacity (dt : Nat) (pec : Bool) (s : State) : Out := sbsRead dt 0x18 pec (fun s => min 65535 (prm s 0x0203)) s

/-- The profile row whose temperature lies nearest 298.15 K. -/
def nearestRow (p : List Byte) : Nat :=
  (List.range 5).foldl (fun best i =>
    if ratAbs (pfTemp p i - 29815 / 100) < ratAbs (pfTemp p best - 29815 / 100) then i else best) 0

/-- DesignVoltage (R258). -/
def designMv (s : State) : Nat :=
  let p := profile s .a
  repNat 65535 ((series s : Rat) * ocv p (1 / 2) (pfTemp p (nearestRow p)))

/-- DESIGN_VOLTAGE (0x19). -/
def execDesignVoltage (dt : Nat) (pec : Bool) (s : State) : Out := sbsRead dt 0x19 pec designMv s

/-- SPECIFICATION_INFO (0x1A). -/
def execSpecificationInfo (dt : Nat) (pec : Bool) (s : State) : Out := sbsRead dt 0x1A pec (fun _ => 0x0031) s

/-- MANUFACTURE_DATE (0x1B). -/
def execManufactureDate (dt : Nat) (pec : Bool) (s : State) : Out := sbsRead dt 0x1B pec (prm · 0x0107) s

/-- SERIAL_NUMBER (0x1C). -/
def execSerialNumber (dt : Nat) (pec : Bool) (s : State) : Out := sbsRead dt 0x1C pec (fun s => prm s 0x0101 % 65536) s

/-- A block read of text, from Pour on. -/
def sbsText (dt cmd : Nat) (pec : Bool) (t : State → List Byte) (s : State) : Out :=
  act dt (oldGen .pour fun s => builtRead .gen2 0 (sbsBlock cmd pec (t s)) s) s

/-- MANUFACTURER_NAME (0x20). -/
def execManufacturerName (dt : Nat) (pec : Bool) (s : State) : Out := sbsText dt 0x20 pec (fun _ => ascii "Svetyen") s

/-- DEVICE_NAME (0x21). -/
def execDeviceName (dt : Nat) (pec : Bool) (s : State) : Out :=
  sbsText dt 0x21 pec (fun _ => if Config.variantQX then ascii "MG16-QX" else ascii "MG16-QA") s

/-- The text of a Bank A chemistry (R258); a code that R258 gives no text has an empty block. -/
def chemText (s : State) : List Byte :=
  match byteAt (profile s .a) 0 with
  | 1 => ascii "LFP"
  | 2 => ascii "NMC"
  | 3 => ascii "LTO"
  | 4 => ascii "PbAc"
  | 5 => ascii "PbAc"
  | _ => []

/-- DEVICE_CHEMISTRY (0x22). -/
def execDeviceChemistry (dt : Nat) (pec : Bool) (s : State) : Out := sbsText dt 0x22 pec chemText s

/-! ## Generation 3 (R260, R261) -/

/-- A block of 0x50 or 0x51: not acknowledged while RDY is clear; a wrong PEC discards the assembly buffer, and so do more
than 260 bytes (R255, R261). -/
def gen3Block (submitIt : Bool) (b : List Byte) (pec : Option Byte) (s : State) : State :=
  let cmd : Byte := if submitIt then 0x50 else 0x51
  let clear (s : State) : State := { s with host := { s.host with asm := [], asmAt := none } }
  if !hostRdy s || b.length = 0 || 255 < b.length then driven [] false s
  else
    match pecCheck s ([0x58, cmd] ++ leBytes 1 b.length ++ b) pec with
    | .wrong => pecRefuse .wrong (clear s)
    | .missing => pecRefuse .missing s
    | .good =>
      let all := s.host.asm ++ b
      if 260 < all.length then driven [] true (clear s)
      else if submitIt then submitRaw .hostNative 0 all (driven [] true (clear s))
      else driven [] true { s with host := { s.host with asm := all, asmAt := some (now s) } }

/-- SPRUE_BLOCK_SUBMIT (0x50). -/
def execSprueBlockSubmit (dt : Nat) (bytes : List Byte) (pec : Option Byte) (s : State) : Out :=
  act dt (gen3Write (gen3Block true bytes pec)) s

/-- SPRUE_BLOCK_APPEND (0x51). -/
def execSprueBlockAppend (dt : Nat) (bytes : List Byte) (pec : Option Byte) (s : State) : Out :=
  act dt (gen3Write (gen3Block false bytes pec)) s

/-- A block read continues where the last completed one stopped; an abandoned one changes nothing (R260, R261). -/
def gen3Reply (completed : Bool) (s : State) : State :=
  match s.host.queue with
  | [] => driven (withPec [0x58, 0x52, 0x59] [0] true) true s
  | r :: _ =>
    let part := ((replyBytes r).drop s.host.readOff).take 255
    let t := driven (withPec [0x58, 0x52, 0x59] (leBytes 1 part.length ++ part) true) true s
    let off := s.host.readOff + part.length
    if !completed then t
    else if (replyBytes r).length ≤ off then popReply t
    else { t with host := { t.host with readOff := off } }

/-- SPRUE_BLOCK_READ (0x52). -/
def execSprueBlockRead (dt : Nat) (completed : Bool) (s : State) : Out := act dt (gen3Read 5 (gen3Reply completed)) s

/-- SPRUE_STATUS_READ (0x53). -/
def execSprueStatusRead (dt : Nat) (pec : Bool) (s : State) : Out :=
  act dt (gen3Read 5 fun s => driven (withPec [0x58, 0x53, 0x59] [BitVec.ofNat 8 (spiStatus s)] pec) true s) s

/-- ASSEMBLY_TIMEOUT (R261). -/
def execAssemblyTimeout (s : State) : Out :=
  actAt (fun s => s.host.asmAt.map fun t => t + msTicks 100)
    (fun s => { s with host := { s.host with asm := [], asmAt := none } }) s

/-! ## SMBALERT# and Host Notify (R262, R263) -/

/-- A read of the Alert Response Address takes the oldest cause. -/
def alertRead (s : State) : State :=
  match s.host.alerts with
  | c :: r =>
    if alertPin s then driven [if c = 3 then 0x58 else 0x16] true { s with host := { s.host with alerts := r } }
    else driven [] false s
  | [] => driven [] false s

/-- ALERT_RESPONSE (R262). -/
def execAlertResponse (dt : Nat) (s : State) : Out :=
  act dt (fun s => if !s.start.hsel && hostUp s then alertRead (alarmTrack s) else s) s

/-- The alarm notification is repeated every 10 s while a bit stays set. -/
def notifyDue (s : State) : State :=
  if s.host.notifies.isEmpty && s.host.alarms != 0 && decide (s.host.notifyAt + secTicks 10 ≤ now s) then
    { s with host := { s.host with notifies := [(none, 0)] } }
  else s

/-- The bytes of a Host Notify to 0x08. -/
def notifyBytes (s : State) (n : Option (Byte × Byte)) : List Byte :=
  match n with
  | some (tag, opc) => [0x10, 0x58, tag, opc]
  | none => [0x10, 0x16] ++ leBytes 2 (batteryWord s)

/-- One attempt at the oldest notification (R263): the third NACK drops it; a lost arbitration keeps it. -/
def notifyTry (e : NotifyEnd) (s0 : State) : State :=
  let s := notifyDue (alarmTrack s0)
  match s.host.notifies with
  | [] => s
  | (n, k) :: r =>
    let t := driven (notifyBytes s n) (e == .acked) s
    let u := if n.isNone && e != .lostArbitration then { t with host := { t.host with notifyAt := now t } } else t
    match e with
    | .acked => { u with host := { u.host with notifies := r } }
    | .lostArbitration => s
    | .nacked =>
      if 2 ≤ k then { u with host := { u.host with notifies := r, hnDrop := satTo 0xFFFFFFFF (u.host.hnDrop + 1) } }
      else { u with host := { u.host with notifies := (n, k + 1) :: r } }

/-- HOST_NOTIFY (R263). -/
def execHostNotify (dt : Nat) (e : NotifyEnd) (s : State) : Out :=
  act dt (fun s => if prm s 0x0802 = 1 ∧ !s.start.hsel ∧ hostUp s then notifyTry e s else s) s

end Sys2Proof.Machine
end

