-- ==== Sys2Proof/Machine/IngotCmds.lean ====
section
/-! DEFINITION. The commands of the Ingot store and of the log (14_tamper_quench.md R353, 15_ingot_store.md). -/

namespace Sys2Proof.Machine

/-- A tamper log entry waits for its commit, which goes ahead of every transaction (R364). -/
def tamperWaits (s : State) : Bool := s.tamp.logWait.any fun e => tamperTyp e.typ

/-- The controller may begin a transaction: the NVM domain runs, Pour has been reached, nothing is being written, no Q2
erase and no tamper log entry goes before it, and BOW is released (R364, R372). -/
def storeIdle (s : State) : Bool :=
  lodeOn s && atLeast s .pour && s.nv.jobs.isEmpty && !s.tamp.q2Erase && !tamperWaits s && !s.pwr.bow

/-- COMMIT_QUEUE_START (R364). -/
def execCommitQueueStart (dt : Nat) (s : State) : Out :=
  act dt (fun s => if storeIdle s then settle (refill (startTxn s)) else s) s

/-- A word of a job is in progress: the NVM domain runs and no Q2 erase and no tamper log entry goes before it; under BOW,
where no entry is committed, only a MARK or the last word of a key copy, begun before (R110, R364, R372; assumption log
23). -/
def wordRuns (s : State) : Bool :=
  lodeOn s && !s.tamp.q2Erase && (if s.pwr.bow then match s.nv.jobs with
    | .journal _ _ _ _ _ :: _ => true
    | .keyCopy _ _ _ :: _ => true
    | _ => false
  else !tamperWaits s)

/-- NV_WORD_WRITE (R360): the word in progress has been read back, after one further write where needed. -/
def execNvWordWrite (dt : Nat) (e : WriteEnd) (s : State) : Out :=
  act dt (fun s => if wordRuns s then settle (refill (wordDone (e != .failed) s)) else s) s

/-- The oldest raised entry is committed (R353). -/
def logStep (s : State) : State :=
  match s.tamp.logWait with
  | [] => s
  | e :: r => logStore e { s with tamp := { s.tamp with logWait := r } }

/-- LOG_ENTRY_COMMIT (R353): from Pour on, with Lode running and BOW released. -/
def execLogEntryCommit (dt : Nat) (s : State) : Out :=
  act dt (fun s => if lodeOn s && atLeast s .pour && !s.pwr.bow then logStep s else s) s

end Sys2Proof.Machine
end

