-- ==== Sys2Proof/Machine/Modes.lean ====
section
/-! DEFINITION. The commands of the power modes: Doze and idle entries, wakes, holds and actions that wait for their reply
(05_supply_and_modes.md R112 to R122, R412; 03_sprue_commands.md R59). -/

namespace Sys2Proof.Machine

/-! ## Scheduled events and holds (R116, 03 R59) -/

/-- A WAKE hold runs. -/
def holdRuns (s : State) : Bool :=
  match s.pwr.hold with
  | .none => false
  | .until t => decide (now s < t)
  | .untilSleep => true

/-- The next beacon and the part's own report slot (12 R294 to R296). -/
def linkEvents (s : State) : List Nat :=
  match s.link.role, s.link.refAt with
  | .pole, _ => [s.link.beaconAt]
  | .member, some r =>
    (r + 8192000 * (s.link.missed + 1))
      :: (match ownEntry s with
        | some e => if s.link.sentBn = some s.link.bn then [] else [r + msTicks (11 + 5 * e)]
        | none => [])
  | .joining, some r => [r + 8192000 * (s.link.missed + 1)]
  | .dim, some r => [r + 8192000 * (s.link.missed + 1)]
  | _, _ => []

/-- The scheduled events still to come: compare matches (the model step among them), countdown zeros, a Routine pass, a
beacon, an own report slot (R116). -/
def eventTimes (s : State) : List Nat :=
  let cs := s.tmr.cmp.toList.filterMap fun c => if cmpEn c.mode then some c.target else none
  let ds := s.tmr.cdn.toList.filterMap fun d => if d.clocked then some (d.zeroAt (!tmrRuns s) s.tmr.base) else none
  let r := match s.sar.routDue with | some t => [t] | none => []
  (cs ++ ds ++ r ++ linkEvents s).filter fun t => decide (now s < t)

/-- The next scheduled event. -/
def nextEvent (s : State) : Option Nat := (eventTimes s).min?

/-! ## Entries (R116, R117, R412) -/

/-- Nothing that R116 names is in progress. -/
def quiet (s : State) : Bool :=
  let windowOpen (o : Option GlintOpen) : Bool := match o with | some g => g.ended.isNone | none => false
  (ops s).isEmpty && s.sprue.held.isEmpty && s.sar.routPos.isNone && (s.sar.burstPos.isNone || s.glint.on)
    && s.sar.flares.isEmpty && !s.sar.calRun && !windowOpen s.glint.openA && !windowOpen s.glint.openB
    && s.nv.queue.isEmpty && s.nv.jobs.isEmpty && !s.tamp.q2Erase && !txOn s && decide (s.link.rxEnd ≤ now s)

/-- The conditions of AUTO_DOZE (R116; R412: none in a debug halt). -/
def mayDoze (s : State) : Bool :=
  prm s 0x0730 == 1 && atLeast s .pour && lodeOn s && !s.clk.halt && s.pwr.mode == .run && s.pwr.entry.isNone && quiet s
    && !s.pwr.loadA && !s.pwr.loadB && !holdRuns s
    && (match nextEvent s with | some t => decide (now s + msTicks (prm s 0x0731) ≤ t) | none => true)

/-- AUTO_DOZE (R116): judged at a SLOW edge. -/
def execAutoDoze (dt : Nat) (s : State) : Out :=
  act dt (fun s =>
    let t := elapseTo (upSlow (now s)) s
    if mayDoze t then decideEntry .doze false t else t) s

/-- When idleness has lasted IDLE_TIME (R117). -/
def idleDue (s : State) : Option Nat :=
  if prm s 0x0732 ≠ 0 ∧ atLeast s .pour ∧ lodeOn s ∧ !s.clk.halt ∧ s.pwr.mode = .run ∧ s.pwr.entry = none ∧ !isMember s
      ∧ !s.pwr.loadA ∧ !s.pwr.loadB ∧ !holdRuns s then
    some (s.pwr.idleSince + secTicks (prm s 0x0733))
  else none

/-- IDLE_SLEEP (R117). -/
def execIdleSleep (s : State) : Out :=
  actAt idleDue (fun s => settle (decideEntry (if prm s 0x0732 = 1 then .watch else .watchL) false s)) s

/-- The conditions of R412: the commit queue is empty and no word is written, BOW has released and every DEFER operation
has ended, no debug halt is in force; the transmitter is off, and a LEAVE that can still be sent has been sent (02 R38;
12 R304). A part that is to doze waits for the end of Glint's pass (09 R212). -/
def entryReady (s : State) : Bool :=
  lodeOn s && s.pwr.mode == .run && !s.clk.halt && s.nv.queue.isEmpty && s.nv.jobs.isEmpty && s.nv.held.isEmpty
    && !s.tamp.q2Erase && !s.pwr.bow && !deferPend s && !txOn s && !(linkLeaving s && canTx s)
    && (s.sar.burstPos.isNone || burstFresh s || s.pwr.entry.all fun e => e.target != .doze)

/-- Doze: Lode and the reference stop, the stage and the state of the part stay; Glint's passes stop (R112; 07 R148; 09 R212;
10 R228). From now on a bank current asserts with the first whole window that stands at WAKE_MA (R119, R123). -/
def enterDoze (s : State) : State :=
  let t := binSpoil (glintPause s)
  { t with
    clk := { t.clk with lode := .off }
    sar := { t.sar with refRdy := false }
    pwr := { t.pwr with mode := .doze, entry := none, sleptAt := now t, loadA := false, loadB := false } }

/-- Watch or Watch-L: the retained block is written (R117), what is not retained is lost, the model stops, a depassivation
pulse ends, and at an entry to Watch AON returns to a qualified crystal (R112, R114; 02 R43; 09 R193, R205; 10 R248). -/
def enterWatch (m : Mode) (s : State) : State :=
  let u := disarmFw 4 (disarmFw 5 (disarmFw 6 (binSpoil (pulseOver s))))
  let t := warmClear (if m = .watch then returnToCrystal u else u)
  retain { t with
    clk := { t.clk with lode := .off }
    pwr := { t.pwr with mode := m, sleptAt := now t, loadA := false, loadB := false }
    start := { t.start with stage := .ember }
    gauge := { t.gauge with sleepT := t.cqa.tally } }

/-- An entry completes now (R412); the handover nap wakes at once (04 R78). -/
def enterNow (e : Entry) (bits : Bits) (s : State) : State :=
  match e.target with
  | .run => s
  | .doze => enterDoze s
  | m =>
    let t := enterWatch m (addBits bits s)
    if e.nap then beginWake { t with clk := { t.clk with napDue := false } } else t

/-- A decided entry completes at this SLOW edge where R412 allows it. -/
def tryEnter (bits : Bits) (s : State) : State :=
  match s.pwr.entry with
  | some e => if entryReady s then enterNow e bits s else s
  | none => s

/-- LOW_POWER_ENTRY (R412). -/
def execLowPowerEntry (dt : Nat) (bits : Bits) (s : State) : Out :=
  act dt (fun s => if s.pwr.entry.isSome then tryEnter bits (elapseTo (upSlow (now s)) s) else s) s

/-- The crystal has qualified and the part is idle in Run after Pour (04 R78). -/
def mayNap (s : State) : Bool :=
  s.clk.napDue && s.clk.xtalQual && s.clk.onLfrc && atLeast s .pour && lodeOn s && s.pwr.mode == .run && !s.clk.halt
    && s.pwr.entry.isNone && (ops s).isEmpty && s.sprue.held.isEmpty && s.link.sending.isNone && s.link.txq.isEmpty
    && !s.link.leaving

/-- HANDOVER_NAP (04 R78): the nap is decided at a SLOW edge, and completes there or where R412 allows it. -/
def execHandoverNap (dt : Nat) (bits : Bits) (s : State) : Out :=
  act dt (fun s =>
    let t := elapseTo (upSlow (now s)) s
    let u := if mayNap t then decideEntry .watch true t else t
    match u.pwr.entry with
    | some e => if e.nap then tryEnter bits u else u
    | none => u) s

/-! ## Wakes (R118 to R121) -/

/-- The SLOW edge at which the part wakes itself for an event at `t`: 2 SLOW ticks before it (R116, R121). -/
def wakeLead (t : Nat) : Nat := (t - 4000) / 2000 * 2000

/-- A wake source asserts in this mode, as far as the state shows it, and is enabled (R119); a carrier on the link has its own
detector (`carrier`). -/
def wakeReal (k : WakeSrc) (s : State) : Bool :=
  match k with
  | .timer => s.tmr.cmp.toList.any (fun c => cmpWake c.mode && c.fired) || s.tmr.cdn.toList.any fun c => cdnWake c.src && c.zero
  | .periodic => inWatch s && prm s 0x0735 != 0 && decide (s.pwr.sleptAt + secTicks (60 * prm s 0x0735) ≤ now s)
  | .scheduler => s.pwr.mode == .doze && (match nextEvent s with | some t => decide (wakeLead t ≤ now s) | none => false)
  | .bankCurrent => s.pwr.loadA || s.pwr.loadB
  | .protection => prtA s || prtB s
  | .tamper => allSources.any fun k => match (srcOf s k).latch with | some r => decide (1 ≤ r.code) | none => false
  | .host => s.pwr.vddioOk && wakeEn s 0
  | .frx => s.pwr.vddioOk && wakeEn s 1
  | .fsdi => s.pwr.vddioOk && wakeEn s 2
  | .tin0 => s.pwr.vddioOk && wakeEn s 3
  | .tin1 => s.pwr.vddioOk && wakeEn s 4
  | .link _ => false

/-- A wake source acts: it starts Lode, or in Run cancels a decided entry (R118, R119). -/
def wakeBy (k : WakeSrc) (s : State) : State := if wakeReal k s then beginWake s else s

/-- The scheduled wake of a dozing part (R116, R121): time passes to the SLOW edge 2 SLOW ticks before the next scheduled
event, or where that has gone by to the next SLOW edge, and Lode starts there. -/
def wakeScheduled (s : State) : State :=
  match s.pwr.mode, nextEvent s with
  | .doze, some e =>
    let t := elapseTo (max (wakeLead e) (upSlow (now s))) s
    if t.pwr.mode = .doze then wakeBy .scheduler t else t
  | _, _ => s

/-- The mode whose carrier detector acts: the mode the part is in, or in Run the one it has decided to enter (R118). -/
def carrierMode (s : State) : Mode :=
  match s.pwr.mode, s.pwr.entry with
  | .run, some e => e.target
  | m, _ => m

/-- When a carrier that begins now and lasts `len` ticks wakes the part (12 R287): in Doze, at the AON edge after 10 ms of
it; in Watch-L, at the end of the third whole window of 32 AON ticks in a row. That the windows open at the AON ticks
that 256 divides is a DESIGN CHOICE (assumption log 145). -/
def carrierDue (s : State) (len : Nat) : Option Nat :=
  match carrierMode s with
  | .doze => if 81920 ≤ len then some (upAon (now s + 81920)) else none
  | .watchL =>
    let third := (now s + 63999) / 64000 * 64000 + 2 * 64000 + 32 * 250
    if third ≤ now s + len then some third else none
  | _ => none

/-- A carrier on the link wakes the part, which then holds Run for 1.000 s; in Run it cancels a decided entry (R118; 12
R287). -/
def carrier (len : Nat) (s : State) : State :=
  match carrierDue s len with
  | none => s
  | some t =>
    let u := elapseTo t s
    if !linkEn u || carrierMode u != carrierMode s then u
    else if lowPower u then holdRun (now u + secTicks 1) (beginWake u)
    else beginWake u

/-- A wake source of any kind: a scheduled wake has its SLOW edge, a wake by the link its carrier and its hold (R119, R121;
12 R287). -/
def wakeAny (k : WakeSrc) (s : State) : State :=
  match k with
  | .scheduler => wakeScheduled s
  | .link len => carrier len s
  | k => wakeBy k s

/-- WAKE_SOURCE (R119). -/
def execWakeSource (dt : Nat) (k : WakeSrc) (s : State) : Out := act dt (wakeAny k) s

/-- SCHEDULED_WAKE (R116, R121). -/
def execScheduledWake (dt : Nat) (s : State) : Out := act dt wakeScheduled s

/-- WATCH_WAKE minutes after an entry to Watch or Watch-L (R119). -/
def periodicDue (s : State) : Option Nat :=
  if inWatch s ∧ prm s 0x0735 ≠ 0 then some (upAon (s.pwr.sleptAt + secTicks (60 * prm s 0x0735))) else none

/-- PERIODIC_WAKE (R119). -/
def execPeriodicWake (s : State) : Out := actAt periodicDue (fun s => if inWatch s then beginWake s else s) s

/-! ## Holds and deferred actions (03 R59) -/

/-- WAKE_HOLD_EXPIRY. -/
def execWakeHoldExpiry (s : State) : Out :=
  actAt (fun s => match s.pwr.hold with | .until t => some t | _ => none)
    (fun s => { s with pwr := { s.pwr with hold := .none } }) s

/-- DEFERRED_ACTION (R59): every action whose reply counts as having left takes effect. -/
def execDeferredAction (dt : Nat) (s : State) : Out := act dt (fun s => if lodeOn s then settle s else s) s

end Sys2Proof.Machine
end

