-- ==== Sys2Proof/Machine/LinkCmds.lean ====
section
/-! DEFINITION. The commands of the Criuc link: the join listen, scheduled and CSMA frames, collisions, succession, and
the reception of each type of frame (12_criuc_link.md R279 to R313). -/

namespace Sys2Proof.Machine

/-! ## Periods -/

/-- The start of a scheduled frame (R286): at its instant `due` where the medium is idle, else 48 µs after the next idle,
and only if it ends by the end of its window; none where it does not start. An instant that has gone by starts nothing. -/
def schedStart (due window ticks : Nat) (m : Medium) (s : State) : Option Nat :=
  let k := busySyms m s
  let b := if k = 0 then due else due + usTicks (8 * k + 48)
  if now s ≤ due ∧ b + ticks ≤ window then some b else none

/-- A scheduled instant at which the frame does not start: it is skipped for this period (R286). -/
def txSkip (s : State) : State := linkCount 4 s

/-! ## Joining (R291) -/

/-- A JOIN waits for the medium; its payload is formed at its B1 start. -/
def queueJoin (s : State) : State :=
  queueFrame 0x03 5 [] none { s with link := { s.link with role := .joining, joinAge := 0 } }

/-- The listen and the wait have ended without a beacon. -/
def foundDue (s : State) : Bool :=
  decide (s.link.listenAt + 2 * period + serialOf s % 8 * msTicks 125 ≤ now s)

/-! ## Scheduled frames (R286, R294, R295) -/

/-- A scheduled frame of a type that a brown-out warning stopped, with the queue without it (05 R111). -/
def keptFrame (typ : Nat) (s : State) : Option (TxFrame × List TxFrame) :=
  (s.link.txq.find? fun f => f.typ == typ).map fun f => (f, s.link.txq.filter fun g => g.typ != typ)

/-- A stopped frame goes through medium access again, inside its window `window`, else it is skipped (05 R111; R286). It
keeps its counter. -/
def sendAgain (m : Medium) (f : TxFrame) (q : List TxFrame) (window : Nat) (prep : TxFrame → State → TxFrame × State)
    (s : State) : State :=
  let t := { s with link := { s.link with txq := q } }
  match schedStart f.readyAt window (frameTicks f.typ f.payload.length) m s with
  | some b =>
    let u := elapseTo b t
    let p := prep f u
    if canTx u then startFrame p.1 p.2 else txSkip u
  | none => txSkip t

/-- A beacon sent again begins its period where its B1 now begins, and carries the RTC of that instant (R294; DEDUCED,
assumption log 143). -/
def beaconAnew (f : TxFrame) (s : State) : TxFrame × State :=
  let t := { s with link := { s.link with refAt := some (now s), lastBeacon := some (now s), blockAt := now s } }
  ({ f with payload := f.payload.take 7 ++ leBytes 4 s.tmr.rtcSec ++ leBytes 2 s.tmr.rtcSub ++ f.payload.drop 13 }, t)

/-- The Pole's beacon at its scheduled instant: it starts, or is skipped for this period (R286, R294). -/
def beaconNow (m : Medium) (s : State) : State :=
  let skip (s : State) : State := txSkip { s with link := { s.link with beaconAt := s.link.beaconAt + period } }
  let len := if pvOf s = 1 then 89 else 111
  match schedStart s.link.beaconAt (s.link.beaconAt + msTicks 10) (frameTicks 1 len) m s with
  | some b =>
    let t := elapseTo b s
    if canTx t then sendBeacon t else skip t
  | none => skip s

/-- A constellation is founded: the part is its Pole, and the instant of its first beacon, number 0, is now (R291). -/
def founded (s : State) : State :=
  let t := { s with link := { s.link with roster := rosterOf [], stars := [], split := false, bn := 2 ^ 32 - 1 } }
  becomePole (now t) t

/-- The listen ends: the JOIN waits for the medium, or the first beacon of a constellation is due, which goes by R286 (R291;
assumption log 93). -/
def listenEnd (m : Medium) (s : State) : State :=
  if s.link.role ≠ .listening then s
  else if s.link.heard then (if s.link.listenAt + 2 * period ≤ now s then queueJoin s else s)
  else if foundDue s && canTx s then beaconNow m (founded s)
  else s

/-- JOIN_LISTEN_END (R291). -/
def execJoinListenEnd (dt : Nat) (m : Medium) (s : State) : Out := act dt (listenEnd m) s

/-- BEACON_TRANSMIT. -/
def execBeaconTransmit (dt : Nat) (m : Medium) (s : State) : Out :=
  act dt (fun s =>
    if !canTx s then s
    else
      match keptFrame 1 s with
      | some (f, q) => sendAgain m f q (s.link.beaconAt - period + msTicks 10) beaconAnew s
      | none => if s.link.role = .pole then beaconNow m s else s) s

/-- The base value of the reference and the own slot, when this period's report is still due (R295). -/
def reportDue (s : State) : Option (Nat × Nat) :=
  match s.link.refAt, ownEntry s with
  | some r, some i => if isMember s && canTx s && s.link.sentBn != some s.link.bn then some (r, i) else none
  | _, _ => none

/-- The end of slot `i` of the period with reference `r` (R294). -/
def slotEnd (r i : Nat) : Nat := r + msTicks (15 + 5 * i)

/-- The report starts its B1; its sender keeps it as its own last report. -/
def sendReport (s : State) : State :=
  let b := reportBytes s
  let own := { starOf s (serialOf s) with report := some b, reportBn := some s.link.bn }
  startFrame (newFrame s 0x02 0 b none) (putStar own s)

/-- The report of this period starts, or is skipped. -/
def reportNow (m : Medium) (r i : Nat) (s0 : State) : State :=
  let s := { s0 with link := { s0.link with sentBn := some s0.link.bn } }
  match schedStart (r + msTicks (11 + 5 * i)) (slotEnd r i) (frameTicks 2 20) m s with
  | some b =>
    let t := elapseTo b s
    if canTx t then sendReport t else txSkip t
  | none => txSkip s

/-- A report that a brown-out warning stopped has the rest of its slot; one of an earlier period has none (05 R111). -/
def reportWindow (s : State) : Nat :=
  match s.link.refAt, ownEntry s with
  | some r, some i => if s.link.sentBn = some s.link.bn then slotEnd r i else 0
  | _, _ => 0

/-- REPORT_TRANSMIT. -/
def execReportTransmit (dt : Nat) (m : Medium) (s : State) : Out :=
  act dt (fun s =>
    match keptFrame 2 s with
    | some (f, q) => if canTx s then sendAgain m f q (reportWindow s) (fun f s => (f, s)) s else s
    | none => match reportDue s with | some (r, i) => reportNow m r i s | none => s) s

/-! ## Aggregate (R296, R297, R300, R308) -/

/-- A listed Star whose report of this period is missing. -/
def missReport (s : State) (x : Nat) : State :=
  let st := starOf s x
  if st.reportBn = some s.link.bn then putStar { st with missed := 0 } s
  else if s.link.bn < st.listedBn then s
  else if 8 ≤ st.missed + 1 then strike x s
  else putStar { st with missed := st.missed + 1 } s

/-- Some report of the last 3 periods shows CFG_NEED. -/
def cfgWanted (s : State) : Bool :=
  (others s).any fun x =>
    let st := starOf s x
    match st.report, st.reportBn with
    | some r, some n => decide (s.link.bn ≤ n + 3) && decide (byteAt r 0 / 16 % 2 = 1)
    | _, _ => false

/-- The Pole sends CFG at most once every 8 periods (R300). -/
def sendCfg (s : State) : State :=
  let free := match s.link.cfgSentBn with | some n => decide (n + 8 ≤ s.link.bn) | none => true
  match s.link.cfg with
  | some b => if cfgWanted s && free then queueFrame 0x06 4 b none { s with link := { s.link with cfgSentBn := some s.link.bn } } else s
  | none => s

/-- The slots have ended: reports are judged, and the block for the next beacon is formed. -/
def formNow (s : State) : State :=
  let t := sendCfg ((others s).foldl missReport s)
  { t with link := { t.link with formed := some (formBlock t), splitAge := min 4 (t.link.splitAge + 1) } }

/-- 90 ms after the reference, once in each period. -/
def formDue (s : State) : Bool :=
  s.link.role == .pole && s.link.formed.isNone
    && (match s.link.refAt with | some r => decide (r + msTicks 90 ≤ now s) | none => false)

/-- AGGREGATE_FORM. -/
def execAggregateForm (dt : Nat) (s : State) : Out := act dt (fun s => if formDue s then formNow s else s) s

/-! ## CSMA (R284, R285) -/

/-- A JOIN is formed at its first start (R291). -/
def formJoin (s : State) (f : TxFrame) : TxFrame := if f.typ = 3 ∧ f.ctr.isNone then { f with payload := joinBytes s } else f

/-- A frame whose instant went by while the part could not transmit takes now as its reference (DESIGN CHOICE: the spec
does not say; assumption log 142). -/
def csmaRenew (s : State) : State :=
  let late (f : TxFrame) : TxFrame := if 2 < f.typ ∧ csmaDue s f < now s then { f with readyAt := now s } else f
  { s with link := { s.link with txq := s.link.txq.map late } }

/-- At the instant of frame `i` of the queue: on an idle medium it starts its B1; else the next idle is the new reference
of every frame that waits. -/
def csmaAt (m : Medium) (i : Nat) (f : TxFrame) (s : State) : State :=
  if !canTx s then s
  else if busySyms m s = 0 then
    startFrame (formJoin s f) { s with link := { s.link with txq := s.link.txq.eraseIdx i } }
  else { s with link := { s.link with idleAt := now s + usTicks (8 * busySyms m s) } }

/-- Time passes to the instant of the frame that is first to start. -/
def csmaStart (m : Medium) (s0 : State) : State :=
  if !canTx s0 then s0
  else
    let s := csmaRenew s0
    match nextFrame s s.link.txq with
    | some (i, f) => csmaAt m i f (elapseTo (csmaDue s f) s)
    | none => s

/-- CSMA_FRAME_START. -/
def execCsmaFrameStart (dt : Nat) (m : Medium) (s : State) : Out := act dt (csmaStart m) s

/-- The frame in transmission ends here, and its energy with it. -/
def txStops (s : State) : State := mediumEnds { s with link := { s.link with sending := none, txEnd := none } }

/-- A collision in B1: B2 is suppressed; a CSMA frame backs off, with r drawn from 0 to 2^n − 1 after its n-th collision, or
is dropped after its seventh (R284). Which r is drawn the spec leaves open (a free value; assumption log 2). -/
def collideB1 (f : TxFrame) (s : State) : State :=
  let t := linkCount 1 (txStops s)
  if f.typ ≤ 2 then t
  else if 7 ≤ f.tries + 1 then linkCount 2 t
  else
    let d := drawNat t
    let g := { f with tries := f.tries + 1, back := d.1 % 2 ^ (f.tries + 1), readyAt := now t }
    { d.2 with link := { d.2.link with txq := g :: d.2.link.txq } }

/-- An energy exceeds the own level by LINK_CD dB (R285): the levels are amplitudes, 20 dB to the decade (DEDUCED;
assumption log 147). -/
def exceeds (cd own e : Nat) : Bool := decide (own ^ 20 * 10 ^ cd < e ^ 20)

/-- Two consecutive symbols are too loud (R285). -/
def collides (e : Echo) (s : State) : Bool :=
  exceeds (prm s 0x0905) e.own e.first && exceeds (prm s 0x0905) e.own e.second

/-- The burst on the air at LINK tick `n` of a frame: its first tick and its length in symbols; none in the gap and after B2
(R277). -/
def burstOn (f : TxFrame) (n : Nat) : Option (Nat × Nat) :=
  let one := burstUs (preSyms f.typ false) f.payload.length
  let two := burstUs 6 f.payload.length
  if n < linkTicks one then some (0, one / 8)
  else if secondAt f ≤ n ∧ n < secondAt f + linkTicks two then some (secondAt f, two / 8)
  else none

/-- The base value at which the symbol ends that is on the air now (R276, R285). -/
def symbolEnd (s : State) (first : Nat) : Nat :=
  s.link.txAt + (first + 4096 * (symbolAt (linkSince s s.link.txAt - first) + 1) / 10) * 4 / 25

/-- A collision: the burst ends with the current symbol. In B1 it leads to back-off; one in B2 ends the frame, which counts
as sent (R285). -/
def collide (e : Echo) (s : State) : State :=
  match s.link.sending with
  | none => s
  | some f =>
    match burstOn f (linkSince s s.link.txAt) with
    | none => s
    | some (first, _) =>
      if !collides e s then s
      else
        let t := elapseTo (symbolEnd s first) s
        settle (if first = 0 then collideB1 f t else mediumEnds (txDone t))

/-- TX_COLLISION. -/
def execTxCollision (dt : Nat) (e : Echo) (s : State) : Out := act dt (collide e) s

/-! ## Succession (R296) -/

/-- 10 ms after the next expected instant. -/
def missDue (s : State) : Option Nat :=
  match s.link.refAt with
  | some r => if s.link.role = .member ∧ canRx s then some (r + (s.link.missed + 1) * period + msTicks 10) else none
  | none => none

/-- A beacon is missed; after three the Pole is lost. -/
def missBeacon (s : State) : State :=
  linkCount 15 { s with link := { s.link with
    missed := s.link.missed + 1, poleLost := s.link.poleLost || decide (3 ≤ s.link.missed + 1) } }

/-- BEACON_MISSED. -/
def execBeaconMissed (s : State) : Out := actAt missDue missBeacon s

/-- The Star of entry `i` beacons at expected instant 4 + i after the last beacon heard, as Pole: that beacon goes by R286,
and the next follow from that instant (assumption log 93). -/
def takeover (m : Medium) (s : State) : State :=
  match s.link.refAt, s.link.roster.findIdx? fun x => x == serialOf s with
  | some r, some i =>
    if s.link.role = .member && s.link.poleLost && canTx s then beaconNow m (becomePole (r + (4 + i) * period) s) else s
  | _, _ => s

/-- POLE_TAKEOVER. -/
def execPoleTakeover (dt : Nat) (m : Medium) (s : State) : Out := act dt (takeover m) s

/-- CARRIER_WAKE (R287). -/
def execCarrierWake (dt : Nat) (len : Nat) (s : State) : Out := act dt (carrier len) s

/-! ## Reception (R280 to R282) -/

/-- A frame from a stranger is counted; the first of its SRC within an hour is logged (R282; 14 R354). -/
def stranger (typ : Nat) (f : RxFrame) (s : State) : State :=
  let src := f.src.toNat
  let t := linkCount 10 s
  let held := t.link.strangers.filter fun e => decide (now s < e.2 + secTicks 3600)
  if held.any fun e => e.1 == src then { t with link := { t.link with strangers := held } }
  else
    logEvent 0x50 (leBytes 4 src ++ leBytes 1 typ ++ leBytes 4 f.ctr.toNat ++ [4])
      { t with link := { t.link with strangers := (src, now s) :: held } }

/-- A frame is delivered at the end of its B2: its reception is over, and the medium goes idle 112 µs later (R280, R283). -/
def rxDone (s : State) : State :=
  { s with link := { s.link with rxEnd := now s, idleAt := max s.link.idleAt (now s + usTicks 112) } }

/-- The checks of a delivered frame in their order; one that passes them all is accepted and has its effect (R281). -/
def receive (typ : Nat) (f : RxFrame) (role : State → Bool) (effect : State → State) (s0 : State) : State :=
  if !canRx s0 then s0
  else if f.bursts = .differ then linkCount 8 (rxDone s0)
  else
    let s := linkCount (if f.bursts = .both then 5 else 6) (rxDone s0)
    let src := f.src.toNat
    let content := leBytes 1 typ ++ f.payload
    if !lenOk typ f.payload.length then linkCount 9 s
    else if !slotReady s s.link.keySlot || frameAuth s typ src f.ctr.toNat f.payload != f.auth then stranger typ f s
    else
      match freshness s src f.ctr.toNat content with
      | .dup => linkCount 12 s
      | .replay => linkCount 11 s
      | .fresh => if role s then effect (rxAccept src f.ctr.toNat content s) else linkCount 13 s

/-- The frame's sender is listed. -/
def fromListed (f : RxFrame) (s : State) : Bool := (listed s).contains f.src.toNat

/-- The part follows a constellation: a member, its Pole, or a Dim Star. -/
def follows (s : State) : Bool := isMember s || s.link.role == .dim

/-! ## Beacon (R291 to R296, R298, R300, R308 to R310, R312) -/

/-- The part's own RTC at base value `r`, in AON ticks: the edges since then and an adjustment of the slew since then
are taken off (R310). -/
def rtcAtRef (s : State) (r : Nat) : Int :=
  let adj : Int :=
    if s.tmr.rtcSlew ≠ 0 ∧ r / 250 < s.tmr.slewAt / 250 then (if 0 < s.tmr.rtcSlew then 1 else -1) else 0
  (rtcTicks s : Int) - (now s / 250 - r / 250 : Nat) - adj

/-- The constellation steps the RTC by `-e` AON ticks (R293, R310; 14 R354, type 0x09). A part whose RTC becomes valid
cannot qualify its running bin (10 R228). -/
def rtcMove (e : Int) (s : State) : State :=
  let v : Int := (rtcTicks s : Int) - e
  let sec := (v / 32768 % 2 ^ 32).toNat
  let t := { s with tmr := { s.tmr with rtcSec := sec, rtcSub := (v % 32768).toNat, rtcValid := true } }
  let u := if s.tmr.rtcValid then t
    else { t with alm := { t.alm with
      binOk := false, binStart := none, binIdx := sec / 1800, binAt := now t, dayIdx := sec / 86400 } }
  armLead (logEvent 0x09 (leBytesS 4 e ++ leBytesS 4 (-e)) u)

/-- The slew that removes an error over 64 s (R310). -/
def slewOf (e : Int) : Int := clampI (-250) 250 ((2 * (-e) * 1000000 + 2097152) / 4194304)

/-- A slew begins where its value changes. -/
def setSlew (v : Int) (s : State) : State :=
  if v = s.tmr.rtcSlew then s else { s with tmr := { s.tmr with rtcSlew := v, slewAt := now s } }

/-- The time rule at a beacon (R310). -/
def timeRule (e : Int) (invalid : Bool) (s0 : State) : State :=
  let s := { s0 with link := { s0.link with rtcErr := e } }
  if invalid then s
  else if !s.tmr.rtcValid then rtcMove e s
  else if e < -32768 then rtcMove e (elapseTo (upAon (now s + 1)) s)
  else setSlew (slewOf e) s

/-- The beacon's fields. -/
def bcnFlag (p : List Byte) (i : Nat) : Bool := decide (byteAt p 2 / 2 ^ i % 2 = 1)
def bcnBn (p : List Byte) : Nat := leAt p 3 4
def bcnRtc (p : List Byte) : Nat := 32768 * leAt p 7 4 + leAt p 11 2
def bcnRoster (p : List Byte) : List Nat := (List.range 15).map fun i => leAt p (25 + 4 * i) 4
def bcnHeir (p : List Byte) : Nat := leAt p 85 4

/-- A beacon is acceptable: to a Pole from any other Pole; to a part that is no member from any Pole; to a member from its
Pole, its heir, a Pole that lists it, or any Pole once its own is lost (R281, R292, R296, R312). -/
def beaconOk (f : RxFrame) (s : State) : Bool :=
  let src := f.src.toNat
  src != serialOf s &&
    match s.link.role with
    | .silent => false
    | .member => src == s.link.poleSer || src == s.link.heir || s.link.poleLost || (bcnRoster f.payload).contains (serialOf s)
    | _ => true

/-- What every part that is no Pole keeps of a beacon. -/
def beaconKeep (f : RxFrame) (ref : Nat) (s : State) : State :=
  let p := f.payload
  let src := f.src.toNat
  let l := s.link
  let heir := if bcnFlag p 1 || bcnFlag p 2 then bcnHeir p else 0
  let changes := if l.poleSer ≠ 0 ∧ l.poleSer ≠ src then satTo 65535 (l.poleChanges + 1) else l.poleChanges
  let t := { s with link := { l with
    heard := true, poleSer := src, polePrio := byteAt p 1, poleChanges := changes, bn := bcnBn p
    lastBns := (bcnBn p :: l.lastBns).take 4, bcnGen := leAt p 13 4, bcnDigest := (p.drop 17).take 8, pv := byteAt p 0
    refAt := some ref, missed := 0, poleLost := false, split := bcnFlag p 0, roster := bcnRoster p, heir := heir
    lastBeacon := some ref } }
  putStar { starOf t src with prio := byteAt p 1 } t

/-- Membership follows the roster: a listed part is a member; one that is not listed within 3 beacons of its JOIN is a
Dim Star, which sends JOIN again every 16 periods (R292). -/
def beaconRole (s : State) : State :=
  let l := s.link
  let waits := l.txq.any fun f => f.typ == 3
  let age := if waits then l.joinAge else l.joinAge + 1
  if l.role = .listening then s
  else if l.roster.contains (serialOf s) then { s with link := { l with role := .member, joinAge := 0 } }
  else
    match l.role with
    | .member => { s with link := { l with role := .joining, joinAge := 1 } }
    | .joining => { s with link := { l with role := if 3 ≤ age then .dim else .joining, joinAge := age } }
    | .dim =>
      if 16 ≤ age then queueFrame 0x03 5 [] none { s with link := { l with joinAge := 0 } }
      else { s with link := { l with joinAge := age } }
    | _ => s

/-- The configuration of the beacon against the own one (R300, R308). -/
def beaconCfg (s : State) : State :=
  let l := s.link
  let t := { s with link := { l with
    cfgNeed := decide (l.gen < l.bcnGen)
    ownSplit := decide (l.gen = l.bcnGen ∧ ownDigest s ≠ l.bcnDigest) } }
  match t.link.cfg with
  | some b =>
    if l.role = .member ∧ l.bcnGen < l.gen ∧ !(l.txq.any fun f => f.typ == 6) then queueFrame 0x06 4 b none t else t
  | none => t

/-- The block of the beacon; protocol version 1 carries none (R298). -/
def beaconBlock (p : List Byte) (ref : Nat) (s : State) : State :=
  if p.length = 111 then holdBlock (p.drop 89) ref s
  else { s with link := { s.link with block := none, blockCurr := [] } }

/-- HANDOVER to this part: it takes the RTC of the beacon and beacons from the next instant. DEMOTE: the members join the
named Pole without a listen (R293, R304, R312). -/
def beaconHeir (p : List Byte) (ref : Nat) (s : State) : State :=
  if bcnFlag p 2 && bcnHeir p != serialOf s && s.link.role == .member then queueJoin s
  else if bcnFlag p 1 && bcnHeir p == serialOf s && (follows s || s.link.role == .joining) then
    let e := rtcAtRef s ref - bcnRtc p
    becomePole (ref + period) (if bcnFlag p 3 || e == 0 then s else rtcMove e s)
  else s

/-- A beacon at a part that is no Pole. -/
def beaconFollow (f : RxFrame) (s : State) : State :=
  let p := f.payload
  let ref := now s - frameTicks 1 p.length
  let a := beaconRole (beaconKeep f ref s)
  let b := if follows a then
      beaconBlock p ref (timeRule (rtcAtRef a ref - bcnRtc p) (bcnFlag p 3) (beaconCfg a))
    else a
  beaconHeir p ref b

/-- A beacon at the Pole: from a Pole that ranks before it, it demotes (R312). -/
def beaconRival (f : RxFrame) (s : State) : State :=
  let src := f.src.toNat
  let prio := byteAt f.payload 1
  if rankWord prio src < ownRank s then
    let t := putStar { starOf s src with prio := prio } s
    { t with link := { t.link with demote := true, handover := false, heir := src } }
  else s

/-- BEACON. -/
def execBeacon (dt : Nat) (f : RxFrame) (s : State) : Out :=
  act dt (receive 0x01 f (beaconOk f) fun s =>
    settle (if s.link.role = .pole then beaconRival f s else beaconFollow f s)) s

/-! ## The other frames -/

/-- A report is acceptable at a member from a listed Star, delivered inside its slot (R281, R294, R295). -/
def reportOk (f : RxFrame) (s : State) : Bool :=
  let src := f.src.toNat
  let slot := if src = s.link.poleSer then some 15 else s.link.roster.findIdx? fun x => x == src
  isMember s && src != serialOf s && src != 0 &&
    match s.link.refAt, slot with
    | some r, some i => decide (r + msTicks (10 + 5 * i) ≤ now s ∧ now s ≤ r + msTicks (15 + 5 * i))
    | _, _ => false

/-- The report is kept; one that shows SPLIT makes the Pole set CONFIG_SPLIT (R295, R308). -/
def reportKeep (f : RxFrame) (s : State) : State :=
  let p := f.payload
  let st := { starOf s f.src.toNat with
    report := some p, reportBn := some s.link.bn, missed := 0, pvMax := byteAt p 19 }
  let t := putStar st s
  if byteAt p 0 / 8 % 2 = 1 then { t with link := { t.link with splitAge := 0 } } else t

/-- REPORT. -/
def execReport (dt : Nat) (f : RxFrame) (s : State) : Out := act dt (receive 0x02 f (reportOk f) (reportKeep f)) s

/-- The lowest protocol version that some listed part or the joiner insists on, and the highest all of them support. A listed
Star that this Pole has not heard yet bounds neither (DESIGN CHOICE; assumption log 144). -/
def pvMeets (s : State) (pvMin pvMax : Nat) : Bool :=
  let stars := known s
  decide ((stars.map Star.pvMin).foldl max (max 1 pvMin) ≤ (stars.map Star.pvMax).foldl min (min 2 pvMax))

/-- The Pole sends a NOTICE (R292). -/
def notice (dst code : Nat) (s : State) : State := queueFrame 0x04 2 (leBytes 4 dst ++ leBytes 1 code) none s

/-- A joiner that ranks before the Pole becomes its heir; of two heirs the lower rank stays one (R293). -/
def makeHeir (src : Nat) (s : State) : State :=
  let old := s.link.heir
  if s.link.handover ∧ old ≠ src ∧ rankOf s old < rankOf s src then enrol src s
  else
    let t := { s with link := { s.link with handover := true, heir := src } }
    if s.link.handover ∧ old ≠ src then enrol old t else t

/-- The Pole judges a joiner (R292, R293). -/
def takeIn (src : Nat) (s : State) : State :=
  let st := starOf s src
  let rest := (others s).filter fun x => x != src
  if st.romMaj + 2 < 3 then notice src 1 (strike src s)
  else if !pvMeets (strike src s) st.pvMin st.pvMax then notice src 2 (strike src s)
  else if rankOf s src < ownRank s then makeHeir src s
  else if rest.length = 15 ∧ rest.all (fun x => decide (rankOf s x < rankOf s src)) then notice src 3 s
  else enrol src s

/-- A JOIN tells what its sender is (R291); the Pole admits it or not, a split against its block sets CONFIG_SPLIT
(R308), and a Pole without time takes the joiner's (R310). -/
def joinKeep (f : RxFrame) (s : State) : State :=
  let p := f.payload
  let src := f.src.toNat
  let t := putStar { starOf s src with
    prio := byteAt p 0, pvMin := byteAt p 1, pvMax := byteAt p 2, romMaj := byteAt p 3, romMin := byteAt p 4 } s
  if t.link.role ≠ .pole then t
  else
    let start := now t - frameTicks 3 24
    let rtc := 32768 * leAt p 18 4 + leAt p 22 2
    let u := if !t.tmr.rtcValid ∧ byteAt p 5 % 2 = 1 then rtcMove (rtcAtRef t start - rtc) t else t
    let v := if leAt p 6 4 = u.link.gen ∧ (p.drop 10).take 8 ≠ ownDigest u then { u with link := { u.link with splitAge := 0 } } else u
    takeIn src v

/-- JOIN. -/
def execJoin (dt : Nat) (f : RxFrame) (s : State) : Out :=
  act dt (receive 0x03 f (fun s => s.link.role != .silent && f.src.toNat != serialOf s && f.src.toNat != 0) (joinKeep f)) s

/-- A NOTICE is acceptable from the Pole, at the part it names, while that part is joining or dim (R292). -/
def noticeOk (f : RxFrame) (s : State) : Bool :=
  (s.link.role == .joining || s.link.role == .dim) && f.src.toNat == s.link.poleSer && leAt f.payload 0 4 == serialOf s
    && decide (1 ≤ byteAt f.payload 4 ∧ byteAt f.payload 4 ≤ 3)

/-- NOTICE: the part is a Dim Star. -/
def execNotice (dt : Nat) (f : RxFrame) (s : State) : Out :=
  act dt (receive 0x04 f (noticeOk f) fun s => { s with link := { s.link with role := .dim, joinAge := 0 } }) s

/-- LEAVE: the Pole strikes the sender off its roster (R296). -/
def execLeave (dt : Nat) (f : RxFrame) (s : State) : Out :=
  act dt (receive 0x05 f (fun s => follows s && fromListed f s)
    fun s => if s.link.role = .pole then strike f.src.toNat s else s) s

/-- A configuration block is adopted: its sender is listed, its GEN exceeds the own one, its digest matches the beacon's
where the beacon names its generation, and every item passes (R300). -/
def cfgOk (f : RxFrame) (s : State) : Bool :=
  let b := f.payload
  follows s && fromListed f s && cfgCheck s b == stOk
    && (s.link.role == .pole || leAt b 0 4 != s.link.bcnGen || cfgDigest b == s.link.bcnDigest)

/-- CFG. -/
def execCfg (dt : Nat) (f : RxFrame) (s : State) : Out :=
  act dt (receive 0x06 f (cfgOk f) fun s => settle (adopt f.payload s)) s

/-- ALARM: logged with its SRC; the sender's Star entry shows it (R303; 14 R354). -/
def execAlarm (dt : Nat) (f : RxFrame) (s : State) : Out :=
  act dt (receive 0x07 f (fun _ => true) fun s =>
    let src := f.src.toNat
    logEvent 0x51 (leBytes 4 src ++ f.payload) (putStar { starOf s src with alarm := true } s)) s

/-- A Sprue request is acceptable at the member it names, with one of the last 4 beacon numbers (R302). -/
def sprueOk (f : RxFrame) (s : State) : Bool :=
  member s && leAt f.payload 0 4 == serialOf s && s.link.lastBns.contains (leAt f.payload 4 4)

/-- SPRUE_REQ: the packet enters with the link's origin (R302). -/
def execSprueReq (dt : Nat) (f : RxFrame) (s : State) : Out :=
  act dt (receive 0x08 f (sprueOk f) (submitRaw .link f.src.toNat (f.payload.drop 8))) s

/-- CRIUC_BURST_DETECTED (R280, R281): the start of the burst is stamped into capture queue 2, which takes nothing while TMR
is stopped (08 R187); its frame is received until `left` ticks later (05 R116); a failed CRC counts. -/
def execCriucBurstDetected (dt : Nat) (left : Nat) (crcGood : Bool) (s : State) : Out :=
  act dt (fun s =>
    if canRx s then
      let t := capqPushFine 2 (now s) s
      let u := { t with link := { t.link with rxEnd := max t.link.rxEnd (now s + left) } }
      if crcGood then u else linkCount 7 u
    else s) s

/-- MALFORMED_FRAME (R281): TYPE or LEN is not defined. A SPRUE_RPL, which answers nothing that an MG16 sends, is off role
(R302). -/
def execMalformedFrame (dt : Nat) (type : Byte) (f : RxFrame) (s : State) : Out :=
  act dt (fun s =>
    if lenOk type.toNat f.payload.length && type != 0x09 then s else receive type.toNat f (fun _ => false) id s) s

end Sys2Proof.Machine
end

