-- ==== Sys2Proof/Machine/ProtectCmds.lean ====
section
/-! DEFINITION. The commands of protection and of the integrators (06_front_end_integrators.md). -/

namespace Sys2Proof.Machine

/-- LADDER_SCAN (R129): the scan that begins at its SLOW edge has its results applied 32 AON ticks later; the next
begins 8192 AON ticks after it. PRTB_N ends a depassivation pulse (10 R248). -/
def execLadderScan (r : ScanIn) (s : State) : Out :=
  actAt (fun s => some (s.afe.scanAt + 32 * 250)) (fun s => alarmTrack (dpasGuard (ladderScan r s))) s

/-- PROTECTION_TRIP (R131): the comparator has taken `samples` samples at the given shunt voltage. -/
def execProtectionTrip (dt : Nat) (b : Bank) (c : OcCmp) (uv : Int) (samples : Nat) (s : State) : Out :=
  act dt (fun s => alarmTrack (dpasGuard (ocSamples b c uv samples s))) s

/-- PROTECTION_HOLD_END (R132): the hold ends at its SLOW edge. -/
def execProtectionHoldEnd (b : Bank) (s : State) : Out := actAt (fun s => (ocOf b s).holdEnd) (fun s => alarmTrack (holdOver b s)) s

/-- When the next output of an integrator falls due, once its modulator runs (R140, R143). -/
def cqDue (b : Bank) (s : State) : Option Nat := if (cqOf b s).modRun then some (cqOf b s).outDue else none

/-- CQ_OUTPUT (R141, R143, R144): the next output boundary of an integrator, with the modulator bits up to it. -/
def execCqOutput (b : Bank) (mean : Int) (bits : Bits) (s : State) : Out :=
  actAt (cqDue b) (fun s => cqOutputAt b mean (addBits bits s)) s

end Sys2Proof.Machine
end

