-- ==== Sys2Proof/Machine/RegCmds.lean ====
section
/-! DEFINITION. Writes of registers that have a row of their own, and the write of any other register
(00_scope.md R7, 16_register_parameter_map.md R376 to R385). -/

namespace Sys2Proof.Machine

/-! ## Who writes -/

/-- The register bus has edges, and the firmware that writes runs: Lode is on and no debug halt holds CORE (02 R37, R40). -/
def busUp (s : State) : Bool := lodeOn s && !s.clk.halt && atLeast s .melt

/-- A write of the Forge cores (R7). -/
def busAct (dt : Nat) (f : State → State) (s : State) : Out := act dt (fun s => if busUp s then settle (f s) else s) s

/-- A write that takes effect only where the level in force allows its POKE (R376, R377). -/
def pokeAct (dt : Nat) (b off : Nat) (f : State → State) (s : State) : Out :=
  act dt (fun s =>
    let need : Nat := if pokeOpen b off then 2 else 1
    let level : Nat := match s.sec.lock with | .sealed => 0 | .unsealed => 1 | .opened => 2
    if busUp s && atLeast s .pour && decide (need ≤ level) then settle (f s) else s) s

/-! ## Captures and snapshots -/

/-- SB_CTRL_CAPTURE (08 R175): a 1 written to SB_CTRL.CAPTURE latches the base into shadow set 0. -/
def execSbCtrlCapture (dt : Nat) (s : State) : Out := busAct dt captureShadow0 s

/-- TALLY_CAPTURE (06 R146). -/
def execTallyCapture (dt : Nat) (bits : Bits) (s : State) : Out := busAct dt (captureTallies bits) s

/-- ACC_SNAP (07 R164, R165). -/
def execAccSnap (dt : Nat) (n : Fin 32) (value : BitVec 2) (s : State) : Out :=
  busAct dt (snapWrite (accSnapTake n.val) value.toNat) s

/-- TRK_SNAP (07 R164, R166). -/
def execTrkSnap (dt : Nat) (n : Fin 32) (value : BitVec 2) (s : State) : Out :=
  busAct dt (snapWrite (trkSnapTake n.val) value.toNat) s

/-- POP (08 R186; 16 R384): any write performs the read of the queue. -/
def execPop (dt : Nat) (q : Fin 4) (s : State) : Out := busAct dt (capqPop q.val) s

/-! ## DMA (13 R320) -/

/-- The byte the DMA finds at an address: the staging window and the ROM hold what they hold, and what stands anywhere
else is the firmware's own (assumption log 2). -/
def dmaByte (s : State) (addr i : Nat) : Byte :=
  if inRegion (addr + i) 1 then regionByte s (addr + i) else BitVec.ofNat 8 (Config.freeNat (s.drawn + i))

/-- The DGST cycles a block takes (13 R314). -/
def blockCycles (func : Nat) : Nat := if func = 1 then 72 else 88

/-- The ticks a transfer takes: 100 DGST cycles, or 100 bytes of the bus, in one tick; the slower bounds it (13 R314). -/
def dmaTicks (c : Ctx) (n : Nat) : Nat :=
  (max n ((c.part.length + n) / shaBlock c.func * blockCycles c.func) + 99) / 100

/-- GO (13 R320): the bytes enter the context, which computes until the transfer ends. With DLEN 0, or while a transfer
runs, it is ignored and sets ERR; a closed context takes no data. -/
def goWrite (n : Nat) (s : State) : State :=
  let c := ctxAt s n
  if c.dlen = 0 ∨ dmaRuns s c then setCtx n { c with err := true } s
  else if c.state = .closed then s
  else
    let data := (List.range c.dlen).map (dmaByte s c.dmaSrc)
    let d := ctxFeed s data c
    setCtx n { d with dmaEnd := some (now s + dmaTicks c c.dlen) } { s with drawn := s.drawn + c.dlen }

/-- GO. -/
def execGo (dt : Nat) (ctx : Fin 6) (s : State) : Out := busAct dt (goWrite ctx.val) s

/-! ## Timers (08 R177, R183; 16 R384) -/

/-- CMP_REGISTER_WRITE: VAL or MODE of a compare channel is written; a MODE out of range is refused (R378). -/
def execCmpRegisterWrite (dt : Nat) (ch : Fin 8) (mode : Bool) (value : Word) (s : State) : Out :=
  let off := 0x100 + 0x10 * ch.val + if mode then 4 else 0
  pokeAct dt 7 off (fun s => if pokeInRange s 7 off value.toNat then regWrite 7 off value.toNat s else s) s

/-- CDN_REGISTER_WRITE: BUF, PRE or SRC of a countdown is written. -/
def execCdnRegisterWrite (dt : Nat) (n : Fin 4) (reg : Fin 3) (value : Word) (s : State) : Out :=
  let off := 0x200 + 0x20 * n.val + 4 + 4 * reg.val
  pokeAct dt 7 off (fun s => if pokeInRange s 7 off value.toNat then regWrite 7 off value.toNat s else s) s

/-! ## Integrator settings and patch words -/

/-- CQ_CFG_WRITE (06 R145; 16 R380). -/
def execCqCfgWrite (dt : Nat) (bank : Bank) (value : Word) (s : State) : Out :=
  let off := match bank with | .a => 0x00 | .b => 0x40
  pokeAct dt 4 off (fun s => if pokeInRange s 4 off value.toNat then regWrite 4 off value.toNat s else s) s

/-- PATCH_PTR_WRITE (15 R375). -/
def execPatchPtrWrite (dt : Nat) (value : Word) (s : State) : Out :=
  pokeAct dt 0xE 0x40 (fun s => if pokeInRange s 0xE 0x40 value.toNat then patchPtrSet value.toNat s else s) s

/-- PATCH_DATA_WRITE (15 R375). -/
def execPatchDataWrite (dt : Nat) (value : Word) (s : State) : Out := pokeAct dt 0xE 0x44 (patchDataSet value.toNat) s

/-! ## Any other register (00 R7) -/

/-- A write of the Forge cores to a word of a digest context: CTX_STAT clears by ones, DMA_SRC and DLEN are stored
(13 R320, CTX_STAT). -/
def ctxWrite (n i v : Nat) (s : State) : State :=
  let c := ctxAt s n
  match i with
  | 1 => setCtx n { c with restarted := c.restarted && decide (v / 16 % 2 = 0), err := c.err && decide (v / 64 % 2 = 0) } s
  | 2 => setCtx n { c with dmaSrc := v } s
  | 3 => setCtx n { c with dlen := v % 65536 } s
  | 4 => if v % 2 = 1 then goWrite n s else s
  | _ => s

/-- A write of the Forge cores (R7): as a POKE, save for the words that are ro to a POKE alone (R378) and for windows out
of range, which are stored and act as the nearest bound (06 R145). A word that no table defines stores nothing. -/
def busWrite (addr v : Nat) (s : State) : State :=
  let off := addr % 0x10000
  match blockOf addr with
  | none => s
  | some b =>
    if off % 4 ≠ 0 ∨ !regDefined b off then s
    else if b = 0xB ∧ 0x100 ≤ off ∧ off < 0x280 then ctxWrite ((off - 0x100) / 0x40) (off % 0x40 / 4) v s
    else if b = 4 ∧ (off = 0 ∨ off = 0x40) then
      let t := regWrite b off v s
      { t with start := { t.start with poked := s.start.poked } }
    else regWrite b off v s

/-- REGISTER_WRITE. -/
def execRegisterWrite (dt : Nat) (addr value : Word) (s : State) : Out := busAct dt (busWrite addr.toNat value.toNat) s

end Sys2Proof.Machine
end

