-- ==== Sys2Proof/Machine/SarCmds.lean ====
section
/-! DEFINITION. The events of the SAR block: the reference, Routine and Burst passes, single conversions
(07_sar_and_accumulators.md R148 to R170). -/

namespace Sys2Proof.Machine

/-- A pass boundary: parameters that act at a pass take effect, and a new SAR_REF clears REF_RDY until it has settled
(R148, R172). -/
def passBoundary (s : State) : State :=
  let t := { s with par := s.par.applyMoment .pass }
  let ref := prm t 0x0440
  if ref = t.sar.refSel then t else { t with sar := { t.sar with refSel := ref, refRdy := false } }

/-- Conversions can run: Lode is on and the selected reference has settled (R148). -/
def sarReady (s : State) : Bool := lodeOn s && s.sar.refRdy

/-- The selected reference can have settled: the internal one 180 µs after Lode started, which enables it (R148). -/
def refSettled (s : State) : Bool :=
  s.clk.lode != .off && (s.sar.refSel != 0 || decide (s.clk.lodeStart + 1475 ≤ now s))

/-- REFERENCE_SETTLED (R148): REF_RDY sets. -/
def execReferenceSettled (dt : Nat) (s : State) : Out :=
  act dt (fun t => if refSettled t then { t with sar := { t.sar with refRdy := true } } else t) s

/-! ## Routine passes (R153, R157) -/

/-- A Routine pass has come to a position; its end is captured. -/
def routStand (r : Option SeqPos × State) : State :=
  let t := { r.2 with sar := { r.2.sar with routPos := r.1 } }
  if r.1.isNone then routEnd t else t

/-- A Routine pass falls due and starts (R153, R157): the ports' new entries run from here, and a start more than
ROUT_PERIOD late is counted. -/
def routStart (due : Nat) (s : State) : State :=
  let period := msTicks (prm s 0x0441)
  let late := decide (due + period < now s)
  let t := { s with sar := { s.sar with
      routPort := s.sar.routNext.getD s.sar.routPort, routNext := none
      passAt := sarNow s
      routDue := some (due + ((now s - due) / period + 1) * period)
      routLate := if late then inc32 s.sar.routLate else s.sar.routLate } }
  let pos := seqStart t (routTable t)
  biasStep (routTable t) pos (sarNow t) { t with sar := { t.sar with routPos := pos } }

/-- The Routine can start: it is due, and a Burst pass that it suspends stands at no Pollux half of an interleave pair
(R157). -/
def routMay (due : Nat) (s : State) : Bool :=
  lodeOn s && decide (due ≤ now s) && !(s.sar.burstOn && polluxSlot s.sar.burst s.sar.burstPos)

/-- A Routine pass falls due and runs over the raw codes given, each conversion at its own edge; with fewer codes than the
pass needs it stays in progress. -/
def routinePassAt (codes : List (Nat × Nat)) (s : State) : State :=
  match s.sar.routDue, s.sar.routPos with
  | some due, none =>
    if routMay due s then
      let b := passBoundary s
      if sarReady b then
        let t := routStart due b
        routStand (seqRun (routTable t) t.sar.routPos codes t)
      else b
    else s
  | _, _ => s

/-- ROUTINE_PASS (R157). -/
def execRoutinePass (dt : Nat) (codes : List (Nat × Nat)) (s : State) : Out :=
  act dt (fun t => settle (routinePassAt codes t)) s

/-! ## Burst passes (R154, R157) -/

/-- A Burst pass has come to a position; at its end a new GLINT_EN takes effect (R154, 09 R224). -/
def burstStand (r : Option SeqPos × State) : State :=
  match r.1 with
  | some p => { r.2 with sar := { r.2.sar with burstPos := some p } }
  | none => glintApply (burstEnd { r.2 with sar := { r.2.sar with burstPos := none } })

/-- No new pass begins: Glint has stopped at the end of its pass because the part is to doze (09 R212). -/
def glintYields (s : State) : Bool :=
  s.glint.on && (match s.pwr.entry with | some e => e.target == .doze | none => false)

/-- A Burst pass may run: no Routine pass suspends it, and it is in progress or may begin (R154, R157; 09 R212). -/
def burstMay (s : State) : Bool :=
  lodeOn s && s.sar.burstOn && s.sar.burstPos.isSome && s.sar.routPos.isNone && !(burstFresh s && glintYields s)

/-- A Burst pass starts, resumes or goes on over the raw codes given, each conversion at its own edge (R154, R157). -/
def burstPassAt (resume : Bool) (codes : List (Nat × Nat)) (s : State) : State :=
  if burstMay s then
    let fresh := burstFresh s
    let b := if fresh then passBoundary s else s
    if sarReady b then
      let t := if fresh || resume then { b with sar := { b.sar with passAt := sarNow b } } else b
      burstStand (seqRun t.sar.burst t.sar.burstPos codes (biasStep t.sar.burst t.sar.burstPos (sarNow t) t))
    else b
  else s

/-- BURST_PASS (R154). -/
def execBurstPass (dt : Nat) (codes : List (Nat × Nat)) (s : State) : Out :=
  act dt (fun t => settle (burstPassAt true codes t)) s

/-! ## Single conversions (R155, R158, R168) -/

/-- The next conversion of the pass that runs: the Routine's, else the Burst's (R155, R157). -/
def seqConversion (code twin : Nat) (s : State) : State :=
  if s.sar.routPos.isSome then routStand (seqRun (routTable s) s.sar.routPos [(code, twin)] s)
  else burstPassAt false [(code, twin)] s

/-- The Flare at the head of the queue converts on Pollux at its own edge; its reply carries the stamp of its hold edge
(R158). -/
def flareConversion (code : Nat) (s0 : State) : State :=
  match s0.sar.flares with
  | [] => s0
  | f :: r =>
    let start := flareStart s0 f
    let done := doneAt start f.sample
    let s := elapseTo (sarStamp s0 done) s0
    let stamp := sarStamp s (holdAt start f.sample)
    let t := sarDone s.sar.castor done
      (polluxDone ⟨f.chan, f.gain, f.acc, f.trk⟩ done { s with sar := { s.sar with flares := r } })
    setFinal f.opId stOk (leBytes 8 stamp) (takeOne f.chan f.gain f.acc f.trk stamp code t)

/-- A calibration of a SAR pair still converts, and Pollux is free for it (R168, R170). -/
def calMay (s : State) : Bool :=
  s.sar.calRun && decide (s.sar.calCnt < s.sar.calN) && (s.sar.calPair % 256 / 2 != 0x18)
    && !polluxNeeded s && !flareBy s (max s.sar.pollux.free s.sar.calAt)

/-- One conversion of a calibration on Pollux, at its own edge (R168). -/
def calConvert (code : Nat) (s0 : State) : State :=
  let chan := s0.sar.calPair % 256
  let gain := s0.sar.calPair / 256
  let start := settleFrom s0 s0.sar.pollux chan gain (max s0.sar.pollux.free s0.sar.calAt)
  let done := doneAt start s0.sar.calTs
  let s := elapseTo (sarStamp s0 done) s0
  let c : Int := if isShunt chan then (code : Int) - 2048 else code
  sarDone s.sar.castor done (polluxDone ⟨chan, gain, 0xFF, 0xFF⟩ done
    { s with sar := { s.sar with calCnt := s.sar.calCnt + 1, calSum := s.sar.calSum + c } })

/-- Conversions of a calibration, one after the other; each waits until Pollux is free for it (R168, R170). -/
def calConversions : List Nat → State → State
  | [], s => s
  | c :: r, s => if calMay s then calConversions r (calConvert c s) else s

/-- SAR_CONVERSION (R155, R158, R160, R162, R168): a conversion completes at its completion edge. -/
def sarConversionAt (conv : Conv) (s : State) : State :=
  if sarReady s then
    settle (match conv with
      | .sequence code twin => seqConversion code twin s
      | .flare code => flareConversion code s
      | .calibration codes => calConversions codes s)
  else s

/-- SAR_CONVERSION. -/
def execSarConversion (conv : Conv) (s : State) : Out := act 0 (sarConversionAt conv) s

end Sys2Proof.Machine
end

