-- ==== Sys2Proof/Machine/SdiCmds.lean ====
section
/-! DEFINITION. The SDI-12 interface (11_host_field_ports.md R272, R273). -/

namespace Sys2Proof.Machine

/-! ## Shared operations -/

/-- The interface works: the field pads do, and SDI_EN is set (R272, R274). -/
def sdiUp (s : State) : Bool := fieldUp s && prm s 0x0831 == 1

/-- A break and a command on FSDI: in low power they wake the part and are discarded (05 R119, R120). While GP2 is high FSDI is
an output, and nothing is heard (17 R402). -/
def sdiLine (f : State → State) (s : State) : State :=
  if sdiUp s then
    let t := sdiLapse s
    if gp2 t then t else f (entryTouch .sdi { t with field := { t.field with sdiWait := none } })
  else if prm s 0x0831 = 1 then portWake .sdi s
  else s

/-- A command to this address; another sensor's is ignored. -/
def sdiTo (dt : Nat) (a : Byte) (f : State → State) (s : State) : Out :=
  act dt (sdiLine fun s => if a = sdiAddr s then f s else s) s

/-- A command gets no response (16 R385). -/
def sdiSilent (s : State) : State :=
  { s with field := { s.field with sdiNoResp := satTo 0xFFFFFFFF (s.field.sdiNoResp + 1) } }

/-- The three characters of the SDI-12 CRC of a response. -/
def sdiCrc (b : List Byte) : List Byte :=
  let c := b.foldl (fun c x => iter (crcShiftR 0xA001) 8 (Nat.xor c x.toNat)) 0
  [BitVec.ofNat 8 (64 + c / 4096), BitVec.ofNat 8 (64 + c / 64 % 64), BitVec.ofNat 8 (64 + c % 64)]

/-- A response with its CRC where the measurement command asked for one. -/
def sdiWithCrc (crc : Bool) (b : List Byte) : List Byte := if crc then b ++ sdiCrc b else b

/-- A value as text, with its sign; one that is not available reads -9999 (R272). -/
def sdiVal (v : Option Rat) : List Byte :=
  match v with
  | some q => Config.sdiText q
  | none => ascii "-9999"

/-- A temperature of 0.1 K in °C. -/
def celsius (t : Nat) : Rat := (((10 * t : Nat) : Rat) - 27315) / 100

/-- A record of a bank that is present; Bank A always is. -/
def bankRec (s : State) (b : Bank) : Option GaugeRec :=
  match b with
  | .a => some s.gauge.snap.recA
  | .b => if bbPresent s then some s.gauge.snap.recB else none

/-- A quantity of a bank's record, divided by its scale. -/
def recVal (s : State) (b : Bank) (d : Nat) (f : GaugeRec → Int) : Option Rat :=
  (bankRec s b).map fun g => (f g : Rat) / (d : Rat)

/-- A quantity of the Almanac record from Cast on; all ones is no value (10 R235). -/
def almVal (s : State) (ones : Nat) (d : Nat) (f : AlmRec → Nat) : Option Rat :=
  match s.alm.rcd with
  | some r => if !atLeast s .cast || f r == ones then none else some ((f r : Rat) / (d : Rat))
  | none => none

/-- The voltages of the cells in V. -/
def cellVolts (s : State) : List Rat := s.gauge.snap.cells.map fun c => (c.v : Rat) / 1000

/-- The value sets of the measurement commands (R272, table of commands). -/
def sdiSet (s : State) (n : Nat) : List (Option Rat) :=
  match n with
  | 0 =>
    [recVal s .a 1000 (fun g => g.volt), recVal s .a 1000 GaugeRec.curr, some (celsius s.gauge.snap.recA.temp),
      recVal s .a 10 (fun g => g.rsoc)]
  | 1 =>
    [almVal s 0xFFFF 10 AlmRec.autonomy, almVal s 0xFFFFFFFF 60 AlmRec.tte, some (shedLevel s : Nat), some (s.alm.sea : Nat)]
  | 2 =>
    [recVal s .b 1000 (fun g => g.volt), recVal s .b 1000 GaugeRec.curr, recVal s .b 1000 GaugeRec.rm,
      recVal s .b 1 (fun g => g.pasv)]
  | _ =>
    [(cellVolts s).min?, (cellVolts s).max?, recVal s .a 10 (fun g => g.sigma), recVal s .a 1000 GaugeRec.fcc]

/-- The values of aHA: each cell, then the pack temperatures of both banks. -/
def sdiHighVolume (s : State) : List (Option Rat) :=
  ((List.range (series s)).map fun i => (s.gauge.snap.cells[i]?).map fun c => (c.v : Rat) / 1000)
    ++ [some (celsius s.gauge.snap.recA.temp), (bankRec s .b).map fun g => celsius g.temp]

/-- Values are prepared for aD0; the response gives the time 000 and their count in `digits` digits. -/
def sdiPrepare (digits : Nat) (crc : Bool) (vals : List (Option Rat)) (s : State) : State :=
  sdiSend (sdiAddr s :: ascii "000" ++ decFixed digits vals.length)
    { s with field := { s.field with sdiVals := some ((vals.map sdiVal).flatten, crc) } }

/-! ## The commands (R272) -/

/-- SDI_ACKNOWLEDGE_ACTIVE: a!. -/
def execSdiAcknowledgeActive (dt : Nat) (a : Byte) (s : State) : Out := sdiTo dt a (fun s => sdiSend [sdiAddr s] s) s

/-- SDI_ADDRESS_QUERY: ?!. -/
def execSdiAddressQuery (dt : Nat) (s : State) : Out := act dt (sdiLine fun s => sdiSend [sdiAddr s] s) s

/-- SDI_SEND_IDENTIFICATION: aI!. -/
def execSdiSendIdentification (dt : Nat) (a : Byte) (s : State) : Out :=
  sdiTo dt a (fun s =>
    let model := if Config.variantQX then ascii "14SVETYEN MG16QX031" else ascii "14SVETYEN MG16QA031"
    sdiSend (sdiAddr s :: model ++ hexText 8 (prm s 0x0101)) s) s

/-- A TAG that is free on the field port. -/
def sdiTag (s : State) : Byte :=
  (((List.range 256).map fun n => (BitVec.ofNat 8 n : Byte)).find? fun t => !tagBusy s .sdi t).getD 0

/-- A request that the interface itself makes, with its answer. -/
def sdiOpRun (op : Op) (arg : BitVec 16) (payload : List Byte) (s : State) : Option Reply × State :=
  let t := submitNow op ⟨.sdi, sdiTag s, 0, arg, payload⟩ { s with sprue := { s.sprue with answer := none } }
  (t.sprue.answer, t)

/-- The answer lets the request pass. -/
def sdiPassed (r : Option Reply) : Bool :=
  match r with
  | some a => a.status == stOk || a.status == stAccepted
  | none => false

/-- SET and COMMIT of SDI_ADDR; the response is the address in force after them. -/
def sdiReaddress (b : Byte) (s : State) : State :=
  let x := sdiOpRun .set 0x0830 [b] s
  let t := if sdiPassed x.1 then (sdiOpRun .commit 0 [] x.2).2 else x.2
  sdiSend [sdiAddr t] t

/-- SDI_CHANGE_ADDRESS: aAb!. -/
def execSdiChangeAddress (dt : Nat) (a new : Byte) (s : State) : Out := sdiTo dt a (sdiReaddress new) s

/-- A measurement: a GAUGE_READ built at the stop bit of the "!" (03 R55), whose values are those of this instant; where it is
refused no value is available (assumption log 139). -/
def sdiMeasure (digits : Nat) (crc : Bool) (vals : State → List (Option Rat)) (s : State) : State :=
  let x := sdiOpRun .gaugeRead 0 [] s
  let refused := match x.1 with | some a => !(a.status == stOk || a.status == stAccepted) | none => false
  sdiPrepare digits crc (if refused then (vals s).map fun _ => none else vals s) x.2

/-- SDI_START_MEASUREMENT: aM!, aMn! and their CRC forms. -/
def execSdiStartMeasurement (dt : Nat) (a : Byte) (m : SdiMeas) (s : State) : Out :=
  sdiTo dt a (sdiMeasure 1 m.crc (sdiSet · m.set.val)) s

/-- SDI_START_CONCURRENT: aC!, aCn! and their CRC forms. -/
def execSdiStartConcurrent (dt : Nat) (a : Byte) (m : SdiMeas) (s : State) : Out :=
  sdiTo dt a (sdiMeasure 2 m.crc (sdiSet · m.set.val)) s

/-- The prepared values, or the address alone where none are prepared. -/
def sdiData (s : State) : State :=
  match s.field.sdiVals with
  | some (b, crc) => sdiSend (sdiWithCrc crc (sdiAddr s :: b)) s
  | none => sdiSend [sdiAddr s] s

/-- SDI_SEND_DATA: aD0!. -/
def execSdiSendData (dt : Nat) (a : Byte) (s : State) : Out := sdiTo dt a sdiData s

/-- SDI_VERIFY: aV! prepares the stage and PROT_STAT bits 7:0. -/
def execSdiVerify (dt : Nat) (a : Byte) (s : State) : Out :=
  sdiTo dt a (sdiMeasure 1 false fun s => [some (s.start.stage.code : Nat), some ((protStat s % 256 : Nat) : Rat)]) s

/-- SDI_HIGH_VOLUME_ASCII: aHA!. -/
def execSdiHighVolumeAscii (dt : Nat) (a : Byte) (s : State) : Out :=
  sdiTo dt a (sdiMeasure 3 true sdiHighVolume) s

/-- The number of the values a metadata command asks about, the digits of the count, the value set as Config names its
texts, and whether the form asks for a CRC. -/
def sdiMetaOf (s : State) : SdiMeta → Nat × Nat × Nat × Bool
  | .measurement m => (4, 1, m.set.val, m.crc)
  | .concurrent m => (4, 2, m.set.val, m.crc)
  | .verification => (2, 1, 4, false)
  | .highVolume => (series s + 2, 3, 5, false)

/-- Metadata: the response of the measurement, or name and unit of one of its values. -/
def sdiMetadata (m : SdiMeta) (param : Option Nat) (s : State) : State :=
  let x := sdiMetaOf s m
  match param with
  | none => sdiSend (sdiAddr s :: ascii "000" ++ decFixed x.2.1 x.1) s
  | some i =>
    if 1 ≤ i ∧ i ≤ x.1 then
      sdiSend (sdiWithCrc x.2.2.2 (sdiAddr s :: ascii "," ++ Config.sdiMeta x.2.2.1 i ++ ascii ";")) s
    else sdiSilent s

/-- SDI_METADATA: aIM!, aIMn!, aIM_xxx!, and the forms of aC, aV and aHA. -/
def execSdiMetadata (dt : Nat) (a : Byte) (m : SdiMeta) (param : Option Nat) (s : State) : Out :=
  sdiTo dt a (sdiMetadata m param) s

/-! ## Sprue over SDI-12 (R273) -/

/-- The Sprue request of an aXS command: its reply is the response where it is ready within 14 ms, else the address alone
(R273). -/
def sdiSubmit (b : List Byte) (s : State) : State :=
  let i := s.sprue.nextId
  submitRaw .sdi 0 b
    { s with field := { s.field with
        sdiOp := some i, sdiLast := some i, sdiReply := none, sdiWait := some (now s + msTicks 14) } }

/-- SDI_EXTENDED_SPRUE: aXS with its hex. -/
def execSdiExtendedSprue (dt : Nat) (a : Byte) (hex : List Byte) (s : State) : Out :=
  sdiTo dt a (fun s =>
    match unhex hex with
    | some b => if 32 < b.length then sdiSilent s else sdiSubmit b s
    | none => sdiSilent s) s

/-- SDI_EXTENDED_NEXT: aXN!. -/
def execSdiExtendedNext (dt : Nat) (a : Byte) (s : State) : Out := sdiTo dt a sdiFetch s

/-- SDI_UNSUPPORTED_COMMAND: no response; SDI_NORESP counts. -/
def execSdiUnsupportedCommand (dt : Nat) (s : State) : Out := act dt (sdiLine sdiSilent) s

end Sys2Proof.Machine
end

