-- ==== Sys2Proof/Machine/SecCmds.lean ====
section
/-! DEFINITION. The commands of the locks: timeouts, challenges, verification rounds and lockouts
(13_digest_crucible.md R333 to R337). -/

namespace Sys2Proof.Machine

/-- When UNSEALED reverts to SEALED (R333). -/
def lockDue (s : State) : Option Nat :=
  if s.sec.lock = .unsealed ∧ atLeast s .pour then some (s.sec.lockAt + secTicks (60 * prm s 0x0A02)) else none

/-- LOCK_TIMEOUT (R333). -/
def execLockTimeout (s : State) : Out := actAt lockDue (fun s => settle (setLevel .sealed 2 noPacket s)) s

/-- When the challenge of a port ends (R334). -/
def chalDue (p : LockPort) (s : State) : Option Nat :=
  (plOf p s).chal.map fun c => c.2.2 + secTicks (prm s 0x0A01)

/-- UNLOCK_TTL_EXPIRY (R334). -/
def execUnlockTtlExpiry (p : LockPort) (s : State) : Out :=
  actAt (chalDue p) (fun s => setPl p { plOf p s with chal := none } s) s

/-- UNLOCK_ROUND_CLOSE (R336): 819 ticks after the round opened. -/
def execUnlockRoundClose (p : LockPort) (s : State) : Out :=
  actAt (fun s => (plOf p s).roundAt.map fun t => t + 819) (fun s => settle (closeRound p s)) s

/-- The end of a lockout; the change is committed (R337). -/
def lockoutOver (p : LockPort) (s : State) : State :=
  let t := setPl p { plOf p s with until_ := none } s
  commitInternal [lockRec t] t

/-- LOCKOUT_END (R337). -/
def execLockoutEnd (p : LockPort) (s : State) : Out := actAt (fun s => (plOf p s).until_) (lockoutOver p) s

end Sys2Proof.Machine
end

