-- ==== Sys2Proof/Machine/SprueCmds.lean ====
section
/-! DEFINITION. The rows of the Sprue opcodes: each submits its packet, and the sequencer judges, runs and answers it
(03_sprue_commands.md R54 to R69). OPERATION_COMPLETE ends an accepted operation, INTERIM_ACCEPTED answers one that has
no final status yet. -/

namespace Sys2Proof.Machine

/-! ## Completion -/

/-- A calibration has taken all its conversions or outputs: the mean of their sum gives a new OFFSET or GAIN, or RANGE (07
R168, R169, R171). Quotients by the mean are taken exactly, with the count as a factor. -/
def calDone (o : Oper) (s0 : State) : State :=
  let s := { s0 with sar := { s0.sar with calRun := false } }
  let n := s0.sar.calN
  let sum := s0.sar.calSum
  match pairOfCode o.argN with
  | none => setFinal o.id stBadArg [] s
  | some k =>
    let c := calOf s k
    let put (c : Cal) : State := { s with sar := { s.sar with cal := vset s.sar.cal k c } }
    if o.op = .calZero then
      (if sum.natAbs ≤ 128 * n then setFinal o.id stOk [] (put { c with offset := roundDiv (sum * 65536) n })
        else setFinal o.id stRange [] s)
    else
      let den := sum * 65536 - c.offset * n
      let v := signed 32 (leAt o.payload 0 4)
      let num : Int := if k = 35 ∨ k = 36 then v * 2 ^ 64 else v * 2 ^ 32
      let scale : Nat := if k = 35 ∨ k = 36 then 15625 else 1
      let gain := roundDiv ((if den < 0 then -num else num) * n) (scale * den.natAbs)
      let nominal : Int := calNominal k
      if den.natAbs < 256 * 65536 * n ∨ 4 * gain < 3 * nominal ∨ 5 * nominal < 4 * gain then setFinal o.id stRange [] s
      else
        let d : Cal := { c with gain := gain.toNat }
        setFinal o.id stOk (calBytes d) (put d)

/-- What an operation that runs in a slot waited for has come. -/
def completeOp (o : Oper) (s : State) : State :=
  match o.op with
  | .dgDesc => descDone o s
  | .dgExport => exportDone o s
  | .dgImport => importDone o s
  | .calZero => if s.sar.calCnt = s.sar.calN then calDone o s else s
  | .calSpan => if s.sar.calCnt = s.sar.calN then calDone o s else s
  | _ => s

/-- The operation in a slot that has started and has no final status. -/
def runningIn (s : State) (slot : Fin 8) : Option Oper :=
  (vget s.sprue.slots slot none).filter fun o => !o.waiting && o.final.isNone

/-- OPERATION_COMPLETE: the deferred work of an accepted operation ends, and its result is stored (R66). -/
def execOperationComplete (dt : Nat) (slot : Fin 8) (s : State) : Out :=
  act dt (fun t => settle (match runningIn t slot with
    | some o => completeOp o t
    | none => t)) s

/-- An operation without an answer 200 µs after its timestamp; an UNLOCK that runs answers with its final status
(R57; 07 R158; 13 R336, R339). -/
def unanswered (s : State) (slot : Fin 8) : Option Oper :=
  (vget s.sprue.slots slot none).filter fun o =>
    !o.replied && o.interim.isNone && o.final.isNone && (o.waiting || o.op != .unlock)

/-- INTERIM_ACCEPTED: ACCEPTED is answered 200 µs after the timestamp. -/
def execInterimAccepted (slot : Fin 8) (s : State) : Out :=
  actAt (fun s => (unanswered s slot).map fun o => o.stamp + 1638)
    (fun t => settle (match unanswered t slot with
      | some o => modOp o.id (fun x => { x with interim := some stAccepted }) t
      | none => t)) s

/-! ## Opcodes -/

/-- PING. -/
def execPing (dt : Nat) (p : Pkt) (s : State) : Out := act dt (submit .ping p) s

/-- IDENT. -/
def execIdent (dt : Nat) (p : Pkt) (s : State) : Out := act dt (submit .ident p) s

/-- STAGE. -/
def execStage (dt : Nat) (p : Pkt) (s : State) : Out := act dt (submit .stage p) s

/-- RESET. -/
def execReset (dt : Nat) (p : Pkt) (s : State) : Out := act dt (submit .reset p) s

/-- SLEEP. -/
def execSleep (dt : Nat) (p : Pkt) (s : State) : Out := act dt (submit .sleep p) s

/-- WAKE. -/
def execWake (dt : Nat) (p : Pkt) (s : State) : Out := act dt (submit .wake p) s

/-- CAPS. -/
def execCaps (dt : Nat) (p : Pkt) (s : State) : Out := act dt (submit .caps p) s

/-- POLL. -/
def execPoll (dt : Nat) (p : Pkt) (s : State) : Out := act dt (submit .poll p) s

/-- CANCEL. -/
def execCancel (dt : Nat) (p : Pkt) (s : State) : Out := act dt (submit .cancel p) s

/-- GET. -/
def execGet (dt : Nat) (p : Pkt) (s : State) : Out := act dt (submit .get p) s

/-- SET. -/
def execSet (dt : Nat) (p : Pkt) (s : State) : Out := act dt (submit .set p) s

/-- SET_BULK. -/
def execSetBulk (dt : Nat) (p : Pkt) (s : State) : Out := act dt (submit .setBulk p) s

/-- PRT_CLEAR: a SET of PRT_CLEAR (06 R133, 16 R388). -/
def execPrtClear (dt : Nat) (p : Pkt) (s : State) : Out := act dt (submit .set { p with arg := 0x031A }) s

/-- TAMP_ACK: a SET of TAMP_ACK (14 R347). -/
def execTampAck (dt : Nat) (p : Pkt) (s : State) : Out := act dt (submit .set { p with arg := 0x0B21 }) s

/-- TAMP_REARM: a SET of TAMP_REARM (14 R357). -/
def execTampRearm (dt : Nat) (p : Pkt) (s : State) : Out := act dt (submit .set { p with arg := 0x0B20 }) s

/-- ANN_FCC_A: a SET of ANN_FCC_A (10 R238). -/
def execAnnFccA (dt : Nat) (p : Pkt) (s : State) : Out := act dt (submit .set { p with arg := 0x0625 }) s

/-- COMMIT. -/
def execCommit (dt : Nat) (p : Pkt) (s : State) : Out := act dt (submit .commit p) s

/-- REVERT. -/
def execRevert (dt : Nat) (p : Pkt) (s : State) : Out := act dt (submit .revert p) s

/-- PEEK. -/
def execPeek (dt : Nat) (p : Pkt) (s : State) : Out := act dt (submit .peek p) s

/-- POKE. -/
def execPoke (dt : Nat) (p : Pkt) (s : State) : Out := act dt (submit .poke p) s

/-- ACC_READ. -/
def execAccRead (dt : Nat) (p : Pkt) (s : State) : Out := act dt (submit .accRead p) s

/-- TRK_READ. -/
def execTrkRead (dt : Nat) (p : Pkt) (s : State) : Out := act dt (submit .trkRead p) s

/-- ACC_CLEAR. -/
def execAccClear (dt : Nat) (p : Pkt) (s : State) : Out := act dt (submit .accClear p) s

/-- SEQ_LOAD. -/
def execSeqLoad (dt : Nat) (p : Pkt) (s : State) : Out := act dt (submit .seqLoad p) s

/-- SEQ_START. -/
def execSeqStart (dt : Nat) (p : Pkt) (s : State) : Out := act dt (submit .seqStart p) s

/-- FLARE. -/
def execFlare (dt : Nat) (p : Pkt) (s : State) : Out := act dt (submit .flare p) s

/-- CAL_ZERO. -/
def execCalZero (dt : Nat) (p : Pkt) (s : State) : Out := act dt (submit .calZero p) s

/-- CAL_SPAN. -/
def execCalSpan (dt : Nat) (p : Pkt) (s : State) : Out := act dt (submit .calSpan p) s

/-- CAL_STORE. -/
def execCalStore (dt : Nat) (p : Pkt) (s : State) : Out := act dt (submit .calStore p) s

/-- GAUGE_READ. -/
def execGaugeRead (dt : Nat) (p : Pkt) (s : State) : Out := act dt (submit .gaugeRead p) s

/-- CELL_READ. -/
def execCellRead (dt : Nat) (p : Pkt) (s : State) : Out := act dt (submit .cellRead p) s

/-- MODEL_LOAD. -/
def execModelLoad (dt : Nat) (p : Pkt) (s : State) : Out := act dt (submit .modelLoad p) s

/-- GLINT_READ. -/
def execGlintRead (dt : Nat) (p : Pkt) (s : State) : Out := act dt (submit .glintRead p) s

/-- ALM_READ. -/
def execAlmRead (dt : Nat) (p : Pkt) (s : State) : Out := act dt (submit .almRead p) s

/-- SEA_STATE. -/
def execSeaState (dt : Nat) (p : Pkt) (s : State) : Out := act dt (submit .seaState p) s

/-- SCHED_LOAD. -/
def execSchedLoad (dt : Nat) (p : Pkt) (s : State) : Out := act dt (submit .schedLoad p) s

/-- SHED_SET. -/
def execShedSet (dt : Nat) (p : Pkt) (s : State) : Out := act dt (submit .shedSet p) s

/-- ANNEAL_READ. -/
def execAnnealRead (dt : Nat) (p : Pkt) (s : State) : Out := act dt (submit .annealRead p) s

/-- SB_CAPTURE. -/
def execSbCapture (dt : Nat) (p : Pkt) (s : State) : Out := act dt (submit .sbCapture p) s

/-- CMP_SET. -/
def execCmpSet (dt : Nat) (p : Pkt) (s : State) : Out := act dt (submit .cmpSet p) s

/-- CDN_SET. -/
def execCdnSet (dt : Nat) (p : Pkt) (s : State) : Out := act dt (submit .cdnSet p) s

/-- CAPQ_READ. -/
def execCapqRead (dt : Nat) (p : Pkt) (s : State) : Out := act dt (submit .capqRead p) s

/-- RTC_SET. -/
def execRtcSet (dt : Nat) (p : Pkt) (s : State) : Out := act dt (submit .rtcSet p) s

/-- DG_OPEN. -/
def execDgOpen (dt : Nat) (p : Pkt) (s : State) : Out := act dt (submit .dgOpen p) s

/-- DG_FEED. -/
def execDgFeed (dt : Nat) (p : Pkt) (s : State) : Out := act dt (submit .dgFeed p) s

/-- DG_DESC. -/
def execDgDesc (dt : Nat) (p : Pkt) (s : State) : Out := act dt (submit .dgDesc p) s

/-- DG_FINISH. -/
def execDgFinish (dt : Nat) (p : Pkt) (s : State) : Out := act dt (submit .dgFinish p) s

/-- DG_EXPORT. -/
def execDgExport (dt : Nat) (p : Pkt) (s : State) : Out := act dt (submit .dgExport p) s

/-- DG_IMPORT. -/
def execDgImport (dt : Nat) (p : Pkt) (s : State) : Out := act dt (submit .dgImport p) s

/-- AUTH_CHAL. -/
def execAuthChal (dt : Nat) (p : Pkt) (s : State) : Out := act dt (submit .authChal p) s

/-- UNLOCK_CHAL. -/
def execUnlockChal (dt : Nat) (p : Pkt) (s : State) : Out := act dt (submit .unlockChal p) s

/-- UNLOCK. -/
def execUnlock (dt : Nat) (p : Pkt) (s : State) : Out := act dt (submit .unlock p) s

/-- SEAL. -/
def execSeal (dt : Nat) (p : Pkt) (s : State) : Out := act dt (submit .seal p) s

/-- KEY_LOAD. -/
def execKeyLoad (dt : Nat) (p : Pkt) (s : State) : Out := act dt (submit .keyLoad p) s

/-- CST_READ. -/
def execCstRead (dt : Nat) (p : Pkt) (s : State) : Out := act dt (submit .cstRead p) s

/-- CST_CONFIG. -/
def execCstConfig (dt : Nat) (p : Pkt) (s : State) : Out := act dt (submit .cstConfig p) s

/-- LINK_STATS. -/
def execLinkStats (dt : Nat) (p : Pkt) (s : State) : Out := act dt (submit .linkStats p) s

/-- CST_LEAVE. -/
def execCstLeave (dt : Nat) (p : Pkt) (s : State) : Out := act dt (submit .cstLeave p) s

/-- LOG_READ. -/
def execLogRead (dt : Nat) (p : Pkt) (s : State) : Out := act dt (submit .logRead p) s

/-- LOG_MARK. -/
def execLogMark (dt : Nat) (p : Pkt) (s : State) : Out := act dt (submit .logMark p) s

end Sys2Proof.Machine
end

