-- ==== Sys2Proof/Machine/Supply.lean ====
section
/-! DEFINITION. The commands of the supply: power-on, brown-out reset, NRST, the brown-out warning, VDDIO and the supply
ladder (04_staged_start.md R76, 05_supply_and_modes.md R105 to R110). -/

namespace Sys2Proof.Machine

/-! ## Resets that hold the logic (04 R76, 05 R104, R107) -/

/-- POWER_ON (R76): VREG rises through the BOR level; a cold start follows, unless NRST still holds the part. -/
def execPowerOn (s : State) : Out :=
  if s.pwr.powered then .next s
  else if s.pwr.nrstLow then .next { s with pwr := { s.pwr with powered := true } }
  else .next (coldStart 1 s)

/-- NRST goes low: the logic is held, and the start to come is one by NRST, or by power-on while VREG is absent. -/
def nrstDown (s : State) : State := holdReset s.pwr.powered true (if s.pwr.powered then 2 else s.start.reason) s

/-- NRST_ASSERT (R76). -/
def execNrstAssert (dt : Nat) (s : State) : Out := .next (if s.pwr.nrstLow then s else nrstDown (elapse dt s))

/-- NRST_RELEASE (R76): the cold start begins, where VREG stands. -/
def execNrstRelease (dt : Nat) (s : State) : Out :=
  .next (
    if !s.pwr.nrstLow then elapse dt s
    else if s.pwr.powered then coldStart s.start.reason s
    else { s with pwr := { s.pwr with nrstLow := false } })

/-- BOR (R107): VREG falls below the BOR level; everything but the Ingot store is lost. -/
def execBor (dt : Nat) (s : State) : Out :=
  .next (if s.pwr.powered then holdReset false s.pwr.nrstLow 1 (elapse dt s) else s)

/-! ## The brown-out warning (R106, R108 to R110) -/

/-- The data of a brown-out entry: the lowest step, the count, the duration in AON ticks (14 R354). -/
def bowData (s : State) (ticks : Nat) : List Byte :=
  leBytes 1 s.pwr.vminStep ++ leBytes 2 s.pwr.bowCount ++ leBytes 4 ticks

/-- An operation that waits for an Ingot commit outside the queue has DEFER as its interim answer (R109). -/
def bowAuth (o : Oper) : Oper :=
  if o.op = .authChal ∧ o.final.isNone ∧ !o.waiting ∧ o.ctr ≠ 0 ∧ o.interim.isNone then { o with interim := some stDefer }
  else o

/-- The transmitter stops: the abandoned frame waits again, a beacon or a report for its own window (R109, R111; 12
R284). -/
def linkAbandon (s : State) : State :=
  match s.link.sending with
  | none => { s with link := { s.link with txEnd := none } }
  | some f =>
    let t := linkCount 3 (mediumEnds { s with link := { s.link with sending := none, txEnd := none } })
    { t with link := { t.link with txq := f :: t.link.txq } }

/-- After the release the frames that wait begin their medium access again; a beacon or a report that was stopped starts
as soon as the transmitter can be on for its lead (R111; 12 R277). -/
def linkAgain (s : State) : State :=
  let f (x : TxFrame) : TxFrame := { x with readyAt := now s + if x.typ ≤ 2 then usTicks 44 else 0 }
  { s with link := { s.link with txq := s.link.txq.map f } }

/-- BOW asserts: it is counted and logged, the Ingot and the transmitter stop, a depassivation pulse ends (R108, R109;
10 R248). -/
def bowOn (s : State) : State :=
  let a := { s with pwr := { s.pwr with
      bow := true, bowSeen := true, bowCount := satTo 65535 (s.pwr.bowCount + 1), bowAt := now s } }
  let b := logEvent 0x07 (bowData a 0) a
  settle (dpasGuard (linkAbandon (mapOps bowAuth (bowQueue (bowAbandon b)))))

/-- BOW_ASSERT (R106, R109): recognised at a CBM edge, the second consecutive one that samples VREG low since the comparator
was clocked or last released. -/
def execBowAssert (dt : Nat) (s : State) : Out :=
  act dt (fun s =>
    let t := elapseTo (upCbm (now s)) s
    if t.clk.fllLock && !t.pwr.bow && decide (cbmCount t.pwr.bowOffAt + 2 ≤ cbmCount (now t)) then bowOn t else t) s

/-- The entry of the warning that ends now carries its duration (14 R354). -/
def bowEntry (s : State) (e : LogEnt) : LogEnt :=
  if e.typ = 0x07 ∧ e.stamp = s.pwr.bowAt then { e with data := padTo 32 (bowData s (now s / 250 - s.pwr.bowAt / 250)) }
  else e

/-- Lode starts now (02 R38). -/
def startLode (s : State) : State :=
  { s with clk := { s.clk with lode := .locking, lodeStart := now s }, sar := { s.sar with refRdy := false } }

/-- A start that BOW held back before its first Lode start (04 R79). -/
def lodeHeldBack (s : State) : Bool :=
  s.start.emberDone && s.clk.lode == .off && decide (s.clk.lockTry = 0) && s.start.stage == .ember
    && s.pwr.mode == .run && decide (s.start.romFails < 2)

/-- BOW releases: what waited goes on (R109, R110). -/
def bowOff (s : State) : State :=
  let a := { s with
    tamp := { s.tamp with logWait := s.tamp.logWait.map (bowEntry s) }
    pwr := { s.pwr with bow := false, bowOffAt := now s } }
  let b := linkAgain (refill a)
  settle (if lodeHeldBack b then startLode b else b)

/-- BOW_RELEASE (R106): at an AON edge, the 8th in a row since the warning that samples VREG good. -/
def execBowRelease (dt : Nat) (s : State) : Out :=
  act dt (fun s =>
    let t := elapseTo (upAon (now s)) s
    if t.pwr.bow && decide (t.pwr.bowAt / 250 + 8 ≤ now t / 250) then bowOff t else t) s

/-! ## VDDIO and the supply ladder (R103, R105, R108) -/

/-- VDDIO_CHANGE (R105): VDDIO_OK at 1.62 V, and the minimum of R103 at 1.8 V; VDDIO may change while the logic is held. -/
def execVddioChange (dt : Nat) (mv : Nat) (s : State) : Out :=
  let t := elapse dt s
  .next { t with pwr := { t.pwr with vddioOk := decide (1620 ≤ mv), vddioMin := decide (1800 ≤ mv) } }

/-- SUPPLY_LADDER_STEP (R108): the lowest step reached is kept. -/
def execSupplyLadderStep (dt : Nat) (step : Fin 8) (s : State) : Out :=
  act dt (fun s => if s.clk.fllLock then { s with pwr := { s.pwr with vminStep := max s.pwr.vminStep step.val } } else s) s

end Sys2Proof.Machine
end

