-- ==== Sys2Proof/Machine/PourOps.lean ====
section
/-! DEFINITION. What Pour restores, merges and starts (04_staged_start.md R88 to R98, 09_gauge_model.md R193, R206, R209). -/

namespace Sys2Proof.Machine

/-! ## Step 1: replay (15 R371) -/

/-- The RXCTR entries of the journal (12 R289). -/
def replayRx (s : State) : List (Nat × Nat × List Byte) :=
  (List.range 32).filterMap fun i => match newest s 0x42 i with
    | some ⟨_, _, _, .words [ser, c]⟩ => if ser = 0 then none else some (ser, c, [])
    | _ => none

/-- A restored lockout runs its full time again (13 R337). -/
def lockoutAgain (s : State) (fails k : Nat) (out : Bool) : PortLock :=
  { PortLock.reset with
    fails := fails, k := k, until_ := if out then some (now s + secTicks (60 * lockoutMinutes k)) else none }

/-- The lock level and lockouts of the LOCK record; OPEN with none (13 R332, R337). -/
def replayLock (s : State) : State :=
  match newest s 0x41 0 with
  | some ⟨_, _, _, .lock lv hf hk ho ff fk fo⟩ =>
    { s with sec := { s.sec with
        lock := lv, host := lockoutAgain s hf hk ho, field := lockoutAgain s ff fk fo } }
  | _ => { s with sec := { s.sec with lock := lockOfCode (prm s 0x0A03) } }

/-- The adopted configuration block of the journal (12 R299). -/
def replayCfg (s : State) : State :=
  match newest s 0x50 0 with
  | some ⟨_, _, _, .bytes b⟩ => { s with link := { s.link with cfg := some b, gen := leAt b 0 4 } }
  | _ => { s with link := { s.link with cfg := none, gen := 0 } }

/-- The newest TXN that committed. -/
def replayLastTxn (s : State) : Nat :=
  ((committedTxns (storedAll s)).foldl (fun best t => match best with
    | none => some t
    | some x => if txnLater t x then some t else some x) (none : Option Nat)).getD 0

/-- The journal is replayed (R371): the committed parameters, the counters, the receive table, the head. Without a valid
header copy the store is bad and holds nothing. -/
def replay (s0 : State) : State :=
  let bad := !s0.nv.hdrA && !s0.nv.hdrB
  let s1 := { s0 with nv := { s0.nv with storeBad := bad } }
  let s := if bad then s1 else replayHeader s1
  let t := { s with
    par := ⟨if bad then [] else replayParams s, [], []⟩
    nv := { s.nv with head := replayHead s, nextTxn := replayTxn s, lastTxn := replayLastTxn s }
    sec := { s.sec with useRes := replayCounter s 1 }
    tamp := { s.tamp with rearmCtr := replayCounter s 2 }
    link := { s.link with ctrRes := replayCounter s 0, rxTable := replayRx s } }
  replayCfg { t with par := t.par.applyAll }

/-! ## Step 2: the model (04 R93, 09 R195 to R209, 10 R236, R239) -/

/-- The account of a bank from its COUL record (15 R362). -/
def replayAcct (s : State) (b : Bank) : State :=
  match newest s 0x21 (match b with | .a => 0 | .b => 1) with
  | some ⟨_, _, _, .coul _ q aOff aSelf mark _ _ temp pasv cycles⟩ =>
    let x := acctOf b s
    let t := setAcct b { x with q := q, aOff := aOff, aSelf := aSelf, mark := mark, temp := temp, cycles := cycles } s
    match b with
    | .a => t
    | .b => { t with gauge := { t.gauge with pasv := pasv } }
  | _ => s

/-- The life number of a bank's COUL record; none without one. -/
def recordLife (s : State) (b : Bank) : Option Nat :=
  match newest s 0x21 (match b with | .a => 0 | .b => 1) with
  | some ⟨_, _, _, .coul life _ _ _ _ _ _ _ _ _⟩ => some life
  | _ => none

/-- The RTC and temperature of the Bank B record, where its RTC was valid (09 R209). -/
def recordRtc (s : State) : Option (Nat × Rat) :=
  match newest s 0x21 1 with
  | some ⟨_, _, _, .coul _ _ _ _ _ rtc true temp _ _⟩ => some (rtc, temp)
  | _ => none

/-- The cells and scalings of the CELL records. -/
def replayCell (s : State) (i : Nat) : State :=
  match newest s 0x22 i with
  | some ⟨_, _, _, .cell c ageA gF gL ageB⟩ =>
    { s with gauge := { s.gauge with
        cells := vset s.gauge.cells i { c with v := 0, bal := 0, balAnchor := 0 }
        ageA := ageA, gF := gF, gL := gL, ageB := ageB } }
  | _ => s

/-- The ANNEAL records; an event open at the end of that life is rejected (10 R237, R239). -/
def replayAnneal (s : State) : State :=
  let a := match newest s 0x23 0 with
    | some ⟨_, _, _, .annealA acc rej opened⟩ =>
      if opened then { Anneal.reset with accA := acc, rejA := satTo 65535 (rej + 1), reason := 5 }
      else { Anneal.reset with accA := acc, rejA := rej }
    | _ => Anneal.reset
  let b := match newest s 0x23 1 with
    | some ⟨_, _, _, .annealB l⟩ => { a with cAvail := l }
    | _ => a
  { s with anneal := b }

/-- The ALM records (10 R236). -/
def replayAlm (s : State) : State :=
  let bins (k : Nat) : Vector (Option Rat) 48 := match newest s 0x30 k with
    | some ⟨_, _, _, .bins l⟩ => Vector.ofFn fun i : Fin 48 => l.getD i none
    | _ => Vector.replicate 48 none
  let d := match newest s 0x30 2 with
    | some ⟨_, _, _, .daily l⟩ => l
    | _ => []
  { s with alm := { Almanac.reset with load := bins 0, harv := bins 1, daily := d } }

/-- The computed shed level and the depassivation history of the POLICY record (10 R244, R246). -/
def replayPolicy (s : State) : State :=
  let p : Policy := { Policy.reset with pins := s.pol.pins, pinsOld := s.pol.pinsOld, pinsAt := s.pol.pinsAt }
  match newest s 0x31 0 with
  | some ⟨_, _, _, .policy computed last day n mwh⟩ =>
    { s with pol := { p with computed := computed, dpasRtc := last, dpasOn := day, dpasN := n, dpasDay := mwh } }
  | _ => { s with pol := p }

/-- The profiles of the journal (09 R201). -/
def replayProfiles (s : State) : State :=
  { s with gauge := { s.gauge with profiles := Vector.ofFn fun i : Fin 4 => replayProfile s i } }

/-- The model state of the journal. -/
def replayModel (s : State) : State :=
  replayPolicy (replayAlm (replayAnneal ((List.range 16).foldl replayCell
    (replayAcct (replayAcct (replayProfiles { s with gauge := { Gauge.reset with snap := s.gauge.snap } }) .a) .b))))

/-- The life number is set to the stored one plus 1 and committed before any record that refers to it (R84). A store
without a LIFE record counts as holding 0 (DESIGN CHOICE: the spec does not say; assumption log 151). -/
def newLife (s : State) : State :=
  let stored := match newest s 0x20 0 with
    | some ⟨_, _, _, .words [v]⟩ => v
    | _ => 0
  let life := (stored + 1) % 2 ^ 32
  let t := { s with start := { s.start with lifeAon := life } }
  let r : Rec := ⟨0x20, 0, 1, .words [life]⟩
  if t.pwr.bow || t.nv.storeBad then commitInternal [r] t else journalNow [r] t

/-! ## Step 3: the merge (R94) -/

/-- The merge of a bank by the first or the second branch; the second leaves OFFPWR (R94, 09 R206). The count of an absent
Bank B does not feed the model (01 R27). -/
def mergeBank (first : Bool) (b : Bank) (s : State) : State :=
  let x := acctOf b s
  let t := (cqOf b s).cap
  if b = .b ∧ !bbPresent s then setAcct b { x with mark := t } s
  else if first then setAcct b { x with q := x.q + tallyDiff t x.mark, mark := t } s
  else setAcct b { x with q := x.q + t, mark := t, offpwr := true } s

/-- Bank A after an interval without power (09 R206). -/
def offPower (s : State) : State :=
  mapCells (fun _ c => atLeastSigma ((prm s 0x050A : Rat) / 1000) { c with vF := 0, vL := 0 }) s

/-- After the merge the model steps from the capture on. -/
def mergeDone (s : State) : State :=
  { s with gauge := { s.gauge with
      lastS := s.capStamp, lastTA := s.cqa.cap, lastTB := s.cqb.cap, stepped := false } }

/-- The merge with the journal's records (R94, R102). -/
def mergeRecords (bits : Bits) (s0 : State) : State :=
  let fa := recordLife s0 .a == some s0.start.lifeAon
  let fb := recordLife s0 .b == some s0.start.lifeAon
  let s := mergeBank fb .b (mergeBank fa .a (captureTallies bits s0))
  let t := if fa then s else offPower s
  mergeDone { t with gauge := { t.gauge with offRec := if fb then none else recordRtc s } }

/-- The merge with the retained block (R94, R98); after a wake from Watch the self-discharge of Bank B is advanced over
the interval and the rest is counted anew (09 R205, R209). -/
def mergeRetained (bits : Bits) (s0 : State) : State :=
  let s := mergeBank true .b (mergeBank true .a (captureTallies bits s0))
  let woke := s.start.reason == 7
  let secs : Rat := ((s.capStamp - s0.gauge.lastS : Nat) : Rat) / 8192000
  let sd := if woke && bbPresent s then s.gauge.sd + selfDischarge s s.gauge.b.temp secs else s.gauge.sd
  let t := mapCells (fun _ c => { c with bal := 0 }) (mergeDone s)
  { t with gauge := { t.gauge with
      sd := sd
      restSince := if woke then none else t.gauge.restSince
      rest := !woke && t.gauge.rest
      firstAfterWake := woke } }

/-! ## Step 4: tamper and keys (R93, R95, R100; 14 R350) -/

/-- A latched Quench closes the lock and leaves the slots empty. -/
def quenchPour (s : State) : State :=
  if allSources.any fun k => (srcOf s k).unlogged && (match (srcOf s k).latch with | some r => r.quench | none => false) then
    unloadAll (setLevel .sealed 3 noPacket s) true
  else s

/-- The slots below `n` are unwrapped, slot `n` is left empty, the rest are not reached (R100). -/
def unwrapUpTo (n : Nat) (s : State) : State :=
  let slot (i : Nat) : KeySlot :=
    if i < n then loadSlot s i
    else if i = n then { KeySlot.empty with gen := (unloadSlot s false i).gen }
    else unloadSlot s false i
  { s with sec := { s.sec with keys := Vector.ofFn fun i : Fin 16 => slot i } }

/-- The keys are unwrapped; an event meanwhile aborts it, and where its response is a Quench no slot stays loaded
(R93, R100). -/
def unwrapKeys (hit : Option UnwrapHit) (s : State) : State :=
  match hit with
  | none => loadAll s
  | some h =>
    if !tamperReal h.seen s then loadAll s
    else
      let t := tamperAt h.seen (unwrapUpTo h.slot s)
      if (responseOf s h.seen.src).quench then unloadAll t true else t

/-- The slot and the priority of this join are in force from here on (12 R307). -/
def joinSlot (s : State) : State := { s with link := { s.link with prio := prm s 0x0902, keySlot := prm s 0x0903 } }

/-- Latched events are judged, the keys are unwrapped where nothing bars it, and what start held back is done. -/
def pourKeys (cold : Bool) (hit : Option UnwrapHit) (s0 : State) : State :=
  let s1 := quenchPour (joinSlot (if cold then allSources.foldl rejudge s0 else s0))
  let s2 := if unwrapBarred s1 then unloadAll s1 true else unwrapKeys hit s1
  let s3 := resumeTamper 8 (rewriteAll s2)
  if s3.tamp.q2Erase then eraseDone s3 else s3

/-! ## Step 5: sequences, ports and policy (R93) -/

/-- The thermistor entries: channels that follow each other share one entry (09 R194). -/
def thermEntries : List Nat → Nat → List SeqEntry
  | [], _ => []
  | t :: r, acc =>
    match thermEntries r (acc + 1) with
    | e :: l => if e.chan = 0x20 + t + 1 then { e with chan := 0x20 + t, span := e.span + 1, acc := acc, trk := acc } :: l
      else ⟨0x20 + t, 1, 16, 0, acc, acc, 4⟩ :: e :: l
    | [] => [⟨0x20 + t, 1, 16, 0, acc, acc, 4⟩]

/-- The Melt Routine sequence: bank voltages, thermistors and die temperature, into the accumulators that R194 gives them (04
R85; assumption log 133). -/
def meltRoutine (s : State) : List SeqEntry :=
  [⟨0x11, 1, 16, 0, 16, 16, 8⟩, ⟨0x12, 1, 16, 0, 17, 17, 8⟩] ++ thermEntries (thermList s) 20 ++ [⟨0x3B, 1, 16, 0, 23, 23, 4⟩]

/-- The firmware's Routine entries (07 R153, 09 R194). -/
def firmwareRoutine (s : State) : List SeqEntry :=
  let bb := bbPresent s
  [⟨0x01, series s, 16, 0, 0, 0, 8⟩, ⟨0x11, 1, 16, 0, 16, 16, 8⟩]
    ++ (if bb then ([⟨0x12, 1, 16, 0, 17, 17, 8⟩] : List SeqEntry) else [])
    ++ [⟨0x18, 1, 16, 4, 18, 18, 16⟩]
    ++ (if bb then ([⟨0x19, 1, 16, 4, 19, 19, 16⟩] : List SeqEntry) else [])
    ++ thermEntries (thermList s) 20 ++ [⟨0x3B, 1, 16, 0, 23, 23, 4⟩]

/-- The integrators and the SAR sequences as configured (06 R145, 07 R153, R157, R161); the Melt sequence is over. -/
def startMeasuring (s : State) : State :=
  let cq (b : Nat) (q : Cq) : Cq := { q with win := prm s (0x0420 + 2 * b), order := prm s (0x0421 + 2 * b) - 1 }
  { s with
    cqa := cq 0 s.cqa
    cqb := cq 1 s.cqb
    sar := { s.sar with
      routFw := firmwareRoutine s, routDue := some (now s), routPos := none, autoA := 0, autoB := 0, autoCntA := 0, autoCntB := 0 } }

/-- The link begins: the join listen, or at once a Star that seeks its constellation where a beacon was heard within the
8 s before a wake (R98; 12 R288, R291). -/
def startLink (s : State) : State :=
  let t := { s with link := { s.link with ctr := s.link.ctrRes, listenAt := now s, heard := false, poleChanges := 0 } }
  let u := commitInternal [counterRec 0 (min (t.link.ctrRes + 4096) 0xFFFFFFFF)] t
  let joins := linkEn u && prm u 0x0907 == 1 && serialOf u != 0 && slotReady u u.link.keySlot
  let recent := match u.link.lastBeacon with
    | some t => decide (u.start.startBase ≤ t + secTicks 8)
    | none => false
  if !joins then { u with link := { u.link with role := .silent } }
  else if u.start.reason == 7 && recent then queueFrame 0x03 5 [] none { u with link := { u.link with role := .joining } }
  else { u with link := { u.link with role := .listening } }

/-- The policy restarts: at a cold start the ladder holds its committed level with a full new hold (10 R231, R244). -/
def startPolicy (cold : Bool) (s : State) : State :=
  let t := if cold then
      { s with
        pol := { s.pol with holdAt := now s, floor := 0 }
        alm := { s.alm with sea := prm s 0x060A, seaAt := now s, dutyAt := now s } }
    else s
  shedLines (binSpoil { t with alm := { t.alm with
      binStart := none, binIdx := t.tmr.rtcSec / 1800, dayIdx := if cold then t.tmr.rtcSec / 86400 else t.alm.dayIdx } })

/-- Step 5 and the stage (R93, R96): the model steps every second from here on. -/
def pourStart (cold : Bool) (s0 : State) : State :=
  let a := startPolicy cold (startLink (startMeasuring s0))
  let b := glintApply { a with
    field := { a.field with
      proto := prm a 0x0810, baud := prm a 0x0811, frame := prm a 0x0812, addr := prm a 0x0813
      activeAt := now a, rxAt := now a, nmeaAt := now a }
    sec := { a.sec with useCtr := a.sec.useRes, lockAt := now a } }
  let c := reserve 1 b.sec.useCtr b.sec.useRes b
  let d := armLead (armFw 4 (now c + secTicks 1) 0x13 c)
  let lifeBefore := if d.start.reason ≤ 3 then (d.start.lifeAon + 4294967295) % 4294967296 else d.start.lifeAon
  let e := logEvent 0x01
    (leBytes 1 d.start.reason ++ leBytes 1 d.start.fault ++ leBytes 2 d.start.warmCount ++ leBytes 4 lifeBefore) d
  let f := { e with
    start := { e.start with stage := .pour, imgWhole := true }
    gauge := { e.gauge with coulAt := now e, coulN := 0 } }
  let g := publishAs 0 f
  retain (settle { g with gauge := { g.gauge with stepped := false } })

/-- The configuration is taken from the journal: parameters, counters, lock level, calibration; the configured limits take
over (R89, R93). -/
def replayConfig (s0 : State) : State :=
  let s := replayLock (replay s0)
  { s with sar := { s.sar with cal := (sarWarm s).cal }, afe := { s.afe with emberLim := false } }

/-- Pour of a cold start (R93); it rebuilds the configuration image (R89). -/
def coldPour (bits : Bits) (hit : Option UnwrapHit) (s0 : State) : State :=
  let s1 := imageRewrite (replayModel (replayConfig { s0 with start := { s0.start with imgOver := false } }))
  pourStart true (pourKeys true hit (mergeRecords bits (newLife s1)))

/-- The newer copy of the restart state that has been written and whose CRC agrees (R88). -/
def retNewest (crc : Crcs) (s : State) : Option RetCopy :=
  let good (ok : Bool) (c : RetCopy) : Option RetCopy := if ok && decide (c.seq ≠ 0) then some c else none
  match good crc.first s.start.retA, good crc.second s.start.retB with
  | some a, some b => some (if a.seq < b.seq then b else a)
  | some a, none => some a
  | none, b => b

/-- The restart state of a copy is restored (R88). What the journal or its image supplies, the LINK counters and the lines
stand as they are; the roles of the link begin anew (12 R291), and no pulse runs (10 R248). -/
def restore (b : Restart) (s : State) : State :=
  { s with
    gauge := { b.gauge with profiles := s.gauge.profiles }
    anneal := b.anneal
    alm := b.alm
    pol := { b.pol with dpas := false, pins := s.pol.pins, pinsOld := s.pol.pinsOld, pinsAt := s.pol.pinsAt }
    link := { linkWarm b.link with
      ctrRes := s.link.ctrRes, cfg := s.link.cfg, gen := s.link.gen, counters := s.link.counters, clearAt := s.link.clearAt } }

/-- The configuration image is good: valid, not marked OVERFLOW, and the profile records it points to agree (R89). -/
def imageGood (crc : Crcs) (s : State) : Bool := s.start.imgWhole && crc.image && !s.start.imgOver && crc.profiles

/-- The image restores what was committed; pending values stay pending (R89). -/
def imageConfig (s : State) : State :=
  let pend := s.par.pending.map fun e => { e with mark := none }
  let par := { s.par with pending := pend }
  { s with par := par.applyAll, afe := { s.afe with emberLim := false } }

/-- Pour on the warm path (R98, R102): the restart state from the retained block, with the configuration from its image, or
where that is not good from a full replay, which alone sets no start fault (R89); without a valid block all from the
journal, with start fault 0x4. -/
def warmPour (bits : Bits) (crc : Crcs) (hit : Option UnwrapHit) (s0 : State) : State :=
  match retNewest crc s0 with
  | some c =>
    let s1 := if imageGood crc s0 then imageConfig s0 else replayProfiles (replayConfig s0)
    pourStart false (pourKeys false hit (mergeRetained bits (restore c.body s1)))
  | none =>
    let s1 := logEvent 0x02 (leBytes 1 4 ++ leBytes 1 s0.clk.lockTry) { s0 with start := { s0.start with fault := 4 } }
    pourStart true (pourKeys true hit (mergeRecords bits (replayModel (replayConfig s1))))

end Sys2Proof.Machine
end

