-- ==== Sys2Proof/Machine/StartUp.lean ====
section
/-! DEFINITION. The commands of the staged start: FLL lock, Ember, the Lode PLL, ROM digest, patch, Melt, Pour
(04_staged_start.md R76 to R102, 02_lode_clock.md R38). -/

namespace Sys2Proof.Machine

/-! ## Ember (R78, R79, R80) -/

/-- The FLL locks at AON tick 16 of a cold start (R78, R79). -/
def fllDue (s : State) : Option Nat := if s.start.stage = .ember ∧ !s.clk.fllLock then some 4000 else none

/-- The comparators of a bank are clocked from now on (R79, 06 R131). -/
def Oc.armed (t : Nat) (o : Oc) : Oc := { o with atDsg := t, atChg := t, atSc := t }

/-- A modulator starts: its tally and its filter count CBM edges from now on (R79, R86, 06 R140). -/
def Cq.started (t : Nat) (q : Cq) : Cq := { q with modRun := true, tallyAt := t, edge := cbmCount t }

/-- From the lock on the modulators run and the comparators are clocked (R79, 06 R140). -/
def fllLocked (s : State) : State :=
  { s with
    clk := { s.clk with fllLock := true }
    pwr := { s.pwr with bowOffAt := now s }
    afe := { s.afe with ocA := s.afe.ocA.armed (now s), ocB := s.afe.ocB.armed (now s) }
    cqa := s.cqa.started (now s)
    cqb := s.cqb.started (now s) }

/-- FLL_LOCK (R78). -/
def execFllLock (s : State) : Out := actAt fllDue fllLocked s

/-- Ember ends at AON tick 49 (R79, R80). -/
def emberDue (s : State) : Option Nat := if s.clk.fllLock && !s.start.emberDone then some 12250 else none

/-- HSEL is latched where VDDIO stands at its minimum, else it reads 0 (R80); Lode starts unless BOW holds (R85). -/
def emberOver (pin : Bool) (s : State) : State :=
  let t := { s with start := { s.start with hsel := pin && s.pwr.vddioMin, emberDone := true } }
  if t.pwr.bow then t else startLode t

/-- EMBER_COMPLETE (R79). -/
def execEmberComplete (hselPin : Bool) (s : State) : Out := actAt emberDue (emberOver hselPin) s

/-! ## Lode (02 R38, 04 R101) -/

/-- The entry of a Lode unlock carries the attempts that failed before the lock that follows it (14 R354). -/
def unlockEntry (s : State) (e : LogEnt) : LogEnt :=
  if e.typ = 0x06 ∧ s.start.reason = 6 ∧ e.stamp = s.start.startBase then { e with data := padTo 32 (leBytes 1 s.clk.lockTry) }
  else e

/-- The epoch at the SLOW edge after LODE_LOCK (02 R38): the Lode domains run, and start fault 0x1 clears. A wake from
Doze is over (05 R118): what waited for Lode goes on. -/
def epochNow (s : State) : State :=
  let t := { s with
    clk := { s.clk with lode := .on, epochs := satTo 65535 (s.clk.epochs + 1) }
    tmr := { s.tmr with epoch := now s }
    tamp := { s.tamp with logWait := s.tamp.logWait.map (unlockEntry s) }
    start := { s.start with fault := if s.start.fault = 1 then 0 else s.start.fault } }
  if atLeast t .pour then
    let u := resumeTamper 0 t
    settle (if u.glint.on then glintRun u else u)
  else t

/-- LODE_LOCK rises now: the running attempt is no older than 13 AON ticks, within the 400 µs of R38 (04 R101). -/
def lockInTime (s : State) : Bool := s.clk.lode == .locking && decide (now s ≤ s.clk.lodeStart + 13 * 250)

/-- LODE_EPOCH (02 R38): LODE_LOCK rises `dt` AON edges on, and the epoch is the first SLOW edge that finds it high. -/
def execLodeEpoch (dt : Nat) (s : State) : Out :=
  act dt (fun t => if lockInTime t then epochNow (elapseTo (upSlow (now t)) t) else t) s

/-- When the running attempt has failed, or the next one starts (R101). -/
def lockRetryAt (s : State) : Option Nat :=
  if s.pwr.mode ≠ .run ∨ 2 ≤ s.start.romFails then none
  else if s.clk.lode = .locking then some (s.clk.lodeStart + 13 * 250)
  else if s.clk.lode = .off ∧ 0 < s.clk.lockTry then
    some (if s.clk.lockTry < 3 then upSlow (s.clk.lodeStart + 13 * 250 + 1) else s.clk.lodeStart + 32768 * 250)
  else none

/-- A failed attempt stops Lode; the third sets start fault 0x1. The next attempt starts Lode again. -/
def lockRetry (s : State) : State :=
  if s.clk.lode = .locking then
    let n := satTo 3 (s.clk.lockTry + 1)
    let t := { s with clk := { s.clk with lode := .off, lockTry := n } }
    if n = 3 ∧ s.clk.lockTry = 2 then
      logEvent 0x02 (leBytes 1 1 ++ leBytes 1 n) { t with start := { t.start with fault := 1 } }
    else t
  else startLode s

/-- LODE_LOCK_RETRY (R101). -/
def execLodeLockRetry (s : State) : Out := actAt lockRetryAt lockRetry s

/-! ## Melt (R85, R87, R90) -/

/-- The boot sequencer works: Lode runs in Ember after a start. -/
def booting (s : State) : Bool := lodeOn s && s.start.stage == .ember && decide (s.start.romFails < 2)

/-- The ROM digest is compared (R85, R87): the cores are released and their watchdogs start, or after the second mismatch
start fault 0x2 is set and Lode stops at the next SLOW edge (02 R38). -/
def romCheck (ok : Bool) (s : State) : State :=
  if !booting s || s.start.released then s
  else if ok then { s with start := { s.start with released := true }, tmr := { s.tmr with wdA := 0, wdB := 0 } }
  else if s.start.romFails = 0 then { s with start := { s.start with romFails := 1 } }
  else
    let t := logEvent 0x02 (leBytes 1 2 ++ leBytes 1 s.clk.lockTry)
      { s with start := { s.start with romFails := 2, fault := 2 } }
    let u := elapseTo (upSlow (now t)) t
    { u with clk := { u.clk with lode := .off } }

/-- ROM_DIGEST_CHECK (R85). -/
def execRomDigestCheck (dt : Nat) (matches_ : Bool) (s : State) : Out := act dt (romCheck matches_) s

/-- Word `i` of the patch area (15 R374). -/
def patchAt (s : State) (i : Nat) : Word := sparseGet 0xFFFFFFFF#32 s.nv.patch i

/-- The bytes of patch words, in store order. -/
def patchBytes (s : State) (i n : Nat) : List Byte := ((List.range n).map fun k => leBytes 4 (patchAt s (i + k)).toNat).flatten

/-- The cause for which a patch area that is not blank is rejected, none for a good patch: 3 format, 1 version line,
2 HMAC, checked in that order (15 R374, 14 R354). -/
def patchCause (s : State) : Option Nat :=
  let w0 := (patchAt s 0).toNat
  let len := (patchAt s 2).toNat
  if w0 % 256 ≠ 1 ∨ len < 1 ∨ 4084 < len ∨ patchAt s 3 ≠ 0#32 then some 3
  else if w0 / 256 % 256 ≠ 3 ∨ w0 / 65536 % 256 ≠ 1 then some 1
  else if hmac 1 (fusedKey Config.patchKey) (patchBytes s 0 (4 + len)) ≠ patchBytes s (4 + len) 8 then some 2
  else none

/-- The Melt Routine sequence starts (R85). -/
def startMelt (s : State) : State :=
  { s with sar := { s.sar with routFw := meltRoutine s, routDue := some (now s) } }

/-- The patch is checked and installed, or rejected with start fault 0x3 (R90); then the Melt sequence starts (R85). -/
def patchCheck (s0 : State) : State :=
  if !booting s0 || !s0.start.released || s0.start.patchDone then s0
  else
    let s := startMelt s0
    let ver := (patchAt s 1).toNat % 65536
    if patchAt s 0 = 0xFFFFFFFF#32 then { s with start := { s.start with patchDone := true, patchVer := 0 } }
    else match patchCause s with
      | none => { s with start := { s.start with patchDone := true, patchVer := ver } }
      | some c =>
        logEvent 0x03 (leBytes 2 ver ++ leBytes 1 c)
          { s with start := { s.start with patchDone := true, patchVer := 0, fault := 3 } }

/-- PATCH_VERIFY (R90). -/
def execPatchVerify (dt : Nat) (s : State) : Out := act dt patchCheck s

/-- Both integrator filters have settled (R85, R86). -/
def cqSettled (s : State) : Bool := decide (s.cqa.settle = 0) && decide (s.cqb.settle = 0)

/-- MELT_REACHED (R85): the sequencer opens. -/
def execMeltReached (dt : Nat) (s : State) : Out :=
  act dt (fun s =>
    if booting s && s.start.patchDone && cqSettled s then { s with start := { s.start with stage := .melt } } else s) s

/-! ## Pour (R93 to R98) -/

/-- Pour's work can run: Melt, Lode on, no debug halt (R93; 02 R40). -/
def canPour (s : State) : Bool := lodeOn s && s.start.stage == .melt && !s.clk.halt

/-- Pour by the reason of the start: reasons 0x1 to 0x3 are cold (R84, R98). -/
def pourNow (bits : Bits) (crc : Crcs) (hit : Option UnwrapHit) (s : State) : State :=
  if s.start.reason ≤ 3 then coldPour bits hit s else warmPour bits crc hit s

/-- POUR (R93). -/
def execPour (dt : Nat) (bits : Bits) (crc : Crcs) (hit : Option UnwrapHit) (s : State) : Out :=
  act dt (fun s => if canPour s then pourNow bits crc hit s else s) s

/-- WARM_START (R98): a start with reason 0x4 to 0x7 reaches Pour. -/
def execWarmStart (dt : Nat) (bits : Bits) (crc : Crcs) (hit : Option UnwrapHit) (s : State) : Out :=
  act dt (fun s => if canPour s && decide (4 ≤ s.start.reason) then warmPour bits crc hit s else s) s

end Sys2Proof.Machine
end

