-- ==== Sys2Proof/Machine/TimerCmds.lean ====
section
/-! DEFINITION. The events of the timer block (08_timers.md). Compare firings, zero ticks, RTC seconds and slew
adjustments happen as time passes (`elapse`); their rows let time pass to the next one. -/

namespace Sys2Proof.Machine

/-- When channel `ch` fires next: the edge at which the base reaches its target, an AON edge in coarse counting (R178). -/
def cmpDeadline (ch : Nat) (s : State) : Option Nat :=
  let c := vget s.tmr.cmp ch Cmp.reset
  if cmpEn c.mode then some (edgeFor s c.target) else none

/-- COMPARE_FIRE (R178). The firing of channel 6 before a declared duty holds Run (09 R216). -/
def execCompareFire (ch : Fin 8) (s : State) : Out :=
  actAt (cmpDeadline ch) (fun t => if ch = 6 then leadFired t else t) s

/-- When countdown `n` has its next zero tick, where its source is a clock (R182, R184). -/
def cdnDeadline (n : Nat) (s : State) : Option Nat :=
  let c := vget s.tmr.cdn n Cdn.reset
  if c.clocked then some (c.zeroAt (!tmrRuns s) s.tmr.base) else none

/-- COUNTDOWN_ZERO (R182). Countdown 3 ends a depassivation pulse (10 R247). -/
def execCountdownZero (n : Fin 4) (s : State) : Out :=
  actAt (cdnDeadline n) (fun t => if n = 3 then dpasTimeout t else t) s

/-- An edge that CAPQ0_EDGE or CAPQ1_EDGE selects: bit 0 rising, bit 1 falling (R185, R192). -/
def tinEnabled (s : State) (pin : Nat) (rising : Bool) : Bool :=
  decide (prm s (0x0C01 + pin) / (if rising then 1 else 2) % 2 = 1)

/-- The AON edge at which the edge detector last saw an edge on a TIN pin (R187). -/
def tinSeen (pin : Nat) (s : State) : Option Nat := if pin = 0 then s.tmr.tin0At else s.tmr.tin1At

/-- The AON edge detector sees an edge at this AON edge (R187). -/
def tinMark (pin : Nat) (s : State) : State :=
  if pin = 0 then { s with tmr := { s.tmr with tin0At := some (now s) } }
  else { s with tmr := { s.tmr with tin1At := some (now s) } }

/-- An edge on a TIN pin that has been recognised. A rising one is counted by the countdowns of its source, whatever
CAPQn_EDGE selects (R180; assumption log 75); a selected one is queued with its stamp and is a wake source where WAKE_EN
says so (R185, R187; 05 R119). -/
def tinTake (pin : Nat) (rising : Bool) (s : State) : State :=
  let t := if rising then cdnEdges (4 + pin) 1 s else s
  if !tinEnabled t pin rising then t
  else
    let u := capqPush pin t
    if wakeEn u (3 + pin) then beginWake u else u

/-- An edge on a TIN pin. In fine counting it is stamped once its level has stood TIN_FILT further PORT ticks, 32 Lode cycles
each (R185); while TMR is stopped the edge detector sees at most one edge per AON tick (R187). -/
def tinEdgeAt (pin : Nat) (rising : Bool) (s : State) : State :=
  if !s.pwr.vddioOk then s
  else if tmrRuns s then tinTake pin rising (elapseTo (now s + prm s 0x0C03 * 32 / 400) s)
  else if tinSeen pin s = some (now s) then s
  else tinTake pin rising (tinMark pin s)

/-- TIN_EDGE (R185). -/
def execTinEdge (dt : Nat) (pin : Fin 2) (rising : Bool) (s : State) : Out := act dt (tinEdgeAt pin rising) s

/-- The AON edge at which RTC_SEC next rises (R189, R190). -/
def rtcWrapAt (s : State) : Option Nat :=
  let n := 32768 - s.tmr.rtcSub
  ((List.range 24).map fun i => (s.tmr.base / 250 + (n + i - 12)) * 250).find? fun t =>
    decide (s.tmr.base < t) && (rtcPass t s.tmr).rtcSec != s.tmr.rtcSec

/-- RTC_SUB_WRAP (R189). -/
def execRtcSubWrap (s : State) : Out := actAt rtcWrapAt id s

/-- The AON edge of the next slew adjustment (R190). -/
def slewAdjustAt (s : State) : Option Nat :=
  if s.tmr.rtcSlew = 0 then none
  else some ((s.tmr.slewAt / 250 + slewPeriod s.tmr.rtcSlew * (slewCount s.tmr.base s.tmr + 1)) * 250)

/-- RTC_SLEW_ADJUST (R190). -/
def execRtcSlewAdjust (s : State) : Out := actAt slewAdjustAt id s

end Sys2Proof.Machine
end

