-- ==== Sys2Proof/Machine/Dispatch.lean ====
section
/-! DEFINITION. One arm for each command, in the order of the table of operations and events. -/

namespace Sys2Proof.Machine

def exec (i : Instr) (s : State) : Host.Outcome State Fault Refusal :=
  match i with
  | .powerOn => Sys2Proof.Machine.execPowerOn s
  | .nrstAssert dt => Sys2Proof.Machine.execNrstAssert dt s
  | .bor dt => Sys2Proof.Machine.execBor dt s
  | .bowAssert dt => Sys2Proof.Machine.execBowAssert dt s
  | .bowRelease dt => Sys2Proof.Machine.execBowRelease dt s
  | .vddioChange dt mv => Sys2Proof.Machine.execVddioChange dt mv s
  | .fllLock => Sys2Proof.Machine.execFllLock s
  | .emberComplete hselPin => Sys2Proof.Machine.execEmberComplete hselPin s
  | .lodeEpoch dt => Sys2Proof.Machine.execLodeEpoch dt s
  | .lodeLockRetry => Sys2Proof.Machine.execLodeLockRetry s
  | .romDigestCheck dt matches_ => Sys2Proof.Machine.execRomDigestCheck dt matches_ s
  | .patchVerify dt => Sys2Proof.Machine.execPatchVerify dt s
  | .meltReached dt => Sys2Proof.Machine.execMeltReached dt s
  | .pour dt bits crc hit => Sys2Proof.Machine.execPour dt bits crc hit s
  | .warmStart dt bits crc hit => Sys2Proof.Machine.execWarmStart dt bits crc hit s
  | .crystalQualified dt => Sys2Proof.Machine.execCrystalQualified dt s
  | .crystalQualifyTimeout => Sys2Proof.Machine.execCrystalQualifyTimeout s
  | .handoverNap dt bits => Sys2Proof.Machine.execHandoverNap dt bits s
  | .crystalFailure dt w1 w2 lfrcCycles => Sys2Proof.Machine.execCrystalFailure dt w1 w2 lfrcCycles s
  | .lodeUnlock dt => Sys2Proof.Machine.execLodeUnlock dt s
  | .coreWatchdog dt core => Sys2Proof.Machine.execCoreWatchdog dt core s
  | .debugAccess dt addr op => Sys2Proof.Machine.execDebugAccess dt addr op s
  | .debugHalt dt => Sys2Proof.Machine.execDebugHalt dt s
  | .debugResume dt => Sys2Proof.Machine.execDebugResume dt s
  | .autoDoze dt => Sys2Proof.Machine.execAutoDoze dt s
  | .idleSleep => Sys2Proof.Machine.execIdleSleep s
  | .lowPowerEntry dt bits => Sys2Proof.Machine.execLowPowerEntry dt bits s
  | .wakeSource dt src => Sys2Proof.Machine.execWakeSource dt src s
  | .scheduledWake dt => Sys2Proof.Machine.execScheduledWake dt s
  | .periodicWake => Sys2Proof.Machine.execPeriodicWake s
  | .wakeHoldExpiry => Sys2Proof.Machine.execWakeHoldExpiry s
  | .deferredAction dt => Sys2Proof.Machine.execDeferredAction dt s
  | .ladderScan r => Sys2Proof.Machine.execLadderScan r s
  | .protectionTrip dt bank cmp shuntUv samples => Sys2Proof.Machine.execProtectionTrip dt bank cmp shuntUv samples s
  | .protectionHoldEnd bank => Sys2Proof.Machine.execProtectionHoldEnd bank s
  | .cqOutput bank mean bits => Sys2Proof.Machine.execCqOutput bank mean bits s
  | .referenceSettled dt => Sys2Proof.Machine.execReferenceSettled dt s
  | .routinePass dt codes => Sys2Proof.Machine.execRoutinePass dt codes s
  | .burstPass dt codes => Sys2Proof.Machine.execBurstPass dt codes s
  | .sarConversion conv => Sys2Proof.Machine.execSarConversion conv s
  | .compareFire ch => Sys2Proof.Machine.execCompareFire ch s
  | .countdownZero n => Sys2Proof.Machine.execCountdownZero n s
  | .tinEdge dt pin rising => Sys2Proof.Machine.execTinEdge dt pin rising s
  | .rtcSubWrap => Sys2Proof.Machine.execRtcSubWrap s
  | .rtcSlewAdjust => Sys2Proof.Machine.execRtcSlewAdjust s
  | .modelStep dt bits => Sys2Proof.Machine.execModelStep dt bits s
  | .coulombCommit => Sys2Proof.Machine.execCoulombCommit s
  | .glintSlice => Sys2Proof.Machine.execGlintSlice s
  | .glintEvent dt bank => Sys2Proof.Machine.execGlintEvent dt bank s
  | .almanacEvaluation dt => Sys2Proof.Machine.execAlmanacEvaluation dt s
  | .dpasEnergyCapture bits => Sys2Proof.Machine.execDpasEnergyCapture bits s
  | .halfHourLearning dt => Sys2Proof.Machine.execHalfHourLearning dt s
  | .dailyCommit dt => Sys2Proof.Machine.execDailyCommit dt s
  | .dutyStale => Sys2Proof.Machine.execDutyStale s
  | .seaStale => Sys2Proof.Machine.execSeaStale s
  | .lockTimeout => Sys2Proof.Machine.execLockTimeout s
  | .unlockTtlExpiry port => Sys2Proof.Machine.execUnlockTtlExpiry port s
  | .unlockRoundClose port => Sys2Proof.Machine.execUnlockRoundClose port s
  | .lockoutEnd port => Sys2Proof.Machine.execLockoutEnd port s
  | .tamperEvent dt seen => Sys2Proof.Machine.execTamperEvent dt seen s
  | .tamperRelease dt seen => Sys2Proof.Machine.execTamperRelease dt seen s
  | .lidIndeterminateTimeout => Sys2Proof.Machine.execLidIndeterminateTimeout s
  | .q2EraseComplete dt => Sys2Proof.Machine.execQ2EraseComplete dt s
  | .logEntryCommit dt => Sys2Proof.Machine.execLogEntryCommit dt s
  | .commitQueueStart dt => Sys2Proof.Machine.execCommitQueueStart dt s
  | .nvWordWrite dt e => Sys2Proof.Machine.execNvWordWrite dt e s
  | .operationComplete dt slot => Sys2Proof.Machine.execOperationComplete dt slot s
  | .interimAccepted slot => Sys2Proof.Machine.execInterimAccepted slot s
  | .ping dt p => Sys2Proof.Machine.execPing dt p s
  | .ident dt p => Sys2Proof.Machine.execIdent dt p s
  | .stage dt p => Sys2Proof.Machine.execStage dt p s
  | .reset dt p => Sys2Proof.Machine.execReset dt p s
  | .sleep dt p => Sys2Proof.Machine.execSleep dt p s
  | .wake dt p => Sys2Proof.Machine.execWake dt p s
  | .caps dt p => Sys2Proof.Machine.execCaps dt p s
  | .poll dt p => Sys2Proof.Machine.execPoll dt p s
  | .cancel dt p => Sys2Proof.Machine.execCancel dt p s
  | .get dt p => Sys2Proof.Machine.execGet dt p s
  | .set dt p => Sys2Proof.Machine.execSet dt p s
  | .setBulk dt p => Sys2Proof.Machine.execSetBulk dt p s
  | .prtClear dt p => Sys2Proof.Machine.execPrtClear dt p s
  | .tampAck dt p => Sys2Proof.Machine.execTampAck dt p s
  | .tampRearm dt p => Sys2Proof.Machine.execTampRearm dt p s
  | .annFccA dt p => Sys2Proof.Machine.execAnnFccA dt p s
  | .commit dt p => Sys2Proof.Machine.execCommit dt p s
  | .revert dt p => Sys2Proof.Machine.execRevert dt p s
  | .peek dt p => Sys2Proof.Machine.execPeek dt p s
  | .poke dt p => Sys2Proof.Machine.execPoke dt p s
  | .accRead dt p => Sys2Proof.Machine.execAccRead dt p s
  | .trkRead dt p => Sys2Proof.Machine.execTrkRead dt p s
  | .accClear dt p => Sys2Proof.Machine.execAccClear dt p s
  | .seqLoad dt p => Sys2Proof.Machine.execSeqLoad dt p s
  | .seqStart dt p => Sys2Proof.Machine.execSeqStart dt p s
  | .flare dt p => Sys2Proof.Machine.execFlare dt p s
  | .calZero dt p => Sys2Proof.Machine.execCalZero dt p s
  | .calSpan dt p => Sys2Proof.Machine.execCalSpan dt p s
  | .calStore dt p => Sys2Proof.Machine.execCalStore dt p s
  | .gaugeRead dt p => Sys2Proof.Machine.execGaugeRead dt p s
  | .cellRead dt p => Sys2Proof.Machine.execCellRead dt p s
  | .modelLoad dt p => Sys2Proof.Machine.execModelLoad dt p s
  | .glintRead dt p => Sys2Proof.Machine.execGlintRead dt p s
  | .almRead dt p => Sys2Proof.Machine.execAlmRead dt p s
  | .seaState dt p => Sys2Proof.Machine.execSeaState dt p s
  | .schedLoad dt p => Sys2Proof.Machine.execSchedLoad dt p s
  | .shedSet dt p => Sys2Proof.Machine.execShedSet dt p s
  | .annealRead dt p => Sys2Proof.Machine.execAnnealRead dt p s
  | .sbCapture dt p => Sys2Proof.Machine.execSbCapture dt p s
  | .cmpSet dt p => Sys2Proof.Machine.execCmpSet dt p s
  | .cdnSet dt p => Sys2Proof.Machine.execCdnSet dt p s
  | .capqRead dt p => Sys2Proof.Machine.execCapqRead dt p s
  | .rtcSet dt p => Sys2Proof.Machine.execRtcSet dt p s
  | .dgOpen dt p => Sys2Proof.Machine.execDgOpen dt p s
  | .dgFeed dt p => Sys2Proof.Machine.execDgFeed dt p s
  | .dgDesc dt p => Sys2Proof.Machine.execDgDesc dt p s
  | .dgFinish dt p => Sys2Proof.Machine.execDgFinish dt p s
  | .dgExport dt p => Sys2Proof.Machine.execDgExport dt p s
  | .dgImport dt p => Sys2Proof.Machine.execDgImport dt p s
  | .authChal dt p => Sys2Proof.Machine.execAuthChal dt p s
  | .unlockChal dt p => Sys2Proof.Machine.execUnlockChal dt p s
  | .unlock dt p => Sys2Proof.Machine.execUnlock dt p s
  | .seal dt p => Sys2Proof.Machine.execSeal dt p s
  | .keyLoad dt p => Sys2Proof.Machine.execKeyLoad dt p s
  | .cstRead dt p => Sys2Proof.Machine.execCstRead dt p s
  | .cstConfig dt p => Sys2Proof.Machine.execCstConfig dt p s
  | .linkStats dt p => Sys2Proof.Machine.execLinkStats dt p s
  | .cstLeave dt p => Sys2Proof.Machine.execCstLeave dt p s
  | .logRead dt p => Sys2Proof.Machine.execLogRead dt p s
  | .logMark dt p => Sys2Proof.Machine.execLogMark dt p s
  | .stageResponderRead dt n => Sys2Proof.Machine.execStageResponderRead dt n s
  | .writePacket dt bytes => Sys2Proof.Machine.execWritePacket dt bytes s
  | .readReply dt n => Sys2Proof.Machine.execReadReply dt n s
  | .readStatus dt n => Sys2Proof.Machine.execReadStatus dt n s
  | .smbusTimeout dt => Sys2Proof.Machine.execSmbusTimeout dt s
  | .legacyWrite dt bytes => Sys2Proof.Machine.execLegacyWrite dt bytes s
  | .legacyRead dt n => Sys2Proof.Machine.execLegacyRead dt n s
  | .legCtrlClearRej dt => Sys2Proof.Machine.execLegCtrlClearRej dt s
  | .legCtrlSleep dt => Sys2Proof.Machine.execLegCtrlSleep dt s
  | .remainingCapacityAlarmRead dt pec => Sys2Proof.Machine.execRemainingCapacityAlarmRead dt pec s
  | .remainingCapacityAlarmWrite dt bytes => Sys2Proof.Machine.execRemainingCapacityAlarmWrite dt bytes s
  | .remainingTimeAlarmRead dt pec => Sys2Proof.Machine.execRemainingTimeAlarmRead dt pec s
  | .remainingTimeAlarmWrite dt bytes => Sys2Proof.Machine.execRemainingTimeAlarmWrite dt bytes s
  | .batteryMode dt pec => Sys2Proof.Machine.execBatteryMode dt pec s
  | .temperature dt pec => Sys2Proof.Machine.execTemperature dt pec s
  | .voltage dt pec => Sys2Proof.Machine.execVoltage dt pec s
  | .current dt pec => Sys2Proof.Machine.execCurrent dt pec s
  | .averageCurrent dt pec => Sys2Proof.Machine.execAverageCurrent dt pec s
  | .maxError dt pec => Sys2Proof.Machine.execMaxError dt pec s
  | .relativeStateOfCharge dt pec => Sys2Proof.Machine.execRelativeStateOfCharge dt pec s
  | .absoluteStateOfCharge dt pec => Sys2Proof.Machine.execAbsoluteStateOfCharge dt pec s
  | .remainingCapacity dt pec => Sys2Proof.Machine.execRemainingCapacity dt pec s
  | .fullChargeCapacity dt pec => Sys2Proof.Machine.execFullChargeCapacity dt pec s
  | .runTimeToEmpty dt pec => Sys2Proof.Machine.execRunTimeToEmpty dt pec s
  | .averageTimeToEmpty dt pec => Sys2Proof.Machine.execAverageTimeToEmpty dt pec s
  | .averageTimeToFull dt pec => Sys2Proof.Machine.execAverageTimeToFull dt pec s
  | .batteryStatus dt pec => Sys2Proof.Machine.execBatteryStatus dt pec s
  | .cycleCount dt pec => Sys2Proof.Machine.execCycleCount dt pec s
  | .designCapacity dt pec => Sys2Proof.Machine.execDesignCapacity dt pec s
  | .designVoltage dt pec => Sys2Proof.Machine.execDesignVoltage dt pec s
  | .specificationInfo dt pec => Sys2Proof.Machine.execSpecificationInfo dt pec s
  | .manufactureDate dt pec => Sys2Proof.Machine.execManufactureDate dt pec s
  | .serialNumber dt pec => Sys2Proof.Machine.execSerialNumber dt pec s
  | .manufacturerName dt pec => Sys2Proof.Machine.execManufacturerName dt pec s
  | .deviceName dt pec => Sys2Proof.Machine.execDeviceName dt pec s
  | .deviceChemistry dt pec => Sys2Proof.Machine.execDeviceChemistry dt pec s
  | .sprueBlockSubmit dt bytes pec => Sys2Proof.Machine.execSprueBlockSubmit dt bytes pec s
  | .sprueBlockAppend dt bytes pec => Sys2Proof.Machine.execSprueBlockAppend dt bytes pec s
  | .sprueBlockRead dt completed => Sys2Proof.Machine.execSprueBlockRead dt completed s
  | .sprueStatusRead dt pec => Sys2Proof.Machine.execSprueStatusRead dt pec s
  | .assemblyTimeout => Sys2Proof.Machine.execAssemblyTimeout s
  | .alertResponse dt => Sys2Proof.Machine.execAlertResponse dt s
  | .hostNotify dt e => Sys2Proof.Machine.execHostNotify dt e s
  | .nativeFrame dt chars charError => Sys2Proof.Machine.execNativeFrame dt chars charError s
  | .fieldReplyTransmit dt => Sys2Proof.Machine.execFieldReplyTransmit dt s
  | .fieldPortReconfigure => Sys2Proof.Machine.execFieldPortReconfigure s
  | .readHoldingRegisters dt unit start count => Sys2Proof.Machine.execReadHoldingRegisters dt unit start count s
  | .readInputRegisters dt unit start count => Sys2Proof.Machine.execReadInputRegisters dt unit start count s
  | .writeSingleRegister dt unit reg value => Sys2Proof.Machine.execWriteSingleRegister dt unit reg value s
  | .writeMultipleRegisters dt unit start count values => Sys2Proof.Machine.execWriteMultipleRegisters dt unit start count values s
  | .diagnostics dt unit sub data => Sys2Proof.Machine.execDiagnostics dt unit sub data s
  | .encapsulatedInterfaceTransport dt unit mei code object => Sys2Proof.Machine.execEncapsulatedInterfaceTransport dt unit mei code object s
  | .nmeaBatterySentence dt => Sys2Proof.Machine.execNmeaBatterySentence dt s
  | .nmeaAlarmSentence dt code => Sys2Proof.Machine.execNmeaAlarmSentence dt code s
  | .sdiAcknowledgeActive dt addr => Sys2Proof.Machine.execSdiAcknowledgeActive dt addr s
  | .sdiAddressQuery dt => Sys2Proof.Machine.execSdiAddressQuery dt s
  | .sdiSendIdentification dt addr => Sys2Proof.Machine.execSdiSendIdentification dt addr s
  | .sdiChangeAddress dt addr new => Sys2Proof.Machine.execSdiChangeAddress dt addr new s
  | .sdiStartMeasurement dt addr m => Sys2Proof.Machine.execSdiStartMeasurement dt addr m s
  | .sdiStartConcurrent dt addr m => Sys2Proof.Machine.execSdiStartConcurrent dt addr m s
  | .sdiSendData dt addr => Sys2Proof.Machine.execSdiSendData dt addr s
  | .sdiVerify dt addr => Sys2Proof.Machine.execSdiVerify dt addr s
  | .sdiHighVolumeAscii dt addr => Sys2Proof.Machine.execSdiHighVolumeAscii dt addr s
  | .sdiMetadata dt addr m param => Sys2Proof.Machine.execSdiMetadata dt addr m param s
  | .sdiExtendedSprue dt addr hex => Sys2Proof.Machine.execSdiExtendedSprue dt addr hex s
  | .sdiExtendedNext dt addr => Sys2Proof.Machine.execSdiExtendedNext dt addr s
  | .joinListenEnd dt m => Sys2Proof.Machine.execJoinListenEnd dt m s
  | .beaconTransmit dt m => Sys2Proof.Machine.execBeaconTransmit dt m s
  | .reportTransmit dt m => Sys2Proof.Machine.execReportTransmit dt m s
  | .aggregateForm dt => Sys2Proof.Machine.execAggregateForm dt s
  | .csmaFrameStart dt m => Sys2Proof.Machine.execCsmaFrameStart dt m s
  | .txCollision dt e => Sys2Proof.Machine.execTxCollision dt e s
  | .beaconMissed => Sys2Proof.Machine.execBeaconMissed s
  | .poleTakeover dt m => Sys2Proof.Machine.execPoleTakeover dt m s
  | .carrierWake dt len => Sys2Proof.Machine.execCarrierWake dt len s
  | .beacon dt f => Sys2Proof.Machine.execBeacon dt f s
  | .report dt f => Sys2Proof.Machine.execReport dt f s
  | .join dt f => Sys2Proof.Machine.execJoin dt f s
  | .notice dt f => Sys2Proof.Machine.execNotice dt f s
  | .leave dt f => Sys2Proof.Machine.execLeave dt f s
  | .cfg dt f => Sys2Proof.Machine.execCfg dt f s
  | .alarm dt f => Sys2Proof.Machine.execAlarm dt f s
  | .sprueReq dt f => Sys2Proof.Machine.execSprueReq dt f s
  | .sbCtrlCapture dt => Sys2Proof.Machine.execSbCtrlCapture dt s
  | .tallyCapture dt bits => Sys2Proof.Machine.execTallyCapture dt bits s
  | .accSnap dt n value => Sys2Proof.Machine.execAccSnap dt n value s
  | .trkSnap dt n value => Sys2Proof.Machine.execTrkSnap dt n value s
  | .pop dt q => Sys2Proof.Machine.execPop dt q s
  | .go dt ctx => Sys2Proof.Machine.execGo dt ctx s
  | .cmpRegisterWrite dt ch mode value => Sys2Proof.Machine.execCmpRegisterWrite dt ch mode value s
  | .cdnRegisterWrite dt n reg value => Sys2Proof.Machine.execCdnRegisterWrite dt n reg value s
  | .cqCfgWrite dt bank value => Sys2Proof.Machine.execCqCfgWrite dt bank value s
  | .patchPtrWrite dt value => Sys2Proof.Machine.execPatchPtrWrite dt value s
  | .patchDataWrite dt value => Sys2Proof.Machine.execPatchDataWrite dt value s
  | .registerWrite dt addr value => Sys2Proof.Machine.execRegisterWrite dt addr value s
  | .nrstRelease dt => Sys2Proof.Machine.execNrstRelease dt s
  | .supplyLadderStep dt step => Sys2Proof.Machine.execSupplyLadderStep dt step s
  | .criucBurstDetected dt left crcGood => Sys2Proof.Machine.execCriucBurstDetected dt left crcGood s
  | .malformedFrame dt type f => Sys2Proof.Machine.execMalformedFrame dt type f s
  | .modbusBadFrame dt badCrc => Sys2Proof.Machine.execModbusBadFrame dt badCrc s
  | .sdiUnsupportedCommand dt => Sys2Proof.Machine.execSdiUnsupportedCommand dt s

end Sys2Proof.Machine
end

