-- ==== Sys2Proof/Safety.lean ====
section
/-! DEFINITION. What a safe run is (every step answers a next state), and the situations of the part that claims speak
of: nothing in flight, and the part open to a request. -/

namespace Sys2Proof

open Sys2Proof.Machine

/-- A step is safe when it answers a next state. -/
def Safe (s : State) : Prop := ∃ t, step s = .next t

/-- `k` steps from `s` are all safe. -/
def SafeFor : Nat → State → Prop
  | 0, _ => True
  | k + 1, s => ∃ t, step s = .next t ∧ SafeFor k t

/-- Nothing is in flight: every slot is free, no packet and no reply waits for its turn, no action waits for its reply. -/
structure Quiet (s : State) : Prop where
  slots    : ∀ i : Fin 8, s.sprue.slots[i] = none
  held     : s.sprue.held = []
  early    : s.sprue.early = []
  deferred : s.pwr.deferred = []

/-- The reply of a request that reaches the part in state `r` (03 R47): the OPC, TAG and ARG of the request. -/
def answerOf (op : Op) (p : Pkt) (r : State) (status : Byte) (payload : List Byte) : Reply :=
  ⟨r.sprue.nextId, BitVec.ofNat 8 (opCode op), p.tag, status, p.arg, payload, now r⟩

/-- The reply has gone to its port: the reply queue of a native path, the answer of a transfer of generation 1 or 2 or of
a Modbus frame, the SDI-12 response (with the aXS that waits for it), or a SPRUE_RPL frame on the link; NOREPLY keeps OK,
ACCEPTED and DEFER back on the native paths and the link (03 R47, R52, R57; 11 R251, R256, R264, R268, R273; 12 R302). -/
def Replied (p : Pkt) (r t : State) (x : Reply) : Prop :=
  match p.origin with
  | .hostNative => t.host.queue = if suppressed p.flg x.status then r.host.queue else r.host.queue ++ [x]
  | .fieldNative => t.field.queue = if suppressed p.flg x.status then r.field.queue else r.field.queue ++ [x]
  | .gen1 => t.sprue.answer = some x ∧ t.host.ack = (ackLate x r.host (now r)).ack
  | .gen2 => t.sprue.answer = some x ∧ t.host.ack = (ackLate x r.host (now r)).ack
  | .modbus => t.sprue.answer = some x ∧ t.field.mbWait = (mbAnswer x r.field).mbWait
  | .sdi =>
    if r.field.sdiOp = some x.opId then
      t.field = (sdiAnswer { t with field := lastStatus x.opc x.status { r.field with
        sdiReply := some (if suppressed p.flg x.status then [] else replyBytes x), sdiOp := none } }).field
    else t.sprue.answer = some x
  | .link =>
    t.link.txq = if suppressed p.flg x.status then r.link.txq
      else r.link.txq ++ [⟨0x09, leBytes 4 0 ++ replyBytes x, 2, none, 0, some x.opId, now r, 0⟩]
  | .internal => True

/-- What every request leaves of its port, the sequencer and the supply block: its reply and the flags its status sets,
the alarm bits judged anew (11 R259, R262), the slots and the windows (03 R63, R71), and the count of idleness and a decided
entry it cancels (05 R117, R118). -/
structure PortsOnly (r t : State) : Prop where
  pwr   : t.pwr = { r.pwr with entry := t.pwr.entry, idleSince := t.pwr.idleSince }
  host  : t.host = { r.host with
    queue := t.host.queue, legRej := t.host.legRej, errCode := t.host.errCode, ack := t.host.ack
    ackWait := t.host.ackWait, fullChg := t.host.fullChg
    fullDsg := t.host.fullDsg, alarms := t.host.alarms, alerts := t.host.alerts, notifies := t.host.notifies }
  field : t.field = { r.field with
    queue := t.field.queue, lastStatus := t.field.lastStatus, mbWait := t.field.mbWait, sdiReply := t.field.sdiReply
    sdiOp := t.field.sdiOp, sdiOut := t.field.sdiOut, sdiFrom := t.field.sdiFrom, sdiTo := t.field.sdiTo
    sdiWait := t.field.sdiWait, sdiLast := t.field.sdiLast }
  link  : t.link = { r.link with txq := t.link.txq }
  sprue : t.sprue = { r.sprue with
    slots := t.sprue.slots, nextId := r.sprue.nextId + 1, answer := t.sprue.answer, windows := t.sprue.windows }

/-- The cores serve a request at once: Lode runs without a halt, in Run, from Pour on, with the pads supplied. -/
structure Serving (s : State) : Prop where
  lode  : s.clk.lode = .on
  halt  : s.clk.halt = false
  mode  : s.pwr.mode = .run
  stage : 2 ≤ s.start.stage.code
  vddio : s.pwr.vddioOk = true

/-- Nothing stands between a request of a transfer that takes its answer at once and its start: nothing is in flight, the
cores serve, the native host path has room for a reply, and no stored result of the port holds the TAG (03 R54 steps 3 and
4, 04 R91, 11 R252). -/
structure AdmitsNow (p : Pkt) (r : State) : Prop where
  quiet   : Quiet r
  serving : Serving r
  room    : p.origin = .hostNative → r.host.queue.length < 4
  tag     : builtOrigin p.origin = true ∨ ∀ x ∈ resultsOf r (originPort p.origin), x.tag ≠ p.tag

/-- Nothing stands between a request and its start: besides, no packet that starts before it comes at the same edge (03
R70). -/
structure Admits (p : Pkt) (r : State) : Prop extends AdmitsNow p r where
  alone   : earlierComes r p.origin = false

/-- A request that reaches a live part `dt` edges of its base clock from now is admitted. -/
def Asked (dt : Nat) (p : Pkt) (s : State) : Prop := live s = true ∧ Admits p (elapse dt s)

/-- The operation a request makes of itself in the state it arrives in. -/
def opFor (op : Op) (p : Pkt) (r : State) : Oper :=
  ⟨r.sprue.nextId, op, p.origin, p.tag, p.flg, p.arg, p.payload, now r, 0, 0, true, false, none, false, none⟩

/-- Steps 6 to 14 of the checks of a packet refuse the request nothing (03 R54). -/
def Passes (op : Op) (p : Pkt) (r : State) : Prop := opRefusal r (opFor op p r) = none

/-- The command `c` answers a next state in which the request has its reply and nothing is in flight, the ports and the
sequencer have changed as by any request, and everything else stands as in `u`. -/
def Answers (c : Instr) (op : Op) (dt : Nat) (p : Pkt) (s u : State) (status : Byte) (payload : List Byte) : Prop :=
  ∃ t, exec c s = .next t ∧ Replied p (elapse dt s) t (answerOf op p (elapse dt s) status payload) ∧ Quiet t ∧
    PortsOnly (elapse dt s) t ∧
    t = { u with pwr := t.pwr, host := t.host, field := t.field, link := t.link, sprue := t.sprue }

/-- The command `c` answers a next state in which the request has the interim reply `status` (ACCEPTED, or DEFER under
BOW) and its operation goes on in a slot, alone in flight; the ports and the sequencer have changed as by any request, and
everything else stands as in `u` (03 R57, R62, R63). -/
def Accepts (c : Instr) (op : Op) (dt : Nat) (p : Pkt) (s u : State) (status : Byte) : Prop :=
  ∃ t k, exec c s = .next t ∧ Replied p (elapse dt s) t (answerOf op p (elapse dt s) status []) ∧
    ops t = [{ opFor op p (elapse dt s) with waiting := false, replied := true, interim := some status, ponr := k }] ∧
    PortsOnly (elapse dt s) t ∧
    t = { u with pwr := t.pwr, host := t.host, field := t.field, link := t.link, sprue := t.sprue }

/-- What bounds the stores in every state: at most 128 entries of the log, 16 of the evidence store and 32 that wait, 8
transactions in the commit queue, 4 entries in each capture queue; the staging window and the patch area in their one
canonical form (08 R185; 14 R353, R355; 15 R364). -/
structure Bounded (s : State) : Prop where
  log     : s.tamp.log.length ≤ 128
  evid    : s.tamp.evid.length ≤ 16
  waiting : s.tamp.logWait.length ≤ 32
  queue   : s.nv.queue.length ≤ 8
  capq    : ∀ i : Fin 4, s.tmr.capq[i].held.length ≤ 4
  staging : sparseWf 0 s.sec.staging = true
  patch   : sparseWf 0xFFFFFFFF#32 s.nv.patch = true

end Sys2Proof
end

