-- ==== Sys2Proof/Certificates/Slice0/Obligations.lean ====
section
/-! DEFINITION. The statements for the provers. A statement about a command says, under conditions on the state and the
operands alone, which next state `exec` answers. `elapse dt s` is the state at the command's instant. -/

open Sys2Proof Sys2Proof.Machine

/-! ## Requests that read (03_sprue_commands.md R58) -/

/-- PING, IDENT, STAGE and CAPS answer OK with the payloads of R58 and R82 and change nothing but their port. -/
def SystemReadsAnswer : Prop :=
  ∀ (dt : Nat) (p : Pkt) (s : State), Asked dt p s →
    let r := elapse dt s
    ((p.origin = .link → p.payload.length ≤ 116) →
      Answers (.ping dt p) .ping dt p s r stOk p.payload) ∧
    (p.arg = 0 → p.payload = [] →
      Answers (.ident dt p) .ident dt p s r stOk
        (ascii "MG16" ++ [0x42, 3, 1] ++ leBytes 2 r.start.patchVer ++ leBytes 4 (serialOf r)
          ++ [1, if Config.variantQX then 1 else 0]) ∧
      Answers (.stage dt p) .stage dt p s r stOk
        [BitVec.ofNat 8 r.start.stage.code,
          BitVec.ofNat 8 (bit r.cqa.modRun + 2 * bit r.cqb.modRun + 4 * bit r.start.life),
          BitVec.ofNat 8 (r.start.reason + 16 * r.start.fault), if r.start.estConf then 1 else 0] ∧
      ∃ m : List Byte, m.length = 32 ∧
        (∀ k < 256, (m.getD (k / 8) 0).getLsbD (k % 8) = (opOf k).isSome) ∧
        Answers (.caps dt p) .caps dt p s r stOk (m ++ [8, 4, 1, 0]))

/-- The requests that read a record answer OK with its bytes, of the latest whole snapshot for the gauge, cell and Glint
records (01 R18),
and change nothing but their port; an aggregate record without a block held is NOPOLE (09 R219 to R221, 10 R235, R240;
12 R298, R305, R306; 14 R356). -/
def RecordReadsAnswer : Prop :=
  ∀ (dt : Nat) (p : Pkt) (s : State), Asked dt p s →
    let r := elapse dt s
    let n := p.arg.toNat
    let k := byteAt p.payload 0
    (Passes .gaugeRead p r →
      (n = 0 → Answers (.gaugeRead dt p) .gaugeRead dt p s r stOk (gaugeBytes r.gauge.snap.recA)) ∧
      (n = 1 → Answers (.gaugeRead dt p) .gaugeRead dt p s r stOk (gaugeBytes r.gauge.snap.recB)) ∧
      (n = 2 → ∀ b, aggBlock r = some b →
        Answers (.gaugeRead dt p) .gaugeRead dt p s r stOk (gaugeBytes (aggGauge r b))) ∧
      (n = 2 → aggBlock r = none → p.origin ≠ .internal →
        Answers (.gaugeRead dt p) .gaugeRead dt p s r stNoPole [])) ∧
    (Passes .cellRead p r →
      Answers (.cellRead dt p) .cellRead dt p s r stOk (cellBytes (r.gauge.snap.cells.getD n (CellRec.zero n)))) ∧
    (Passes .glintRead p r →
      Answers (.glintRead dt p) .glintRead dt p s r stOk
        (if n = 0 then r.gauge.snap.glintA else r.gauge.snap.glintB)) ∧
    (Passes .almRead p r →
      (n = 0 → ∀ x, r.alm.rcd = some x → Answers (.almRead dt p) .almRead dt p s r stOk (almBytes x)) ∧
      (n = 1 → ∀ b, aggBlock r = some b → Answers (.almRead dt p) .almRead dt p s r stOk (almBytes (aggAlm r b))) ∧
      (n = 1 → aggBlock r = none → p.origin ≠ .internal → Answers (.almRead dt p) .almRead dt p s r stNoPole [])) ∧
    (Passes .annealRead p r →
      Answers (.annealRead dt p) .annealRead dt p s r stOk (annealBytes r (if n = 0 then .a else .b))) ∧
    (Passes .cstRead p r →
      (n = 0 → Answers (.cstRead dt p) .cstRead dt p s r stOk (cstSummary r)) ∧
      (n ≠ 0 → member r = true → Answers (.cstRead dt p) .cstRead dt p s r stOk (cstEntry r (n - 1))) ∧
      (n ≠ 0 → member r = false → p.origin ≠ .internal → Answers (.cstRead dt p) .cstRead dt p s r stNoPole [])) ∧
    (Passes .logRead p r →
      Answers (.logRead dt p) .logRead dt p s r stOk ((if 128 ≤ k then (r.tamp.evid.drop n).take (k % 8)
        else logFrom r.tamp.log n r.tamp.logNext (k % 8)).map logBytes).flatten)

/-- Every request that reads answers OK with what it names and changes nothing but its port. -/
def Obligations.ReadsAnswer : Prop := SystemReadsAnswer ∧ RecordReadsAnswer

/-- ACC_READ and TRK_READ answer the fields of one accumulator or tracker at one edge and with bit 15 of ARG clear it;
ACC_CLEAR clears every accumulator and tracker of its two masks, and no other (07 R164). -/
def AccumulatorsReadAndClear : Prop :=
  ∀ (dt : Nat) (p : Pkt) (s : State), Asked dt p s →
    let r := elapse dt s
    let n := p.arg.toNat % 0x8000
    let clear := decide (0x8000 ≤ p.arg.toNat)
    (Passes .accRead p r →
      Answers (.accRead dt p) .accRead dt p s
        { r with sar := { r.sar with acc := if clear then vset r.sar.acc n Acc.empty else r.sar.acc } }
        stOk (accBytes (vget r.sar.acc n Acc.empty) (now r))) ∧
    (Passes .trkRead p r →
      Answers (.trkRead dt p) .trkRead dt p s
        { r with sar := { r.sar with trk := if clear then vset r.sar.trk n Trk.empty else r.sar.trk } }
        stOk (trkBytes (vget r.sar.trk n Trk.empty))) ∧
    (Passes .accClear p r →
      ∃ acc trk, Answers (.accClear dt p) .accClear dt p s { r with sar := { r.sar with acc := acc, trk := trk } } stOk [] ∧
        ∀ i : Fin 32,
          acc[i] = (if (leAt p.payload 0 4).testBit i then Acc.empty else r.sar.acc[i]) ∧
          trk[i] = (if (leAt p.payload 4 4).testBit i then Trk.empty else r.sar.trk[i]))

/-- SEQ_LOAD 0 hands the port entries of the Routine to the next pass and SEQ_LOAD 1 fills the Burst table; SEQ_START
0x8000 removes the port entries at the end of the Routine pass that runs, at once where none does, 1 starts Burst passes at
the first entry with the passes asked for, 0x8001 stops them at the end of the pass (07 R153, R154). -/
def TablesLoadAndStart : Prop :=
  ∀ (dt : Nat) (p : Pkt) (s : State), Asked dt p s →
    let r := elapse dt s
    let es := (chunks 10 (p.payload.length / 10) p.payload).map seqOfBytes
    (Passes .seqLoad p r →
      (p.arg = 0 → Answers (.seqLoad dt p) .seqLoad dt p s { r with sar := { r.sar with routNext := some es } } stOk []) ∧
      (p.arg = 1 → Answers (.seqLoad dt p) .seqLoad dt p s { r with sar := { r.sar with burst := es } } stOk [])) ∧
    (Passes .seqStart p r →
      (p.arg = 0x8000 →
        Answers (.seqStart dt p) .seqStart dt p s
          { r with sar := { r.sar with
            routNext := none, routDrop := r.sar.routPos.isSome
            routPort := if r.sar.routPos.isSome then r.sar.routPort else [] } } stOk []) ∧
      (p.arg = 1 →
        Answers (.seqStart dt p) .seqStart dt p s
          { r with sar := { r.sar with
            burstOn := !r.sar.burst.isEmpty, burstLeft := leAt p.payload 0 4, burstStop := false
            burstPos := seqStart r r.sar.burst } } stOk []) ∧
      (p.arg = 0x8001 →
        Answers (.seqStart dt p) .seqStart dt p s { r with sar := { r.sar with burstStop := r.sar.burstOn } } stOk []))

/-- The requests of accumulators, trackers and sequence tables act as their rules say. -/
def Obligations.SarRequestsAct : Prop := AccumulatorsReadAndClear ∧ TablesLoadAndStart

/-- SB_CAPTURE answers the base of its edge with the COARSE flag of its origin class and clears that flag; CMP_SET takes
effect at the next edge of the base and arms a channel at the first base value after it whose low word is VAL; CDN_SET loads
a stopped counter at once and a running one at its next zero tick; CAPQ_READ takes the entries stamped before its edge, with
LOST, and leaves what arrived at that edge (08 R175 to R177, R183, R186). That the write takes effect at the edge after the
request's is this model's choice (assumption log 10). -/
def TimerRequestsAct : Prop :=
  ∀ (dt : Nat) (p : Pkt) (s : State), Asked dt p s →
    let r := elapse dt s
    let n := p.arg.toNat
    let v := leAt p.payload 0 4
    let c := vget r.tmr.cdn n Cdn.reset
    let src := p.payload.getD 7 0
    (Passes .sbCapture p r →
      Answers (.sbCapture dt p) .sbCapture dt p s
        { r with tmr := clearCoarse { r.tmr with shadow1 := r.tmr.base } (originCoarse p.origin) } stOk
        (leBytes 8 r.tmr.base ++ [if coarseOf r.tmr (originCoarse p.origin) then 1 else 0])) ∧
    (Passes .cmpSet p r →
      ∃ target, r.tmr.base + 1 < target ∧ target ≤ r.tmr.base + 1 + 2 ^ 32 ∧ target % 2 ^ 32 = v ∧
        Answers (.cmpSet dt p) .cmpSet dt p s
          { r with tmr := { r.tmr with
            cmp := vset r.tmr.cmp n { vget r.tmr.cmp n Cmp.reset with
              val := v, mode := p.payload.getD 4 0 &&& 0x1F, target := target } } } stOk []) ∧
    (Passes .cdnSet p r →
      let w := { c with buf := v, n := leAt p.payload 4 2, f := byteAt p.payload 6, src := src &&& 0x3F }
      Answers (.cdnSet dt p) .cdnSet dt p s
        { r with tmr := { r.tmr with
          cdn := vset r.tmr.cdn n
            (if c.v = 0 ∨ src.getLsbD 6 = true then
              { w with v := v, p := 0, actN := w.n, actF := w.f, actSrc := w.src, dirty := false }
            else { w with dirty := true }) } } stOk []) ∧
    (Passes .capqRead p r →
      let q := vget r.tmr.capq n Capq.reset
      let got := q.held.filter fun x => decide (x.1 < now r)
      let kept := (q.held ++ q.late).filter fun x => decide (now r ≤ x.1)
      let lost := min (q.lost + (q.late.filter fun x => decide (x.1 < now r)).length) 65535
      Answers (.capqRead dt p) .capqRead dt p s
        { r with tmr := { r.tmr with
          capq := vset r.tmr.capq n { q with held := kept.take 4, late := [], lost := kept.length - 4 } } } stOk
        (leBytes 1 got.length ++ (got.map capqBytes).flatten ++ leBytes 2 lost))

/-- A parameter whose new value only enters the pending table: none of the write-only ones, of those with a register or
table of their own, of the bins and of the calibration pairs (16 R388, R392; 05 R115). -/
def PlainId (id : Nat) : Prop :=
  id ∉ [0x031A, 0x0625, 0x0B20, 0x0B21, 0x0420, 0x0421, 0x0422, 0x0423, 0x0520, 0x0734, 0x0901, 0x0C05] ∧
    ¬(0x0640 ≤ id ∧ id ≤ 0x069F) ∧ ¬(0x0E80 ≤ id ∧ id ≤ 0x0EAA)

/-- SET puts the value into the pending table and answers it, SET_BULK puts every item there in their order, and REVERT
discards the pending value of its parameter (16 R388, 15 R365). -/
def ParameterWritesPend : Prop :=
  ∀ (dt : Nat) (p : Pkt) (s : State), Asked dt p s →
    let r := elapse dt s
    (Passes .set p r → PlainId p.arg.toNat →
      Answers (.set dt p) .set dt p s { r with par := r.par.setPending p.arg.toNat p.payload } stOk p.payload) ∧
    (Passes .setBulk p r → (∀ it ∈ setItems (opFor .setBulk p r), PlainId it.1) →
      Answers (.setBulk dt p) .setBulk dt p s
        { r with par := (setItems (opFor .setBulk p r)).foldl (fun q it => q.setPending it.1 it.2) r.par } stOk []) ∧
    (Passes .revert p r → p.arg ≠ 0 → PlainId p.arg.toNat → (∃ e ∈ r.par.pending, e.id = p.arg.toNat) →
      Answers (.revert dt p) .revert dt p s
        { r with
          par := r.par.revert p.arg.toNat
          alm := { r.alm with seeds := r.alm.seeds.filter fun x => x.1 != p.arg.toNat } } stOk [])

/-- GET answers the value in force: the block a Star has adopted covers first, then the pending value, then the committed
one or the default; a write-only parameter reads zeros (16 R388, 12 R301). -/
def GetAnswersTheValueInForce : Prop :=
  ∀ (dt : Nat) (p : Pkt) (x : Prm) (s : State), Asked dt p s →
    let r := elapse dt s
    let id := p.arg.toNat
    Passes .get p r → prmOf id = some x →
    (x.wr = .wo → Answers (.get dt p) .get dt p s r stOk (List.replicate x.len 0)) ∧
    (x.wr ≠ .wo → x.wr ≠ .ro → ¬(0x0640 ≤ id ∧ id ≤ 0x069F) → ¬(0x0E80 ≤ id ∧ id ≤ 0x0EAA) →
      (∀ v, cfgValue r id = some v → Answers (.get dt p) .get dt p s r stOk (leBytes x.len v)) ∧
      (cfgValue r id = none → ∀ e, r.par.pending.find? (fun e => e.id == id) = some e →
        Answers (.get dt p) .get dt p s r stOk e.value) ∧
      (cfgValue r id = none → (∀ e ∈ r.par.pending, e.id ≠ id) →
        Answers (.get dt p) .get dt p s r stOk (r.par.committedOf id)))

/-! ## Requests that are committed to the store (03 R63, 15 R363 to R365) -/

/-- The state with a transaction at the end of the commit queue. -/
def Queued (u : State) (x : Txn) : State := { u with nv := { u.nv with queue := u.nv.queue ++ [x] } }

/-- COMMIT marks every unmarked pending value and queues them all as one transaction (15 R365); CAL_STORE queues the 43
pairs in force (07 R170); the last chunk of MODEL_LOAD queues the profile (09 R201); KEY_LOAD queues the emptying of a slot
or its key, wrapped for the store, and nothing where the unwrap fails (13 R331); CST_CONFIG queues a block that passes its checks (12 R299). Each is accepted
and goes on in its slot. -/
def CommitsAreAccepted : Prop :=
  ∀ (dt : Nat) (p : Pkt) (s : State), Asked dt p s → (elapse dt s).pwr.bow = false →
    let r := elapse dt s
    let i := r.sprue.nextId
    let n := p.arg.toNat
    let u := { r with sec := { r.sec with lockAt := now r } }
    let txn (k : TxnKind) (recs : List Rec) : Txn := ⟨some i, now r, k, recs, false, false⟩
    let fresh := r.par.pending.filter fun e => e.mark.isNone
    let gen := ((keyAt r n).gen + 1) % 65536
    let chunk := byteAt p.payload 0
    let staged := (r.gauge.staged.filter fun x => !(x.1 == n && x.2.1 == chunk)) ++ [(n, chunk, p.payload.drop 2)]
    (Passes .commit p r →
      (fresh = [] → Answers (.commit dt p) .commit dt p s r stOk []) ∧
      (fresh ≠ [] → Accepts (.commit dt p) .commit dt p s
        (Queued { r with par := { r.par with
            pending := r.par.pending.map fun e => if e.mark.isNone then { e with mark := some i } else e } }
          (txn .records (fresh.map fun e => paramRec e.id e.value))) stAccepted)) ∧
    (Passes .calStore p r →
      Accepts (.calStore dt p) .calStore dt p s
        (Queued u (txn .records ((List.range 43).map fun k => paramRec (0x0E80 + k) (calBytes (calOf r k))))) stAccepted) ∧
    (Passes .modelLoad p r →
      (byteAt p.payload 1 = 0 →
        Answers (.modelLoad dt p) .modelLoad dt p s { u with gauge := { u.gauge with staged := staged } } stOk []) ∧
      (byteAt p.payload 1 = 1 → ∀ b, stagedProfile { r with gauge := { r.gauge with staged := staged } } n = some b →
        profileOk b = true →
        Accepts (.modelLoad dt p) .modelLoad dt p s
          (Queued { u with gauge := { u.gauge with staged := staged.filter fun x => x.1 != n } }
            (txn .records (profileRecs n b))) stAccepted)) ∧
    (Passes .keyLoad p r →
      ((∀ b ∈ p.payload, b = 0) →
        Accepts (.keyLoad dt p) .keyLoad dt p s (Queued u (txn (.key n gen [] (keyUse r n) true) [])) stAccepted) ∧
      ((∃ b ∈ p.payload, b ≠ 0) →
        match keyUnwrap (fusedKey Config.transportKey) p.payload with
        | some raw => Accepts (.keyLoad dt p) .keyLoad dt p s
            (Queued u (txn (.key n gen (keyWrap (fusedKey Config.wrapKey) raw) (keyUse r n) false) [])) stAccepted
        | none => ∃ t, exec (.keyLoad dt p) s = .next t ∧ t.nv = r.nv ∧ t.sec.keys = r.sec.keys)) ∧
    (Passes .cstConfig p r → cfgCheck r p.payload = stOk →
      Accepts (.cstConfig dt p) .cstConfig dt p s (Queued u (txn .records [cfgRec p.payload])) stAccepted)

/-- Under a brown-out warning such a request is answered DEFER instead, and its transaction waits for its one run after
the release (03 R62, 05 R109). -/
def BrownOutDefersCommits : Prop :=
  ∀ (dt : Nat) (p : Pkt) (s : State), Asked dt p s → (elapse dt s).pwr.bow = true → Passes .commit p (elapse dt s) →
    let r := elapse dt s
    let i := r.sprue.nextId
    let fresh := r.par.pending.filter fun e => e.mark.isNone
    fresh ≠ [] → Accepts (.commit dt p) .commit dt p s
      (Queued { r with par := { r.par with
          pending := r.par.pending.map fun e => if e.mark.isNone then { e with mark := some i } else e } }
        ⟨some i, now r, .records, fresh.map fun e => paramRec e.id e.value, true, false⟩) stDefer

/-- The requests that commit are accepted, and under BOW deferred. -/
def Obligations.CommitsAct : Prop := CommitsAreAccepted ∧ BrownOutDefersCommits

/-! ## Write-only parameters, registers -/

/-- A SET of PRT_CLEAR ends the latches and forgets the trips of both banks and nothing else of the protection (06 R133);
one of TAMP_ACK clears the latches of its mask that hold LOG or ALARM (14 R347); one of ANN_FCC_A gives every cell the
capacity and commits the cells (10 R238); a good token of TAMP_REARM is accepted with the commit of its counter, and a bad
one changes nothing (14 R357). The reply carries zeros (16 R388). -/
def WriteOnlyParametersAct : Prop :=
  ∀ (dt : Nat) (p : Pkt) (s : State), live s = true →
    let r := elapse dt s
    let q (id : BitVec 16) : Pkt := { p with arg := id }
    (Admits (q 0x031A) r → Passes .set (q 0x031A) r →
      Answers (.prtClear dt p) .set dt (q 0x031A) s
        { r with afe := { r.afe with
          ocA := { r.afe.ocA with latch := false, trips := [] }, ocB := { r.afe.ocB with latch := false, trips := [] } } }
        stOk [0]) ∧
    (Admits (q 0x0B21) r → Passes .set (q 0x0B21) r →
      ∃ u, Answers (.tampAck dt p) .set dt (q 0x0B21) s u stOk [0] ∧ u = { r with tamp := u.tamp } ∧
        ∀ k : TampSrc,
          (srcOf u k).latch = (if (leNat p.payload).testBit (srcCode k - 1) ∧ (srcOf r k).latch ≠ some .q1 ∧
            (srcOf r k).latch ≠ some .q2 then none else (srcOf r k).latch) ∧
          (srcOf u k).count = (srcOf r k).count ∧ (srcOf u k).inTamper = (srcOf r k).inTamper) ∧
    (Admits (q 0x0625) r → Passes .set (q 0x0625) r → r.pwr.bow = false → r.nv.queue.length < 8 →
      let w := { r with gauge := { r.gauge with
        cells := r.gauge.cells.map fun c => { c with fcc := some (leNat p.payload : Rat) } } }
      Answers (.annFccA dt p) .set dt (q 0x0625) s
        (if cellRecs w = [] then w else Queued w ⟨none, now r, .records, cellRecs w, false, false⟩) stOk [0, 0, 0, 0]) ∧
    (Admits (q 0x0B20) r → Passes .set (q 0x0B20) r → r.pwr.bow = false → r.nv.queue.length < 8 →
      rearmBarred r = false →
      match rearmOf r p.payload with
      | some x => Accepts (.tampRearm dt p) .set dt (q 0x0B20) s
          (Queued { r with tamp := { r.tamp with rearming := some (x.1, x.2, r.sprue.nextId) } }
            ⟨some r.sprue.nextId, now r, .records, [counterRec 2 x.1], false, false⟩) stAccepted
      | none => ∃ t, exec (.tampRearm dt p) s = .next t ∧ t.nv = r.nv ∧ t.tamp = r.tamp)

/-- SET, SET_BULK, COMMIT's pending table, REVERT, GET and the write-only parameters act as their rules say. -/
def Obligations.ParameterRequestsAct : Prop := ParameterWritesPend ∧ GetAnswersTheValueInForce ∧ WriteOnlyParametersAct

/-- PEEK answers the words in ascending order and clears their rc fields, POKE writes its words in ascending order and
answers OK (16 R376, R377; 00 R7, R8). The words of SYS, PWR, PORTH and PORTF, which show or hold what the request itself
changes, are not spoken of. -/
def Obligations.PeekAndPoke : Prop :=
  ∀ (dt : Nat) (p : Pkt) (s : State) (b : Nat), Asked dt p s →
    let r := elapse dt s
    let u := { r with sec := { r.sec with lockAt := now r } }
    let a := leAt p.payload 0 4
    let off := a % 0x10000
    let words := (List.range p.arg.toNat).map fun i => wordAt (p.payload.drop 4) i
    blockOf a = some b → b ∉ [0x0, 0x2, 0x8, 0x9] →
    (Passes .peek p r →
      Answers (.peek dt p) .peek dt p s (peekWords b off p.arg.toNat u).2 stOk (peekWords b off p.arg.toNat u).1) ∧
    (Passes .poke p r →
      Answers (.poke dt p) .poke dt p s (pokeWords b off words u) stOk [])

/-! ## Requests of the Almanac, the digest engine, the locks, the link and the log -/

/-- SEA_STATE puts its class in force, SCHED_LOAD replaces the declared duty table, SHED_SET sets the floor and answers the
computed level and the level then in force, which the pins carry from the next SLOW edge on; before Cast no evaluation
follows (10 R225, R229, R231, R241). -/
def Obligations.PolicyRequestsAct : Prop :=
  ∀ (dt : Nat) (p : Pkt) (s : State), Asked dt p s → (elapse dt s).start.stage = .pour →
    let r := elapse dt s
    let n := p.arg.toNat
    (Passes .seaState p r →
      ∃ u, Answers (.seaState dt p) .seaState dt p s u stOk [] ∧ u = { r with alm := u.alm } ∧
        u.alm.sea = n ∧ u.alm.seaAt = now r ∧ u.alm.seaStale = false ∧
        u.alm.duties = r.alm.duties ∧ u.alm.load = r.alm.load ∧ u.alm.harv = r.alm.harv) ∧
    (Passes .schedLoad p r → ∀ l, dutiesOf (opFor .schedLoad p r) = some l →
      ∃ u, Answers (.schedLoad dt p) .schedLoad dt p s u stOk [] ∧
        u.alm = { r.alm with duties := l, dutyAt := now r, dutyStale := false } ∧
        u = { r with alm := u.alm, tmr := u.tmr } ∧
        u.tmr = { r.tmr with cmp := u.tmr.cmp } ∧ ∀ i : Fin 8, i ≠ 6 → u.tmr.cmp[i] = r.tmr.cmp[i]) ∧
    (Passes .shedSet p r →
      let level := max r.pol.computed n
      let changes := decide (r.pol.pins ≠ level)
      Answers (.shedSet dt p) .shedSet dt p s
        { r with pol := { r.pol with
          floor := n, pins := level
          pinsOld := if changes then shedPins r else r.pol.pinsOld
          pinsAt := if changes then (now r / 2000 + 1) * 2000 else r.pol.pinsAt } } stOk
        [BitVec.ofNat 8 r.pol.computed, BitVec.ofNat 8 level])

/-- DG_OPEN opens a context afresh with the initial hash value of its function, or the inner state of its key, for the
origin that asks, and function 0 closes it; DG_FEED absorbs its bytes; DG_FINISH answers the digest and holds it, and a
finished context answers it again; DG_DESC is accepted with its list read into the context it is to feed, and DG_EXPORT and
DG_IMPORT are accepted and change nothing yet (13 R315, R317,
R321, R322, R324, R325). -/
def Obligations.DigestRequestsAct : Prop :=
  ∀ (dt : Nat) (p : Pkt) (s : State), Asked dt p s →
    let r := elapse dt s
    let n := p.arg.toNat
    let c := ctxAt r n
    let f := byteAt p.payload 0
    let k := byteAt p.payload 1
    let base := { Ctx.closed with err := c.err, dmaSrc := c.dmaSrc, dlen := c.dlen }
    let withCtx (m : Nat) (x : Ctx) : State := { r with sec := { r.sec with ctx := vset r.sec.ctx m x } }
    (Passes .dgOpen p r →
      (f = 0 → Answers (.dgOpen dt p) .dgOpen dt p s (withCtx n base) stOk []) ∧
      (f ≠ 0 → k = 0xFF → Answers (.dgOpen dt p) .dgOpen dt p s
        (withCtx n { base with state := .opened, func := f, owner := some p.origin, chain := shaInit f }) stOk []) ∧
      (f ≠ 0 → k ≠ 0xFF → Answers (.dgOpen dt p) .dgOpen dt p s
        (withCtx n { base with
          state := .opened, func := f, slot := some k, gen := (keyAt r k).gen, owner := some p.origin
          chain := (keyAt r k).inner }) stOk [])) ∧
    (Passes .dgFeed p r →
      Answers (.dgFeed dt p) .dgFeed dt p s (withCtx n (ctxFeed r p.payload c)) stOk []) ∧
    (Passes .dgFinish p r →
      (n < 0x8000 → c.state = .opened →
        Answers (.dgFinish dt p) .dgFinish dt p s
          (withCtx n { c with state := .finished, held := some (ctxDigest r c), part := [] }) stOk (ctxDigest r c)) ∧
      (n < 0x8000 → c.state = .finished → Answers (.dgFinish dt p) .dgFinish dt p s r stOk (c.held.getD [])) ∧
      (0x8000 ≤ n → Answers (.dgFinish dt p) .dgFinish dt p s r stOk ((ctxAt r (n % 0x8000)).held.getD []))) ∧
    (Passes .dgDesc p r → Accepts (.dgDesc dt p) .dgDesc dt p s
      (withCtx n { c with desc := fragments r (leAt p.payload 0 4) (byteAt p.payload 4) }) stAccepted) ∧
    (Passes .dgExport p r → Accepts (.dgExport dt p) .dgExport dt p s r stAccepted) ∧
    (Passes .dgImport p r → Accepts (.dgImport dt p) .dgImport dt p s r stAccepted)

/-- UNLOCK_CHAL answers a fresh challenge of its port and forgets the last one, and BUSY where the entropy source fails; AUTH_CHAL draws the next value of the use
counter and answers the response, the serial and the counter once a committed reservation covers that value; UNLOCK waits
in the open round of its port, or opens one at its timestamp (13 R334, R336, R338, R339). -/
def Obligations.LockRequestsAct : Prop :=
  ∀ (dt : Nat) (p : Pkt) (s : State), Asked dt p s →
    let r := elapse dt s
    let n := p.arg.toNat
    (Passes .unlockChal p r → ∀ q, lockPortOf p.origin = some q → r.sec.lock.code < n →
      if Config.entropyFails r.drawn = true then
        ∃ u, Answers (.unlockChal dt p) .unlockChal dt p s u stBusy [] ∧
          u = { r with drawn := r.drawn + 1, tamp := { r.tamp with logWait := u.tamp.logWait, logDrop := u.tamp.logDrop } }
      else
        let chal := sha 1 ((List.range 32).map (Config.entropy r.drawn))
        Answers (.unlockChal dt p) .unlockChal dt p s
          (setPl q { plOf q r with chal := some (chal, n, now r), consumed := none } { r with drawn := r.drawn + 1 })
          stOk chal) ∧
    (Passes .authChal p r → r.sec.useCtr + 1 + 64 < r.sec.useRes →
      let tail := leBytes 4 (serialOf r) ++ leBytes 4 (r.sec.useCtr + 1)
      Answers (.authChal dt p) .authChal dt p s { r with sec := { r.sec with useCtr := r.sec.useCtr + 1 } } stOk
        (slotHmac r n (p.payload ++ tail) ++ tail)) ∧
    (Passes .unlock p r → ∀ q, lockPortOf p.origin = some q → (plOf q r).roundAt = none →
      ∃ t, exec (.unlock dt p) s = .next t ∧
        ops t = [{ opFor .unlock p r with waiting := false }] ∧ PortsOnly r t ∧
        t.host.queue = r.host.queue ∧ t.field.queue = r.field.queue ∧ t.link.txq = r.link.txq ∧
        t = { setPl q { plOf q r with round := (plOf q r).round ++ [r.sprue.nextId], roundAt := some (now r) } r with
          pwr := t.pwr, host := t.host, field := t.field, link := t.link, sprue := t.sprue })

/-- RESET and SLEEP answer OK and take effect once their reply has left; SEAL does so from a higher level; WAKE holds Run
and cancels no hold (03 R59; 13 R333). -/
def Obligations.DeferredRequestsAnswerFirst : Prop :=
  ∀ (dt : Nat) (p : Pkt) (s : State), Asked dt p s →
    p.origin ∈ [Origin.hostNative, .fieldNative, .sdi, .link] → flgNoReply p.flg = false →
    let r := elapse dt s
    let i := r.sprue.nextId
    let after (c : Instr) (op : Op) (a : DefAct) (t : State) : Prop :=
      exec c s = .next t ∧ Replied p r t (answerOf op p r stOk []) ∧ ops t = [] ∧
        ∃ e, t.pwr.deferred = [⟨a, i, p.origin, now r, e, false⟩] ∧ (r.field.sdiOp = none → e = none)
    (Passes .reset p r → ∃ t, after (.reset dt p) .reset (if p.arg = 1 then .resetCore else .resetFull) t ∧
      t.start = r.start ∧ t.clk = r.clk ∧ t.nv = r.nv) ∧
    (Passes .sleep p r →
      ∃ t, after (.sleep dt p) .sleep (.sleep (if p.arg = 0 then .watch else if p.arg = 1 then .watchL else .doze)) t ∧
        t.pwr.hold = .none ∧ t.pwr.mode = .run ∧ t.sprue.lastPwr = (4, p.arg.toNat)) ∧
    (Passes .seal p r → r.sec.lock ≠ .sealed → ∃ t, after (.seal dt p) .seal .seal t ∧ t.sec = r.sec) ∧
    (Passes .wake p r →
      ∃ t, exec (.wake dt p) s = .next t ∧ Replied p r t (answerOf .wake p r stOk []) ∧ Quiet t ∧
        t.sprue.lastPwr = (5, p.arg.toNat) ∧
        (p.arg = 0 → t.pwr.hold = .untilSleep) ∧
        (p.arg ≠ 0 → r.pwr.hold = .none → t.pwr.hold = .until (now r + 8192000 * p.arg.toNat)))

/-- POLL answers the stored result of its TAG with the result's own status and forgets it; LINK_STATS 1 answers the
counters and clears them; CST_LEAVE of a Star leaves its roster place with a LEAVE frame; LOG_MARK answers the index its
entry takes in the log (03 R66, R68; 12 R304, R306; 14 R353). -/
def ResultsLinkAndLogAct : Prop :=
  ∀ (dt : Nat) (p : Pkt) (s : State), Asked dt p s →
    let r := elapse dt s
    (Passes .poll p r → ∀ x, (resultsOf r (originPort p.origin)).find? (fun x => x.tag.toNat == p.arg.toNat) = some x →
      p.origin ≠ .internal →
      ∃ t, exec (.poll dt p) s = .next t ∧ Replied p r t (answerOf .poll p r x.status ([x.opc, x.tag] ++ x.payload)) ∧
        Quiet t ∧ (∀ y ∈ resultsOf t (originPort p.origin), y ∈ resultsOf r (originPort p.origin) ∧ y.tag ≠ x.tag) ∧
        t.par = r.par ∧ t.sec = r.sec ∧ t.nv = r.nv ∧ t.tmr = r.tmr) ∧
    (Passes .linkStats p r →
      (p.arg = 0 → Answers (.linkStats dt p) .linkStats dt p s r stOk (statsBytes r r.link.clearAt)) ∧
      (p.arg = 1 → p.origin ≠ .link →
        ∃ t, exec (.linkStats dt p) s = .next t ∧ Replied p r t (answerOf .linkStats p r stOk (statsBytes r (now r))) ∧
          Quiet t ∧ t.link = { r.link with counters := Vector.replicate 16 0, clearAt := now r })) ∧
    (Passes .cstLeave p r → member r = true → r.link.role = .member → p.origin ≠ .link →
      ∃ t b, exec (.cstLeave dt p) s = .next t ∧ Replied p r t (answerOf .cstLeave p r stOk []) ∧ Quiet t ∧
        t.link.role = .silent ∧ t.link.txq = [⟨5, [b], 5, none, 0, none, now r, 0⟩]) ∧
    (Passes .logMark p r → r.nv.storeBad = false → r.pwr.bow = false → r.tamp.logWait = [] →
      ∃ u e, Answers (.logMark dt p) .logMark dt p s u stOk (leBytes 4 r.tamp.logNext) ∧
        u = { r with tamp := u.tamp } ∧ u.tamp.log.getLast? = some e ∧ e.index = r.tamp.logNext ∧ e.typ = 0x70 ∧
        e.stamp = now r ∧ e.data = padTo 32 p.payload ∧ u.tamp.logNext = (r.tamp.logNext + 1) % 2 ^ 32 ∧
        u.tamp.evid = r.tamp.evid ∧ u.tamp.log.length ≤ 128)

/-- A result asserts HIRQ_N unless HIRQ_MASK masks its opcode group and its operation carried no URGENT (03 R67). -/
def Signals (s : State) (x : Result) : Prop := x.urgent = true ∨ (prm s 0x0804).testBit (x.opc.toNat / 16) = false

/-- HIRQ_N is asserted while the host result table holds a result that asserts it, and the POLL that takes the last such
result releases it (03 R67). -/
def HostInterruptFollowsResults : Prop :=
  (∀ s : State, hirq s = true ↔ ∃ x ∈ s.sprue.resHost, Signals s x) ∧
  ∀ (dt : Nat) (p : Pkt) (s : State), Asked dt p s → p.origin = .hostNative → let r := elapse dt s
    Passes .poll p r → ∀ x, r.sprue.resHost.find? (fun x => x.tag.toNat == p.arg.toNat) = some x →
    (∀ y ∈ r.sprue.resHost, y.tag ≠ x.tag → ¬Signals r y) → ∃ t, exec (.poll dt p) s = .next t ∧ hirq t = false

/-- The requests of the results, the link and the log act as their rules say. -/
def Obligations.ResultLinkAndLogRequestsAct : Prop := ResultsLinkAndLogAct ∧ HostInterruptFollowsResults

/-- RTC_SET takes effect at the next AON edge: the RTC holds the seconds with a zero fraction and is valid, the anchor
pairs them with the base of that edge, and the duty table's lead is armed anew (08 R189; 09 R216). -/
def RtcSetLoadsTheRtc : Prop :=
  ∀ (dt : Nat) (p : Pkt) (s : State), Asked dt p s →
    let r := elapse dt s
    let sec := leAt p.payload 0 4
    Passes .rtcSet p r → r.link.txEnd = none → (∀ i : Fin 6, r.sec.ctx[i].dmaEnd = none) →
    ∃ t x, exec (.rtcSet dt p) s = .next t ∧ Quiet t ∧ Replied p r t x ∧ x.opId = r.sprue.nextId ∧ x.status = stOk ∧
      x.tag = p.tag ∧ t.tmr.base = (now r / 250 + 1) * 250 ∧ t.tmr.rtcSec = sec ∧ t.tmr.rtcSub = 0 ∧
      t.tmr.rtcValid = true ∧ t.tmr.anchorSec = sec ∧ t.tmr.anchorBase = t.tmr.base ∧ t.alm.binStart = none

/-- The requests of the timers and of the RTC act as their rules say. -/
def Obligations.TimerAndRtcRequestsAct : Prop := TimerRequestsAct ∧ RtcSetLoadsTheRtc

/-! ## Operations that go on: conversions, calibrations, completion, cancellation -/

/-- FLARE joins the queue of Pollux and waits for its conversion without an answer; it crosses into the SAR domain at the
second SAR edge. CAL_ZERO and CAL_SPAN are accepted and the calibration runs: of CAL_N conversions with CAL_SAMPLE from that
edge on, or of 16 outputs of an integrator (07 R158, R168, R170, R171; 02 R32). -/
def Obligations.ConversionRequestsWait : Prop :=
  ∀ (dt : Nat) (p : Pkt) (s : State), Asked dt p s →
    let r := elapse dt s
    let v := { r with par := r.par.applyMoment .cal }
    let u := { v with
      sec := { r.sec with lockAt := now r }
      sar := { r.sar with
        calRun := true, calPair := p.arg.toNat
        calN := if p.arg = 0x30 ∨ p.arg = 0x31 then 16 else prm v 0x0E01
        calTs := prm v 0x0E02, calAt := sarNow r + 2, calCnt := 0, calSum := 0 } }
    (Passes .flare p r →
      ∃ t, exec (.flare dt p) s = .next t ∧ ops t = [{ opFor .flare p r with waiting := false }] ∧ PortsOnly r t ∧
        t.host.queue = r.host.queue ∧ t.field.queue = r.field.queue ∧ t.link.txq = r.link.txq ∧
        t = { r with
          sar := { r.sar with flares := r.sar.flares ++ [⟨p.arg.toNat, byteAt p.payload 2, leAt p.payload 0 2,
            byteAt p.payload 3, byteAt p.payload 4, r.sprue.nextId, sarNow r + 2⟩] }
          pwr := t.pwr, host := t.host, field := t.field, link := t.link, sprue := t.sprue }) ∧
    (Passes .calZero p r → Accepts (.calZero dt p) .calZero dt p s u stAccepted) ∧
    (Passes .calSpan p r → Accepts (.calSpan dt p) .calSpan dt p s u stAccepted)

/-- One operation is in flight, in its slot, started and without a final status; nothing else is in flight. -/
structure Runs (r : State) (slot : Fin 8) (o : Oper) : Prop where
  inSlot   : r.sprue.slots[slot] = some o
  alone    : ∀ i : Fin 8, i ≠ slot → r.sprue.slots[i] = none
  started  : o.waiting = false
  open_    : o.final = none
  held     : r.sprue.held = []
  early    : r.sprue.early = []
  deferred : r.pwr.deferred = []

/-- OPERATION_COMPLETE ends an accepted CAL_ZERO once its conversions are taken: a mean within ±128 codes is the new OFFSET
of the pair, in 1/65 536 code and rounded, and the result OK is stored for POLL; a larger one changes no OFFSET and stores
RANGE. Its slot is free. While conversions are missing the calibration goes on (07 R168; 03 R63, R66). -/
def OperationCompletes : Prop :=
  ∀ (dt : Nat) (slot : Fin 8) (o : Oper) (k : Nat) (s : State),
    live s = true → let r := elapse dt s
    Runs r slot o → o.op = .calZero → o.replied = true → o.origin = .hostNative → o.interim = some stAccepted →
    pairOfCode o.arg.toNat = some k → 0 < r.sar.calN → r.sprue.resHost.length < 4 →
    let ends (st : Byte) (cal : Vector Cal 43) : Prop :=
      ∃ t, exec (.operationComplete dt slot) s = .next t ∧ Quiet t ∧
        t.sprue.resHost = r.sprue.resHost ++ [⟨0x26, o.tag, st, [], flgUrgent o.flg⟩] ∧
        t.sar = { r.sar with calRun := false, cal := cal } ∧
        t.tmr = r.tmr ∧ t.par = r.par ∧ t.nv = r.nv ∧ t.host.queue = r.host.queue
    (r.sar.calCnt = r.sar.calN → r.sar.calSum.natAbs ≤ 128 * r.sar.calN → ∃ m : Int,
      (2 * (m * r.sar.calN - r.sar.calSum * 65536)).natAbs ≤ r.sar.calN ∧
      ends stOk (vset r.sar.cal k { vget r.sar.cal k ⟨0, 0⟩ with offset := m })) ∧
    (r.sar.calCnt = r.sar.calN → 128 * r.sar.calN < r.sar.calSum.natAbs → ends stRange r.sar.cal) ∧
    (r.sar.calCnt ≠ r.sar.calN →
      ∃ t, exec (.operationComplete dt slot) s = .next t ∧ ops t = [o] ∧ t.sar = r.sar ∧ t.tmr = r.tmr ∧
        t.host.queue = r.host.queue)

/-- INTERIM_ACCEPTED: an operation without an answer 200 µs after its timestamp is answered ACCEPTED and goes on in its
slot (03 R57). -/
def InterimAcceptedAfter200us : Prop :=
  ∀ (slot : Fin 8) (o : Oper) (s : State), live s = true → Runs s slot o → o.op = .flare → o.replied = false →
    o.interim = none → o.origin = .hostNative → flgNoReply o.flg = false → s.host.queue.length < 4 →
    let r := elapseTo (o.stamp + 1638) s
    ∃ t, exec (.interimAccepted slot) s = .next t ∧
      ops t = [{ o with interim := some stAccepted, replied := true }] ∧
      t.host.queue = s.host.queue ++ [⟨o.id, 0x25, o.tag, stAccepted, o.arg, [], now r⟩] ∧
      t.sar = r.sar ∧ t.tmr = r.tmr ∧ t.par = r.par

/-- CANCEL ends an accepted operation of its port that is not past its point of no return: its result is SUPERSEDED, its
queued transaction and its marks are gone, and CANCEL answers OK (03 R69, 15 R365). -/
def CancelEndsAnOperation : Prop :=
  ∀ (dt : Nat) (p : Pkt) (slot : Fin 8) (o : Oper) (s : State), live s = true → let r := elapse dt s
    Serving r → Runs r slot o → o.op = .commit → o.ponr = false → o.replied = true → o.interim = some stAccepted →
    o.origin = .hostNative → p.origin = .hostNative → p.flg = 0 → p.payload = [] → p.arg.toNat = o.tag.toNat →
    p.tag ≠ o.tag → (∀ x ∈ r.sprue.resHost, x.tag ≠ p.tag) → r.sprue.resHost.length < 4 → r.host.queue.length < 4 →
    o.id < r.sprue.nextId → earlierComes r .hostNative = false →
    ∃ t, exec (.cancel dt p) s = .next t ∧ Quiet t ∧
      t.host.queue = r.host.queue ++ [answerOf .cancel p r stOk []] ∧
      t.sprue.resHost = r.sprue.resHost ++ [⟨0x13, o.tag, stSuperseded, [], flgUrgent o.flg⟩] ∧
      t.nv.queue = r.nv.queue.filter (fun x => x.opId != some o.id) ∧
      (∀ e ∈ t.par.pending, e.mark ≠ some o.id) ∧ t.par.pending.map Pend.value = r.par.pending.map Pend.value ∧
      t.tmr = r.tmr ∧ t.afe = r.afe ∧ t.gauge = r.gauge

/-- An operation in flight completes, is answered ACCEPTED after 200 µs, or is cancelled. -/
def Obligations.OperationsEnd : Prop := OperationCompletes ∧ InterimAcceptedAfter200us ∧ CancelEndsAnOperation

/-! ## Requests in general -/

/-- The command that delivers a request of each opcode. -/
def requestOf (op : Op) (dt : Nat) (p : Pkt) : Instr :=
  match op with
  | .ping => .ping dt p | .ident => .ident dt p | .stage => .stage dt p | .reset => .reset dt p
  | .sleep => .sleep dt p | .wake => .wake dt p | .caps => .caps dt p | .poll => .poll dt p | .cancel => .cancel dt p
  | .get => .get dt p | .set => .set dt p | .setBulk => .setBulk dt p | .commit => .commit dt p
  | .revert => .revert dt p | .peek => .peek dt p | .poke => .poke dt p | .accRead => .accRead dt p
  | .trkRead => .trkRead dt p | .accClear => .accClear dt p | .seqLoad => .seqLoad dt p | .seqStart => .seqStart dt p
  | .flare => .flare dt p | .calZero => .calZero dt p | .calSpan => .calSpan dt p | .calStore => .calStore dt p
  | .gaugeRead => .gaugeRead dt p | .cellRead => .cellRead dt p | .modelLoad => .modelLoad dt p
  | .glintRead => .glintRead dt p | .almRead => .almRead dt p | .seaState => .seaState dt p
  | .schedLoad => .schedLoad dt p | .shedSet => .shedSet dt p | .annealRead => .annealRead dt p
  | .sbCapture => .sbCapture dt p | .cmpSet => .cmpSet dt p | .cdnSet => .cdnSet dt p | .capqRead => .capqRead dt p
  | .rtcSet => .rtcSet dt p | .dgOpen => .dgOpen dt p | .dgFeed => .dgFeed dt p | .dgDesc => .dgDesc dt p
  | .dgFinish => .dgFinish dt p | .dgExport => .dgExport dt p | .dgImport => .dgImport dt p
  | .authChal => .authChal dt p | .unlockChal => .unlockChal dt p | .unlock => .unlock dt p | .seal => .seal dt p
  | .keyLoad => .keyLoad dt p | .cstRead => .cstRead dt p | .cstConfig => .cstConfig dt p
  | .linkStats => .linkStats dt p | .cstLeave => .cstLeave dt p | .logRead => .logRead dt p | .logMark => .logMark dt p

/-- A request that a step of its checks refuses gets the status of that step and changes nothing but its port: for every
opcode, origin and operand (03 R54, R56, R57). -/
def RefusedRequestsChangeNothing : Prop :=
  ∀ (op : Op) (dt : Nat) (p : Pkt) (s : State) (st : Byte) (b : List Byte), Asked dt p s → p.origin ≠ .internal →
    opRefusal (elapse dt s) (opFor op p (elapse dt s)) = some (st, b) →
    ∃ b', Answers (requestOf op dt p) op dt p s (elapse dt s) st b' ∧ (op ≠ .poke → b' = b)

/-- The order of the checks: a request of a stage not yet reached is refused with STAGE, and only then are its key, its
lockout, its lock level, its length, its arguments, its ranges, the authority of another Star, a contention window and its
resource looked at, in this order (03 R54, R60). -/
def ChecksRunInOrder : Prop :=
  ∀ (op : Op) (p : Pkt) (r : State), let o := opFor op p r
    let c := opRefusal r o
    (atLeast r (firstStage o) = false → c = some (stStage, [])) ∧
    (atLeast r (firstStage o) = true → quenchHit r o = true → c = some (stQuenched, [])) ∧
    (atLeast r (firstStage o) = true → quenchHit r o = false →
      (∀ b, lockoutHit r o = some b → c = some (stLockout, b)) ∧
      (lockoutHit r o = none →
        (levelOk r o = false → c = some (stLocked, [])) ∧
        (levelOk r o = true → lengthOk r o = false → c = some (stBadLen, [])) ∧
        (levelOk r o = true → lengthOk r o = true → argOk r o = false → c = some (stBadArg, [])) ∧
        (levelOk r o = true → lengthOk r o = true → argOk r o = true →
          (rangeOk r o = false → c = some (stRange, [])) ∧
          (rangeOk r o = true → remoteHit r o = true → c = some (stRemote, leBytes 4 r.link.poleSer)) ∧
          (rangeOk r o = true → remoteHit r o = false →
            (∀ x, conflictAt r o = some x → c = some (stConflict, conflictBytes r o x)) ∧
            (conflictAt r o = none →
              c = if resourceFree r o then none else some (stBusy, []))))))

/-- The checks run in their order, and a refused request changes nothing but its port. -/
def Obligations.ChecksRefuse : Prop := RefusedRequestsChangeNothing ∧ ChecksRunInOrder

/-- Among the operations that may start, the one with the earliest timestamp starts next; of equal timestamps the internal
one, then the host port's, the UART's, SDI-12's, the link's (03 R70). A request whose edge still brings a packet that starts
before it takes its slot and waits; nothing else changes but the count of idleness and a decided entry. -/
def Obligations.StartsFollowTheOrder : Prop :=
  (∀ (s : State) (o : Oper), nextStart s = some o →
    o ∈ ops s ∧ startable s o = true ∧ ∀ x ∈ ops s, startable s x = true →
      o.stamp ≤ x.stamp ∧ (x.stamp = o.stamp → startRank o.origin ≤ startRank x.origin)) ∧
  startRank .internal < startRank .hostNative ∧ startRank .gen1 = startRank .hostNative ∧
  startRank .gen2 = startRank .hostNative ∧ startRank .hostNative < startRank .fieldNative ∧
  startRank .modbus = startRank .fieldNative ∧ startRank .fieldNative < startRank .sdi ∧ startRank .sdi < startRank .link ∧
  ∀ (op : Op) (dt : Nat) (p : Pkt) (s : State), live s = true → let r := elapse dt s
    AdmitsNow p r → earlierComes r p.origin = true →
    ∃ t, exec (requestOf op dt p) s = .next t ∧ ops t = [opFor op p r] ∧ t = { r with pwr := t.pwr, sprue := t.sprue } ∧
      t.pwr = { r.pwr with entry := t.pwr.entry, idleSince := t.pwr.idleSince }

/-! ## Host port (11_host_field_ports.md R250 to R263, 04_staged_start.md R81, R82) -/

/-- The cores serve the host over I2C, or over SPI, when the command arrives `dt` edges from now. -/
def ServesI2c (dt : Nat) (s : State) : Prop := live s = true ∧ Serving (elapse dt s) ∧ (elapse dt s).start.hsel = false
def ServesSpi (dt : Nat) (s : State) : Prop := live s = true ∧ Serving (elapse dt s) ∧ (elapse dt s).start.hsel = true

/-- The state with what the MG16 drove in a host transaction that it acknowledged. -/
def Drove (u : State) (out : List Byte) : State :=
  { u with host := { u.host with out := out, ack := true, ackWait := none } }

/-- A request of any opcode and operands, written as the packet that carries it, is delivered whole by a WRITE_PACKET, by
a SPRUE_BLOCK_SUBMIT and by the stuffed bytes between the flags of a frame on the field UART: no field of the packet is
lost or changed (03 R46 to R49; 11 R251,
R260, R264). -/
def Obligations.PacketsDeliverTheirRequest : Prop :=
  ∀ (op : Op) (tag third : Byte) (arg : BitVec 16) (payload : List Byte) (dt : Nat) (s : State), payload.length ≤ 252 →
    let b := packetBytes (BitVec.ofNat 8 (opCode op)) tag third arg payload
    let r := elapse dt s
    let p (o : Origin) : Pkt := ⟨o, tag, BitVec.ofNat 4 third.toNat, arg, payload⟩
    let status := BitVec.ofNat 8 (spiStatus (entryTouch .hostNative r))
    (ServesSpi dt s → r.host.queue.length < 4 →
      exec (.writePacket dt b) s =
        .next (submit op (p .hostNative)
          (Drove (entryTouch .hostNative r) (status :: List.replicate b.length 0xFF)))) ∧
    (ServesI2c dt s → r.host.queue.length < 4 → r.host.asm = [] → r.host.asmAt = none → b.length ≤ 255 →
      prm (entryTouch .hostNative r) 0x0803 = 0 →
      exec (.sprueBlockSubmit dt b none) s =
        .next (submit op (p .hostNative) (Drove (entryTouch .hostNative r) []))) ∧
    (live s = true → Serving r → r.field.proto = 0 → fdePin r = false →
      exec (.nativeFrame dt ((stuff b).drop 1).dropLast false) s = .next (submit op (p .fieldNative) (frxActive r)))

/-- READ_STATUS drives the status byte throughout; READ_REPLY drives the status byte and the oldest reply, filled with
0xFF, and with nothing queued a 0 byte (11 R250, R251). -/
def SpiReadsDrive : Prop :=
  ∀ (dt n : Nat) (s : State), ServesSpi dt s →
    let r := entryTouch .hostNative (elapse dt s)
    let st := BitVec.ofNat 8 (spiStatus r)
    exec (.readStatus dt n) s = .next (Drove r (List.replicate (n + 1) st)) ∧
    (r.host.queue = [] → exec (.readReply dt n) s = .next (Drove r (st :: fillTo n [0]))) ∧
    (∀ x q, r.host.queue = x :: q → n < (replyBytes x).length →
      exec (.readReply dt n) s = .next (Drove r (st :: fillTo n (replyBytes x)))) ∧
    (∀ x q, r.host.queue = x :: q → (replyBytes x).length ≤ n → Quiet r →
      ∃ t, exec (.readReply dt n) s = .next t ∧ t.host.queue = q ∧ t.host.out = st :: fillTo n (replyBytes x) ∧
        t = { r with host := t.host })

/-- Before Melt the stage responder answers a read with its four bytes: 0x5D, the stage, the tally validity and the reset
reason; on I2C the count 4 comes first (04 R81, R82). -/
def StageResponderAnswers : Prop :=
  ∀ (dt : Nat) (s : State), live s = true → let r := elapse dt s
    r.clk.fllLock = true → r.pwr.vddioOk = true → r.clk.lode = .off → r.start.stage = .ember → r.pwr.mode = .run →
    r.start.hsel = false →
    exec (.stageResponderRead dt 5) s = .next (Drove r [4, 0x5D, 0,
      BitVec.ofNat 8 (bit r.cqa.modRun + 2 * bit r.cqb.modRun + 4 * bit r.start.life),
      BitVec.ofNat 8 (r.start.reason + 16 * r.start.fault)])

/-- The reads of the native host paths drive what their rules say. -/
def Obligations.SpiAndStageDrive : Prop := SpiReadsDrive ∧ StageResponderAnswers

/-- A read of generation 1 or 2 is the request `p` at its edge: it has its answer in the same transfer, and nothing changes but
the ports, the sequencer and, of the host port, what `h` says besides (01 R21; 03 R55). -/
def BuiltRead (op : Op) (p : Pkt) (c : Instr) (s r : State) (out : List Byte) (h : HostPort → HostPort) : Prop :=
  (Passes op p r → ∃ (t : State) (b : List Byte), exec c s = .next t ∧ t.sprue.answer = some (answerOf op p r stOk b) ∧
    Quiet t ∧ t.host.out = out ∧ t.host.ack = true ∧
    t.host = h { r.host with
      out := out, ack := true, ackWait := none, errCode := t.host.errCode, fullChg := t.host.fullChg
      fullDsg := t.host.fullDsg, alarms := t.host.alarms, alerts := t.host.alerts, notifies := t.host.notifies } ∧
    t = { r with pwr := t.pwr, host := t.host, sprue := t.sprue }) ∧
  (¬Passes op p r → ∃ t, exec c s = .next t ∧ t.host.out = [] ∧ t.host.ack = false ∧ t.host.legRej = r.host.legRej ∧
    t.gauge = r.gauge ∧ t.par = r.par)

/-- Generation 1: a write sets the byte pointer, LEG_CTRL clears REJ; the first byte of the window is LEG_STATUS, the serial
number stands at 0x22 (11 R257). A read is a GAUGE_READ at its edge and returns the bytes of the window from the pointer on,
which it moves; that it is this request, and that a refused one is not acknowledged, is this model's choice (assumption log
139). -/
def LegacyWindow : Prop :=
  ∀ (dt : Nat) (s : State), ServesI2c dt s →
    let r := elapse dt s
    (∀ a : Byte, exec (.legacyWrite dt [a]) s =
      .next (Drove { r with host := { r.host with legPtr := a.toNat } } [])) ∧
    exec (.legCtrlClearRej dt) s =
      .next (Drove { r with host := { r.host with legRej := false, legPtr := 2 } } []) ∧
    (legWindow r).length = 0x50 ∧ (legWindow r)[0]? = some (BitVec.ofNat 8 (legStatus r)) ∧
    ((legWindow r).drop 0x22).take 4 = leBytes 4 (prm r 0x0101) ∧
    (∀ n, r.host.legPtr + n < 0x50 → AdmitsNow ⟨.gen1, 0, 0, 0, []⟩ r →
      BuiltRead .gaugeRead ⟨.gen1, 0, 0, 0, []⟩ (.legacyRead dt n) s r (((legWindow r).drop r.host.legPtr).take n)
        fun h => { h with legPtr := r.host.legPtr + n })

/-- A SLEEP through LEG_CTRL is decided at once, since its reply waits at no port (11 R257; 03 R59). -/
def LegacySleepIsDecided : Prop :=
  ∀ (dt : Nat) (s : State), ServesI2c dt s → AdmitsNow ⟨.gen1, 0, 0, 0, []⟩ (elapse dt s) →
    Passes .sleep ⟨.gen1, 0, 0, 0, []⟩ (elapse dt s) → isMember (elapse dt s) = false → (elapse dt s).pol.dpas = false →
    ∃ t, exec (.legCtrlSleep dt) s = .next t ∧ t.pwr.entry = some ⟨.watch, false⟩ ∧ t.host.ack = true ∧
      t.pwr.hold = .none ∧ t.host.legPtr = 2

/-- The window of generation 1 acts as its rules say. -/
def Obligations.Generation1Window : Prop := LegacyWindow ∧ LegacySleepIsDecided

/-- The SBS word commands are GAUGE_READs at their edge and drive their word, least significant byte first, with the PEC the
master reads; the three text commands drive a block (11 R255, R258). That they are this request, and that a refused one is
not acknowledged, is this model's choice (assumption log 139). -/
def SbsReadsDrive : Prop :=
  ∀ (dt : Nat) (pec : Bool) (s : State), ServesI2c dt s →
    let r := elapse dt s
    let g := r.gauge.snap.recA
    let p : Pkt := ⟨.gen2, 0, 0, 0, []⟩
    let word (c : Instr) (cmd : Byte) (v : Nat) : Prop :=
      BuiltRead .gaugeRead p c s r (withPec [0x16, cmd, 0x17] (leBytes 2 v) pec) id
    let block (c : Instr) (cmd : Byte) (b : List Byte) : Prop :=
      BuiltRead .gaugeRead p c s r (withPec [0x16, cmd, 0x17] (leBytes 1 b.length ++ b) pec) id
    AdmitsNow p r →
    word (.remainingCapacityAlarmRead dt pec) 0x01 (prm r 0x0820) ∧
    word (.remainingTimeAlarmRead dt pec) 0x02 (prm r 0x0821) ∧
    word (.batteryMode dt pec) 0x03 0 ∧ word (.temperature dt pec) 0x08 g.temp ∧
    word (.voltage dt pec) 0x09 (min 65535 g.volt) ∧ word (.current dt pec) 0x0A (sat16 g.curr) ∧
    word (.averageCurrent dt pec) 0x0B (sat16 g.avgCurr) ∧ word (.maxError dt pec) 0x0C (maxErrorPct r) ∧
    word (.relativeStateOfCharge dt pec) 0x0D (percent g.rsoc) ∧
    word (.absoluteStateOfCharge dt pec) 0x0E (percent g.asoc) ∧
    word (.remainingCapacity dt pec) 0x0F (satU16 g.rm) ∧ word (.fullChargeCapacity dt pec) 0x10 (satU16 g.fcc) ∧
    word (.runTimeToEmpty dt pec) 0x11 (runToEmpty r) ∧ word (.averageTimeToEmpty dt pec) 0x12 (avgToEmpty r) ∧
    word (.averageTimeToFull dt pec) 0x13 (avgToFull r) ∧ word (.cycleCount dt pec) 0x17 g.cycles ∧
    word (.designCapacity dt pec) 0x18 (min 65535 (prm r 0x0203)) ∧ word (.designVoltage dt pec) 0x19 (designMv r) ∧
    word (.specificationInfo dt pec) 0x1A 0x0031 ∧ word (.manufactureDate dt pec) 0x1B (prm r 0x0107) ∧
    word (.serialNumber dt pec) 0x1C (prm r 0x0101 % 65536) ∧
    block (.manufacturerName dt pec) 0x20 [0x53, 0x76, 0x65, 0x74, 0x79, 0x65, 0x6E] ∧
    block (.deviceName dt pec) 0x21 [0x4D, 0x47, 0x31, 0x36, 0x2D, 0x51, if Config.variantQX then 0x58 else 0x41] ∧
    block (.deviceChemistry dt pec) 0x22 (chemText r)

/-- In Melt TEMPERATURE, VOLTAGE and CURRENT are GETs of the live reading and drive it; every other command is not acknowledged
there (04 R91, R92). -/
def SbsInMelt : Prop :=
  ∀ (dt : Nat) (pec : Bool) (s : State), live s = true →
    let r := elapse dt s
    r.clk.lode = .on → r.clk.halt = false → r.pwr.mode = .run → r.start.stage = .melt → r.pwr.vddioOk = true →
    r.start.hsel = false → Quiet r →
    let word (c : Instr) (cmd : Byte) (id : BitVec 16) (v : Nat) : Prop :=
      BuiltRead .get ⟨.gen2, 0, 0, id, []⟩ c s r (withPec [0x16, cmd, 0x17] (leBytes 2 v) pec) fun h => h
    word (.temperature dt pec) 0x08 0x0405 (leNat (liveReading 0x0405 r)) ∧
    word (.voltage dt pec) 0x09 0x0401 (min 65535 (leNat (liveReading 0x0401 r))) ∧
    word (.current dt pec) 0x0A 0x0402 (sat16 (signed 32 (leNat (liveReading 0x0402 r)))) ∧
    exec (.remainingCapacity dt pec) s = .next { r with host := { r.host with out := [], ack := false, ackWait := none } }

/-- BATTERY_STATUS is a GAUGE_READ at its edge, drives the status word with the alarm bits judged anew and then sets the error
code to 0; a Write Word of the two alarm limits is a SET of its parameter and is acknowledged, and where it has no status
within 1 ms, as while the cores are halted, it is acknowledged then (11 R256, R258, R259). -/
def BatteryStatusAndAlarmLimits : Prop :=
  ∀ (dt : Nat) (pec : Bool) (lo hi : Byte) (s : State), ServesI2c dt s →
    let r := elapse dt s
    let p (id : BitVec 16) : Pkt := ⟨.gen2, 0, 0, id, [lo, hi]⟩
    let g : Pkt := ⟨.gen2, 0, 0, 0, []⟩
    let sets (c : Instr) (id : BitVec 16) : Prop :=
      ∃ t, exec c s = .next t ∧ t.par = r.par.setPending id.toNat [lo, hi] ∧ t.host.errCode = 0 ∧ t.host.ack = true ∧
        t.sec = r.sec ∧ t.nv = r.nv ∧ t.tmr = r.tmr
    (AdmitsNow g (alarmTrack r) →
      BuiltRead .gaugeRead g (.batteryStatus dt pec) s (alarmTrack r)
        (withPec [0x16, 0x16, 0x17] (leBytes 2 (batteryWord (alarmTrack r))) pec) fun h => { h with errCode := 0 }) ∧
    (prm r 0x0803 = 0 → AdmitsNow (p 0x0820) r → Passes .set (p 0x0820) r →
      sets (.remainingCapacityAlarmWrite dt [lo, hi]) 0x0820) ∧
    (prm r 0x0803 = 0 → AdmitsNow (p 0x0821) r → Passes .set (p 0x0821) r →
      sets (.remainingTimeAlarmWrite dt [lo, hi]) 0x0821)

/-- The words of generation 2 act as their rules say. -/
def Obligations.Generation2Words : Prop := SbsReadsDrive ∧ SbsInMelt ∧ BatteryStatusAndAlarmLimits

/-- Generation 3: a block to 0x51 joins the assembly buffer, which 100 ms without its end discard; a block read returns
the count and the next bytes of the oldest reply with their PEC, an abandoned one changes nothing; a status read returns
the status byte; a clock held low abandons the transaction and is counted (11 R253, R260, R261). -/
def Obligations.Generation3Blocks : Prop :=
  ∀ (dt : Nat) (s : State), ServesI2c dt s →
    let r := elapse dt s
    let e := entryTouch .hostNative r
    (∀ b, 1 ≤ b.length → b.length ≤ 255 → r.host.asm.length + b.length ≤ 260 → r.host.queue.length < 4 →
      prm e 0x0803 = 0 →
      exec (.sprueBlockAppend dt b none) s =
        .next (Drove { e with host := { e.host with asm := r.host.asm ++ b, asmAt := some (now r) } } [])) ∧
    (∀ x q, r.host.queue = x :: q → let part := ((replyBytes x).drop r.host.readOff).take 255
      let out := withPec [0x58, 0x52, 0x59] (leBytes 1 part.length ++ part) true
      exec (.sprueBlockRead dt false) s = .next (Drove e out) ∧
      (r.host.readOff + part.length < (replyBytes x).length →
        exec (.sprueBlockRead dt true) s =
          .next (Drove { e with host := { e.host with readOff := r.host.readOff + part.length } } out))) ∧
    (∀ pec, exec (.sprueStatusRead dt pec) s =
      .next (Drove e (withPec [0x58, 0x53, 0x59] [BitVec.ofNat 8 (spiStatus e)] pec))) ∧
    exec (.smbusTimeout dt) s =
      .next { r with host := { r.host with
        smbTimeout := min (r.host.smbTimeout + 1) 0xFFFFFFFF, out := [], ack := false, ackWait := none } } ∧
    (∀ t, s.host.asmAt = some t → let w := elapseTo (t + 819200) s
      exec .assemblyTimeout s = .next { w with host := { w.host with asm := [], asmAt := none } })

/-- ALERT_RESPONSE gives the address of the oldest cause and takes it; HOST_NOTIFY sends the oldest notification, an
acknowledged one leaves, and the third NACK drops it and is counted (11 R262, R263). -/
def Obligations.AlertsAndNotifications : Prop :=
  ∀ (dt : Nat) (s : State), ServesI2c dt s →
    let r := alarmTrack (elapse dt s)
    (∀ c q, r.host.alerts = c :: q → prm r 0x0801 = 1 →
      exec (.alertResponse dt) s =
        .next (Drove { r with host := { r.host with alerts := q } } [if c = 3 then 0x58 else 0x16])) ∧
    (∀ tag opc k q, r.host.notifies = (some (tag, opc), k) :: q → prm (elapse dt s) 0x0802 = 1 →
      exec (.hostNotify dt .acked) s =
        .next (Drove { r with host := { r.host with notifies := q } } [0x10, 0x58, tag, opc]) ∧
      (k < 2 → ∃ t, exec (.hostNotify dt .nacked) s = .next t ∧ t.host.notifies = (some (tag, opc), k + 1) :: q ∧
        t.host.hnDrop = r.host.hnDrop ∧ t = { r with host := t.host }) ∧
      (2 ≤ k → ∃ t, exec (.hostNotify dt .nacked) s = .next t ∧ t.host.notifies = q ∧
        t.host.hnDrop = min (r.host.hnDrop + 1) 0xFFFFFFFF ∧ t = { r with host := t.host }))

/-! ## Field port (11_host_field_ports.md R264 to R273) -/

/-- FTX sends `b`: FDE rises now, FDE_GUARD bit times before the first start bit, and falls as long after the last stop bit,
until which the port counts as active (11 R264). -/
def Sends (b : List Byte) (t : State) : State :=
  let guard := prm t 0x0815
  let bits (n : Nat) : Nat := n * 8192000 / t.field.baud
  let chars := b.length * (if t.field.frame = 0 then 10 else 11)
  { t with field := { t.field with
    tx := b, activeAt := now t + bits (guard + chars), fdeFrom := now t, fdeTo := now t + bits (2 * guard + chars) } }

/-- The oldest reply leaves on FTX in a stuffed frame once FP_TURN character times have passed since FRX was active and no
transmission runs, and what waits for the reply follows its last stop bit; without a Sprue reply the oldest Modbus frame
leaves, among them the reply of a frame whose request has had its answer since. Before then nothing leaves (03 R59; 11 R264,
R265, R266, R269). Settings committed for the port take effect when it has been idle for 100 ms (11
R274). -/
def Obligations.FieldPortTransmitsAndReconfigures : Prop :=
  (∀ (dt : Nat) (s : State), live s = true → Serving (elapse dt s) →
    let r := elapse dt s
    let turn := r.field.rxAt + charTicks r (prm r 0x0814)
    ((∀ w, r.field.mbWait = some w → w.ans = none) →
      (turn ≤ now r → r.field.fdeTo ≤ now r →
        (∀ x q, r.field.queue = x :: q →
          let t := Sends (stuff (replyBytes x)) { r with field := { r.field with queue := q } }
          exec (.fieldReplyTransmit dt) s =
            .next { t with pwr := { t.pwr with
              deferred := (r.pwr.deferred.map fun d =>
                if d.opId = x.opId then { d with sent := some t.field.activeAt } else d) } }) ∧
        (∀ b q, r.field.queue = [] → r.field.mbQueue = b :: q →
          exec (.fieldReplyTransmit dt) s = .next (Sends b { r with field := { r.field with mbQueue := q } }))) ∧
      (now r < turn ∨ now r < r.field.fdeTo → exec (.fieldReplyTransmit dt) s = .next r)) ∧
    (∀ w a, r.field.mbWait = some w → w.ans = some a → w.unit ≠ 0 → w.fc = 6 → w.regs = [] →
      let u := { r with field := { r.field with mbWait := none } }
      let reply (pdu : List Byte) : State := { u with field := { u.field with
        mbQueue := u.field.mbQueue ++ [w.unit :: pdu ++ leBytes 2 (crcModbus (w.unit :: pdu))] } }
      now r < turn →
      (a.status = stOk ∨ a.status = stAccepted → exec (.fieldReplyTransmit dt) s = .next (reply (6 :: w.ok))) ∧
      (a.status ≠ stOk → a.status ≠ stAccepted →
        exec (.fieldReplyTransmit dt) s = .next (reply [0x86, excOf a.status])))) ∧
  (∀ (s : State) (t : Nat), live s = true → Serving s → s.field.reconf = some t →
    let w := elapseTo (max t s.field.activeAt + msTicks 100) s
    let v (id : Nat) : Nat := leNat (w.par.committedOf id)
    ∃ x, exec .fieldPortReconfigure s = .next x ∧ x = { w with par := x.par, field := x.field } ∧
      x.field = { w.field with
        proto := v 0x0810, baud := v 0x0811, frame := v 0x0812, addr := v 0x0813, reconf := none, nmeaAt := now w
        nmeaBankB := false } ∧
      x.par.committed = w.par.committed ∧ x.par.pending = w.par.pending)

/-- The part serves Modbus requests to its unit address when the command arrives `dt` edges from now: FRX is heard. -/
def ServesModbus (dt : Nat) (unit : Byte) (s : State) : Prop :=
  live s = true ∧ Serving (elapse dt s) ∧ (elapse dt s).field.proto = 1 ∧ unit.toNat = (elapse dt s).field.addr ∧
    unit ≠ 0 ∧ fdePin (elapse dt s) = false

/-- The state in which a Modbus frame for this unit acts: an earlier frame that waits is given up. -/
def MbHeard (dt : Nat) (s : State) : State :=
  let e := frxActive (elapse dt s)
  { e with field := { e.field with mbWait := none } }

/-- A state in which a Modbus reply waits: the unit, the bytes, the CRC-16 with its low byte first. -/
def MbQueued (unit : Byte) (pdu : List Byte) (t : State) : State :=
  { t with field := { t.field with
    mbQueue := t.field.mbQueue ++ [unit :: pdu ++ leBytes 2 (crcModbus (unit :: pdu))] } }

/-- The frame `c` is the Sprue request `op` in the state `e`: where the request has its answer at once the frame is answered,
with `ok` where that is OK or ACCEPTED, else with its exception; where it has none yet the frame waits as `w` says; and an
admitted request has its answer at once (03 R55; 11 R269). -/
def MbAsks (c : Instr) (s e : State) (unit fc : Byte) (op : Op) (arg : BitVec 16) (payload : List Byte)
    (w : MbWait) (ok : Reply → State → State) : Prop :=
  let p : Pkt := ⟨.modbus, 0, 0, arg, payload⟩
  let t := submit op p { e with sprue := { e.sprue with answer := none } }
  (∀ a, t.sprue.answer = some a →
    (a.status = stOk ∨ a.status = stAccepted → exec c s = .next (ok a t)) ∧
    (a.status ≠ stOk → a.status ≠ stAccepted → exec c s = .next (MbQueued unit [fc, excOf a.status] t))) ∧
  (t.sprue.answer = none → exec c s = .next { t with field := { t.field with mbWait := some w } }) ∧
  (Admits p e → ∃ a, t.sprue.answer = some a)

/-- The read functions of Modbus: 1 to 125 input registers, most significant byte first; the cells from 32 on, the pack
serial at 48 and 49; an undefined address answers exception 2, a count out of range exception 3 (11 R266, R267). That the
read is a GAUGE_READ at its edge is this model's choice (03 R55; assumption log 139). Holding registers that cover neither
the value nor COMMIT return what they hold; a read of the low word of the value is a GET, exception 3 for a value of more
than four bytes, and a read of COMMIT, of which the manual says nothing, drives a free value (11 R268; assumption log 2). -/
def ModbusReads : Prop :=
  ∀ (dt : Nat) (unit : Byte) (start count : BitVec 16) (s : State), ServesModbus dt unit s →
    let e := MbHeard dt s
    let l := (List.range count.toNat).map fun i => start.toNat + i
    let bytes (v : Nat → Nat) : List Byte := (l.map fun a => beBytes 2 (v a)).flatten
    (∀ k < 16, inputReg e (32 + k) = some ((((e.gauge.snap.cells[k]?).map CellRec.v).getD 0 % 65536).toNat)) ∧
    inputReg e 48 = some (prm e 0x0101 / 65536) ∧ inputReg e 49 = some (prm e 0x0101 % 65536) ∧
    (∀ a, (inputReg e a).isSome = decide (a < 28 ∨ (32 ≤ a ∧ a < 50))) ∧
    (1 ≤ count.toNat → count.toNat ≤ 125 →
      ((∀ a ∈ l, (inputReg e a).isSome = true) →
        let pdu := [4, BitVec.ofNat 8 (2 * count.toNat)] ++ bytes fun a => (inputReg e a).getD 0
        let w : MbWait := ⟨unit, 4, e.sprue.nextId, [], [], l.map fun a => (inputReg e a).getD 0, none⟩
        MbAsks (.readInputRegisters dt unit start count) s e unit 0x84 .gaugeRead 0 [] w (fun _ t => MbQueued unit pdu t) ∧
        (Admits ⟨.modbus, 0, 0, 0, []⟩ e → Passes .gaugeRead ⟨.modbus, 0, 0, 0, []⟩ e →
          ∃ t, exec (.readInputRegisters dt unit start count) s = .next (MbQueued unit pdu t) ∧
            t.field.mbQueue = e.field.mbQueue ∧ t.field.queue = e.field.queue ∧ t.gauge = e.gauge)) ∧
      ((∃ a ∈ l, inputReg e a = none) →
        exec (.readInputRegisters dt unit start count) s = .next (MbQueued unit [0x84, 2] e)) ∧
      ((∀ a ∈ l, a = 0 ∨ a = 1 ∨ a = 16 ∨ a = 17 ∨ a = 19) →
        exec (.readHoldingRegisters dt unit start count) s =
          .next (MbQueued unit ([3, BitVec.ofNat 8 (2 * count.toNat)] ++ bytes fun a =>
            if a = 0 then e.field.paramId else if a = 1 then e.field.paramVal / 65536
            else if a = 16 then e.alm.sea else if a = 17 then e.pol.floor else e.field.lastStatus)
            { e with drawn := e.drawn + 1 })) ∧
      ((∃ a ∈ l, ¬(a ≤ 2 ∨ (16 ≤ a ∧ a ≤ 19))) →
        exec (.readHoldingRegisters dt unit start count) s = .next (MbQueued unit [0x83, 2] e))) ∧
    (∀ p, prmOf e.field.paramId = some p →
      (p.len ≤ 4 →
        MbAsks (.readHoldingRegisters dt unit 2 1) s e unit 0x83 .get (BitVec.ofNat 16 e.field.paramId) []
          ⟨unit, 3, e.sprue.nextId, [], [], [2], none⟩ fun a t =>
            MbQueued unit ([3, 2] ++ beBytes 2 ((p.value a.payload % 4294967296).toNat % 65536))
              { t with drawn := t.drawn + 1, field := { t.field with paramVal := (p.value a.payload % 4294967296).toNat } }) ∧
      (4 < p.len → exec (.readHoldingRegisters dt unit 2 1) s = .next (MbQueued unit [0x83, 3] e))) ∧
    exec (.readHoldingRegisters dt unit 18 1) s =
      .next (MbQueued unit ([3, 2] ++ beBytes 2 (Config.freeNat e.drawn % 65536)) { e with drawn := e.drawn + 1 }) ∧
    (count.toNat = 0 ∨ 125 < count.toNat →
      exec (.readInputRegisters dt unit start count) s = .next (MbQueued unit [0x84, 3] e) ∧
      exec (.readHoldingRegisters dt unit start count) s = .next (MbQueued unit [0x83, 3] e))

/-- The write functions of Modbus: register 0 takes the parameter ID and register 1 the high word of the value, each with
an echo; register 2 is a SET of the parameter named; registers 16 and 17 are the requests SEA_STATE and SHED_SET and a COMMIT of 0xC0DE is COMMIT, a status other than
OK and ACCEPTED becoming an exception; another value of COMMIT is exception 3, and a register that is not there or not
written exception 2 (11 R268, R269). -/
def ModbusWrites : Prop :=
  ∀ (dt : Nat) (unit : Byte) (v w : BitVec 16) (s : State), ServesModbus dt unit s →
    let e := MbHeard dt s
    let word (x : BitVec 16) : List Byte := beBytes 2 x.toNat
    let echo (reg : BitVec 16) : List Byte := 6 :: word reg ++ word v
    let asks (reg : BitVec 16) (op : Op) (arg : BitVec 16) (payload : List Byte) (e : State) : Prop :=
      MbAsks (.writeSingleRegister dt unit reg v) s e unit 0x86 op arg payload
        ⟨unit, 6, e.sprue.nextId, [], word reg ++ word v, [], none⟩ fun _ t => MbQueued unit (echo reg) t
    exec (.writeSingleRegister dt unit 0 v) s =
      .next (MbQueued unit (echo 0) { e with field := { e.field with paramId := v.toNat } }) ∧
    exec (.writeSingleRegister dt unit 1 v) s =
      .next (MbQueued unit (echo 1)
        { e with field := { e.field with paramVal := 65536 * v.toNat + e.field.paramVal % 65536 } }) ∧
    (let val := e.field.paramVal / 65536 * 65536 + v.toNat
     let f := { e with field := { e.field with paramVal := val } }
     (prmOf e.field.paramId = none → asks 2 .set (BitVec.ofNat 16 e.field.paramId) (leBytes 4 val) f) ∧
     ∀ p, prmOf e.field.paramId = some p →
      (p.len ≤ 4 → asks 2 .set (BitVec.ofNat 16 e.field.paramId) (leBytes p.len val) f) ∧
      (4 < p.len → exec (.writeSingleRegister dt unit 2 v) s = .next (MbQueued unit [0x86, 3] f))) ∧
    asks 16 .seaState v [] e ∧ asks 17 .shedSet v [] e ∧ (v = 0xC0DE → asks 18 .commit 0 [] e) ∧
    (v ≠ 0xC0DE → exec (.writeSingleRegister dt unit 18 v) s = .next (MbQueued unit [0x86, 3] e)) ∧
    (∀ reg : BitVec 16, ¬(reg.toNat ≤ 2 ∨ (16 ≤ reg.toNat ∧ reg.toNat ≤ 18)) →
      exec (.writeSingleRegister dt unit reg v) s = .next (MbQueued unit [0x86, 2] e)) ∧
    exec (.writeMultipleRegisters dt unit 0 2 [v, w]) s =
      .next (MbQueued unit [0x10, 0, 0, 0, 2]
        { e with field := { e.field with
          paramId := v.toNat, paramVal := 65536 * w.toNat + e.field.paramVal % 65536 } }) ∧
    (∀ (start count : BitVec 16) (l : List (BitVec 16)), count.toNat = 0 ∨ 123 < count.toNat →
      exec (.writeMultipleRegisters dt unit start count l) s = .next (MbQueued unit [0x90, 3] e))

/-- DIAGNOSTICS with subfunction 0 returns the query; the device identification streams the three objects, or gives one;
a frame with a bad CRC is counted and not answered; a frame for another unit only counts as activity; a broadcast is obeyed
for writes only, and not answered; while FDE is high FRX is not heard (11 R264, R266). -/
def ModbusServices : Prop :=
  ∀ (dt : Nat) (unit : Byte) (s : State), ServesModbus dt unit s →
    let e := MbHeard dt s
    let a := frxActive (elapse dt s)
    let model : List Byte := if Config.variantQX then ascii "MG16-QX" else ascii "MG16-QA"
    let release : List Byte := ascii "B-3.1" ++ Config.patchText e.start.patchVer
    let object (i : Byte) (b : List Byte) : List Byte := [i, BitVec.ofNat 8 b.length] ++ b
    (∀ data, exec (.diagnostics dt unit 0 data) s = .next (MbQueued unit ([8, 0, 0] ++ data) e)) ∧
    exec (.encapsulatedInterfaceTransport dt unit 0x0E 1 0) s =
      .next (MbQueued unit ([0x2B, 0x0E, 1, 0x81, 0, 0, 3] ++ object 0 (ascii "Svetyen") ++ object 1 model
        ++ object 2 release) e) ∧
    exec (.encapsulatedInterfaceTransport dt unit 0x0E 4 1) s =
      .next (MbQueued unit ([0x2B, 0x0E, 4, 0x81, 0, 0, 1] ++ object 1 model) e) ∧
    exec (.modbusBadFrame dt true) s =
      .next { a with field := { a.field with mbCrcErr := min (a.field.mbCrcErr + 1) 0xFFFFFFFF } } ∧
    exec (.modbusBadFrame dt false) s = .next a ∧
    (∀ other : Byte, other ≠ unit → other ≠ 0 → ∀ m n d,
      exec (.readInputRegisters dt other m n) s = .next a ∧ exec (.readHoldingRegisters dt other m n) s = .next a ∧
      exec (.writeSingleRegister dt other m n) s = .next a ∧ exec (.diagnostics dt other m d) s = .next a) ∧
    (∀ m n d, exec (.readInputRegisters dt 0 m n) s = .next a ∧ exec (.readHoldingRegisters dt 0 m n) s = .next a ∧
      exec (.diagnostics dt 0 m d) s = .next a ∧
      exec (.writeSingleRegister dt 0 0 n) s = .next { e with field := { e.field with paramId := n.toNat } }) ∧
    (∀ (u : Byte) (x y : BitVec 16), let w := { s with field := { s.field with fdeFrom := 0, fdeTo := now (elapse dt s) + 1 } }
      exec (.writeSingleRegister dt u x y) w = .next (elapse dt w))

/-- Every Modbus frame is answered as its rules say. -/
def Obligations.ModbusFramesAnswer : Prop := ModbusReads ∧ ModbusWrites ∧ ModbusServices

/-- In NMEA mode, once FP_TURN has passed and no transmission runs, the battery sentence of Bank A leaves when NMEA_PERIOD has
passed, Bank B's after it where it is present, both only after the alarm sentences that are due; an alarm sentence leaves at
the onset of an alarm, every NMEA_ALM_REP while it lasts and once at its clearance (11 R264, R270, R271). -/
def Obligations.NmeaSentencesLeave : Prop :=
  ∀ (dt : Nat) (s : State), live s = true → Serving (elapse dt s) → (elapse dt s).field.proto = 2 →
    let r := elapse dt s
    (r.field.rxAt + charTicks r (prm r 0x0814) ≤ now r ∧ r.field.fdeTo ≤ now r →
    ((∃ c, (alarmMark r c).isSome = true) → exec (.nmeaBatterySentence dt) s = .next r) ∧
    ((∀ c, alarmMark r c = none) →
    (r.field.nmeaBankB = false → 1 ≤ prm r 0x0816 → r.field.nmeaAt + secTicks (prm r 0x0816) ≤ now r →
      ∃ k, k ≤ now r ∧ now r < k + secTicks (prm r 0x0816) ∧
        exec (.nmeaBatterySentence dt) s =
          .next (Sends (psvyb r .a) { r with field := { r.field with nmeaAt := k, nmeaBankB := bbPresent r } })) ∧
    (r.field.nmeaBankB = true →
      exec (.nmeaBatterySentence dt) s =
        .next (Sends (psvyb r .b) { r with field := { r.field with nmeaBankB := false } })) ∧
    (r.field.nmeaBankB = false → now r < r.field.nmeaAt + secTicks (prm r 0x0816) →
      exec (.nmeaBatterySentence dt) s = .next r)) ∧
    ∀ c : AlarmCode,
      let text (mark : String) : List Byte := nmeaSentence (commas
        [ascii "PSVYA", nmeaTime r, hexText 8 (prm r 0x0101), alarmText c, ascii mark])
      (alarmOn r c = true → (∀ x ∈ r.field.nmeaAct, x.1 ≠ c) →
        exec (.nmeaAlarmSentence dt c) s =
          .next (Sends (text "A") { r with field := { r.field with nmeaAct := r.field.nmeaAct ++ [(c, now r)] } })) ∧
      (∀ x, alarmOn r c = true → r.field.nmeaAct.find? (fun x => x.1 == c) = some x →
        (x.2 + secTicks (prm r 0x0817) ≤ now r →
          exec (.nmeaAlarmSentence dt c) s =
            .next (Sends (text "A") { r with field := { r.field with
              nmeaAct := (r.field.nmeaAct.filter fun x => x.1 != c) ++ [(c, now r)] } })) ∧
        (now r < x.2 + secTicks (prm r 0x0817) → exec (.nmeaAlarmSentence dt c) s = .next r)) ∧
      (alarmOn r c = false → (∃ x ∈ r.field.nmeaAct, x.1 = c) →
        exec (.nmeaAlarmSentence dt c) s =
          .next (Sends (text "C")
            { r with field := { r.field with nmeaAct := r.field.nmeaAct.filter fun x => x.1 != c } })) ∧
      (alarmOn r c = false → (∀ x ∈ r.field.nmeaAct, x.1 ≠ c) → exec (.nmeaAlarmSentence dt c) s = .next r)) ∧
    (now r < r.field.rxAt + charTicks r (prm r 0x0814) ∨ now r < r.field.fdeTo →
      exec (.nmeaBatterySentence dt) s = .next r ∧ ∀ c, exec (.nmeaAlarmSentence dt c) s = .next r)

/-! ## SDI-12 (11_host_field_ports.md R272, R273) -/

/-- The SDI-12 interface hears a command that arrives `dt` edges from now: no response is on the line. -/
def ServesSdi (dt : Nat) (s : State) : Prop :=
  live s = true ∧ Serving (elapse dt s) ∧ prm (elapse dt s) 0x0831 = 1 ∧ gp2 (sdiLapse (elapse dt s)) = false

/-- The state in which a command that is heard acts: a response that was due has been given, and none waits. -/
def SdiHeard (dt : Nat) (s : State) : State :=
  let t := sdiLapse (elapse dt s)
  entryTouch .sdi { t with field := { t.field with sdiWait := none } }

/-- The state with an SDI-12 response, ended by carriage return and line feed: GP2 is high from now on, one bit time before the
first start bit, until one bit time after the last stop bit, at 1200 baud and ten bits to a character (17 R402). -/
def SdiSaid (b : List Byte) (t : State) : State :=
  { t with field := { t.field with
    sdiOut := b ++ [0x0D, 0x0A], sdiFrom := now t, sdiTo := now t + (10 * (b.length + 2) + 2) * 20480 / 3, sdiWait := none } }

/-- The state with values prepared for aD0. -/
def SdiPrepared (vals : List (Option Rat)) (crc : Bool) (t : State) : State :=
  { t with field := { t.field with sdiVals := some ((vals.map sdiVal).flatten, crc) } }

/-- A measurement command builds a GAUGE_READ at its edge, prepares the values of that edge and answers the address, the time
000 and the count; where the request is refused every value reads as not available (03 R55; assumption log 139). -/
def SdiMeasures (c : Instr) (s e : State) (count : List Byte) (crc : Bool) (vals : List (Option Rat)) : Prop :=
  let p : Pkt := ⟨.sdi, sdiTag e, 0, 0, []⟩
  let t := submitNow .gaugeRead p { e with sprue := { e.sprue with answer := none } }
  let tells (l : List (Option Rat)) : Prop := exec c s = .next (SdiSaid ([sdiAddr t, 0x30, 0x30, 0x30] ++ count) (SdiPrepared l crc t))
  (∀ a, t.sprue.answer = some a → a.status ≠ stOk → a.status ≠ stAccepted → tells (vals.map fun _ => none)) ∧
  ((∀ a, t.sprue.answer = some a → a.status = stOk ∨ a.status = stAccepted) → tells vals) ∧
  (AdmitsNow p e → Passes .gaugeRead p e → e.field.sdiOp = none →
    (∃ a, t.sprue.answer = some a ∧ a.status = stOk) ∧ t = { e with pwr := t.pwr, host := t.host, field := t.field, sprue := t.sprue })

/-- The measurement commands of SDI-12 prepare their values and answer the address, the time 000 and the count in one
digit for aM and aV, two for aC, three for aHA, as GAUGE_READs at their edge, which is this model's choice (assumption log
139); aD0 answers the prepared values, with the CRC where it was asked for; a! and ?! answer the address, aI! the
identification; a command to another address is ignored, and while a response is on the line nothing is heard (11 R272; 17
R402). That a response begins at its command's instant is this model's choice (assumption log 138). -/
def SdiMeasurementsAnswer : Prop :=
  ∀ (dt : Nat) (a : Byte) (m : SdiMeas) (s : State), ServesSdi dt s →
    let e := SdiHeard dt s
    (sdiAddr e = a →
      exec (.sdiAddressQuery dt) s = .next (SdiSaid [a] e) ∧
      exec (.sdiAcknowledgeActive dt a) s = .next (SdiSaid [a] e) ∧
      exec (.sdiSendIdentification dt a) s =
        .next (SdiSaid (a :: (if Config.variantQX then ascii "14SVETYEN MG16QX031" else ascii "14SVETYEN MG16QA031")
          ++ hexText 8 (prm e 0x0101)) e) ∧
      (sdiSet e m.set.val).length = 4 ∧
      SdiMeasures (.sdiStartMeasurement dt a m) s e [0x34] m.crc (sdiSet e m.set.val) ∧
      SdiMeasures (.sdiStartConcurrent dt a m) s e [0x30, 0x34] m.crc (sdiSet e m.set.val) ∧
      SdiMeasures (.sdiVerify dt a) s e [0x32] false
        [some (e.start.stage.code : Nat), some ((protStat e % 256 : Nat) : Rat)] ∧
      SdiMeasures (.sdiHighVolumeAscii dt a) s e (decFixed 3 (series e + 2)) true (sdiHighVolume e) ∧
      (∀ b crc, e.field.sdiVals = some (b, crc) →
        exec (.sdiSendData dt a) s = .next (SdiSaid (a :: b ++ if crc then sdiCrc (a :: b) else []) e)) ∧
      (e.field.sdiVals = none → exec (.sdiSendData dt a) s = .next (SdiSaid [a] e))) ∧
    (sdiAddr e ≠ a → ∀ (b : Byte) (hex : List Byte) (x : SdiMeta) (k : Option Nat),
      exec (.sdiAcknowledgeActive dt a) s = .next e ∧ exec (.sdiSendIdentification dt a) s = .next e ∧
      exec (.sdiChangeAddress dt a b) s = .next e ∧ exec (.sdiStartMeasurement dt a m) s = .next e ∧
      exec (.sdiStartConcurrent dt a m) s = .next e ∧ exec (.sdiSendData dt a) s = .next e ∧
      exec (.sdiVerify dt a) s = .next e ∧ exec (.sdiHighVolumeAscii dt a) s = .next e ∧
      exec (.sdiMetadata dt a x k) s = .next e ∧ exec (.sdiExtendedSprue dt a hex) s = .next e ∧
      exec (.sdiExtendedNext dt a) s = .next e)

/-- While GP2 is high FSDI is an output, and no command is heard (17 R402). -/
def SdiDeafWhileAnswering : Prop :=
  ∀ (dt : Nat) (a : Byte) (s : State), live s = true → Serving (elapse dt s) → prm (elapse dt s) 0x0831 = 1 →
    let t := sdiLapse (elapse dt s)
    gp2 t = true →
    exec (.sdiAddressQuery dt) s = .next t ∧ exec (.sdiAcknowledgeActive dt a) s = .next t ∧
      exec (.sdiSendData dt a) s = .next t ∧ exec (.sdiUnsupportedCommand dt) s = .next t

/-- aAb! sets SDI_ADDR and commits it, and where the SET is refused the address stays; a metadata command answers as its
measurement would, or names one value; aXS delivers its request with origin 0x6, whose reply is awaited for 14 ms, and a PING
that nothing holds back answers the first 35 bytes of its reply at once; aXN answers the next 35, the address alone where none
remain, and what waits for the reply follows its last byte; a request with an odd count of digits, another character or more
than 32 bytes and an unsupported command get no response and are counted (03 R59; 11 R272, R273). That the metadata of a
value out of range gets none is this model's choice (assumption log 65). -/
def SdiRequestsAct : Prop :=
  ∀ (dt : Nat) (a : Byte) (s : State), ServesSdi dt s → sdiAddr (SdiHeard dt s) = a →
    let e := SdiHeard dt s
    let silent : State := { e with field := { e.field with sdiNoResp := min (e.field.sdiNoResp + 1) 0xFFFFFFFF } }
    let hexes (b : List Byte) : List Byte := (b.map fun x => hexText 2 x.toNat).flatten
    (∀ new : Byte, let p : Pkt := ⟨.sdi, sdiTag e, 0, 0x0830, [new]⟩
      AdmitsNow p e → e.field.sdiOp = none →
        (Passes .set p e → ∃ t, exec (.sdiChangeAddress dt a new) s = .next t ∧
          t.field.sdiOut = [sdiAddr t, 0x0D, 0x0A] ∧ (∃ x ∈ t.par.pending, x.id = 0x0830 ∧ x.value = [new]) ∧
          t.tmr = e.tmr ∧ t.afe = e.afe ∧ t.sar = e.sar ∧ t.gauge = e.gauge) ∧
        (¬Passes .set p e → ∃ t, exec (.sdiChangeAddress dt a new) s = .next t ∧
          t.field.sdiOut = [a, 0x0D, 0x0A] ∧ t.par = e.par ∧ t.nv = e.nv ∧ t.tmr = e.tmr ∧ t.gauge = e.gauge)) ∧
    (∀ m : SdiMeas,
      exec (.sdiMetadata dt a (.measurement m) none) s = .next (SdiSaid [a, 0x30, 0x30, 0x30, 0x34] e) ∧
      exec (.sdiMetadata dt a (.concurrent m) none) s = .next (SdiSaid [a, 0x30, 0x30, 0x30, 0x30, 0x34] e) ∧
      (∀ k, 1 ≤ k → k ≤ 4 → let b := [a, 0x2C] ++ Config.sdiMeta m.set.val k ++ [0x3B]
        exec (.sdiMetadata dt a (.measurement m) (some k)) s = .next (SdiSaid (b ++ if m.crc then sdiCrc b else []) e) ∧
        exec (.sdiMetadata dt a (.concurrent m) (some k)) s = .next (SdiSaid (b ++ if m.crc then sdiCrc b else []) e)) ∧
      (∀ k, k = 0 ∨ 4 < k → exec (.sdiMetadata dt a (.measurement m) (some k)) s = .next silent ∧
        exec (.sdiMetadata dt a (.concurrent m) (some k)) s = .next silent)) ∧
    exec (.sdiMetadata dt a .verification none) s = .next (SdiSaid [a, 0x30, 0x30, 0x30, 0x32] e) ∧
    exec (.sdiMetadata dt a .highVolume none) s = .next (SdiSaid ([a, 0x30, 0x30, 0x30] ++ decFixed 3 (series e + 2)) e) ∧
    (∀ hex, (unhex hex = none ∨ ∃ b, unhex hex = some b ∧ 32 < b.length) →
      exec (.sdiExtendedSprue dt a hex) s = .next silent) ∧
    (let awaits : State := { e with field := { e.field with
        sdiOp := some e.sprue.nextId, sdiLast := some e.sprue.nextId, sdiReply := none, sdiWait := some (now e + 114688) } }
     ∀ (op : Op) (tag third : Byte) (arg : BitVec 16) (payload hex : List Byte),
      unhex hex = some (packetBytes (BitVec.ofNat 8 (opCode op)) tag third arg payload) → payload.length ≤ 24 →
      let p : Pkt := ⟨.sdi, tag, BitVec.ofNat 4 third.toNat, arg, payload⟩
      exec (.sdiExtendedSprue dt a hex) s = .next (submit op p awaits) ∧
      (op = .ping → Admits p e → Passes .ping p e → flgNoReply p.flg = false →
        let b := replyBytes (answerOf .ping p e stOk payload)
        (submit op p awaits).field.sdiOut = a :: hexes (b.take 35) ++ [0x0D, 0x0A] ∧
        (submit op p awaits).field.sdiReply = some (b.drop 35) ∧ (submit op p awaits).field.sdiWait = none)) ∧
    (e.field.sdiReply = none → exec (.sdiExtendedNext dt a) s = .next (SdiSaid [a] e)) ∧
    (∀ b, e.field.sdiReply = some b →
      let t := SdiSaid (a :: hexes (b.take 35)) { e with field := { e.field with sdiReply := some (b.drop 35) } }
      (35 < b.length ∨ e.field.sdiLast = none → exec (.sdiExtendedNext dt a) s = .next t) ∧
      (∀ i, b.length ≤ 35 → e.field.sdiLast = some i →
        exec (.sdiExtendedNext dt a) s = .next { t with
          field := { t.field with sdiLast := none }
          pwr := { e.pwr with
            deferred := (e.pwr.deferred.map fun d => if d.opId = i then { d with sent := some t.field.sdiTo } else d) } })) ∧
    exec (.sdiUnsupportedCommand dt) s = .next silent

/-- Every SDI-12 command is answered as its rules say. -/
def Obligations.SdiCommandsAnswer : Prop := SdiMeasurementsAnswer ∧ SdiDeafWhileAnswering ∧ SdiRequestsAct

/-! ## Supply, resets and start (05_supply_and_modes.md R105 to R110, 04_staged_start.md R76 to R102) -/

/-- `t` stands at tick 0 of a cold start with a reason: everything has its reset value but the Ingot store, the log and the
evidence, which are kept (04 R76, R77; 05 R107). -/
structure Cold (reason : Nat) (s t : State) : Prop where
  reason  : t.start = { State.reset.start with reason := reason }
  clk     : t.clk = State.reset.clk
  tmr     : t.tmr = State.reset.tmr
  front   : t.afe = State.reset.afe ∧ t.cqa = State.reset.cqa ∧ t.cqb = State.reset.cqb
  models  : t.glint = State.reset.glint ∧ t.alm = State.reset.alm ∧ t.anneal = State.reset.anneal ∧ t.pol = State.reset.pol
  par     : t.par = State.reset.par
  sar     : t.sar = State.reset.sar
  gauge   : t.gauge = State.reset.gauge
  sec     : t.sec = State.reset.sec
  ports   : t.host = State.reset.host ∧ t.field = State.reset.field ∧ t.link = State.reset.link
  quiet   : Quiet t
  log     : t.tamp = { State.reset.tamp with log := s.tamp.log, logNext := s.tamp.logNext, evid := s.tamp.evid }
  store   : t.nv.mapA = s.nv.mapA ∧ t.nv.mapB = s.nv.mapB ∧ t.nv.sectors = s.nv.sectors ∧ t.nv.keyArea = s.nv.keyArea ∧ t.nv.marks = s.nv.marks ∧ t.nv.patch = s.nv.patch
  dropped : t.nv.queue = [] ∧ t.nv.jobs = [] ∧ t.nv.held = []
  pending : t.pending = s.pending

/-- POWER_ON, NRST and BOR lead to a cold start of their reason, which begins when both VREG stands and NRST is high; until
then the logic is held (04 R76, R82; 05 R107). -/
def ResetsStartCold : Prop :=
  ∀ (dt : Nat) (s : State),
    (s.pwr.powered = true → exec .powerOn s = .next s) ∧
    (s.pwr.powered = false → s.pwr.nrstLow = true →
      exec .powerOn s = .next { s with pwr := { s.pwr with powered := true } }) ∧
    (s.pwr.powered = false → s.pwr.nrstLow = false → ∃ t, exec .powerOn s = .next t ∧ Cold 1 s t ∧ live t = true) ∧
    (live s = true →
      ∃ t, exec (.nrstAssert dt) s = .next t ∧ Cold 2 (elapse dt s) t ∧ t.pwr.nrstLow = true ∧ live t = false) ∧
    (s.pwr.powered = true → s.pwr.nrstLow = true →
      ∃ t, exec (.nrstRelease dt) s = .next t ∧ Cold s.start.reason s t ∧ live t = true) ∧
    (live s = true → let r := elapse dt s
      ∃ t, exec (.bor dt) s = .next t ∧ Cold 1 r t ∧ live t = false ∧ t.capStamp = 0 ∧
        t.pwr = { Pwr.reset with
          powered := false, nrstLow := r.pwr.nrstLow, vddioOk := r.pwr.vddioOk, vddioMin := r.pwr.vddioMin })

/-- VDDIO_OK follows the pad supply at 1.62 V; a step of the supply ladder below the lowest so far becomes VMIN_STEP once
the comparator is clocked (05 R103, R105, R108). -/
def SupplyLevelsShow : Prop :=
  ∀ (dt mv : Nat) (step : Fin 8) (s : State), live s = true →
    let r := elapse dt s
    exec (.vddioChange dt mv) s =
      .next { r with pwr := { r.pwr with vddioOk := decide (1620 ≤ mv), vddioMin := decide (1800 ≤ mv) } } ∧
    (r.clk.fllLock = true →
      exec (.supplyLadderStep dt step) s = .next { r with pwr := { r.pwr with vminStep := max r.pwr.vminStep step.val } }) ∧
    (r.clk.fllLock = false → exec (.supplyLadderStep dt step) s = .next r)

/-- The supply pins and the reset sources act as their rules say. -/
def Obligations.SupplyAndResets : Prop := ResetsStartCold ∧ SupplyLevelsShow

/-- BOW asserts at a CBM edge, the second since the comparator was clocked or BOW last released: it is counted, stamped and
logged; the transmitter stops, a depassivation pulse ends, and every queued transaction waits for its retry. It releases at
an AON edge, the eighth since it asserted or later: the queue fills again from what waited, and a start that BOW held back
starts Lode. Before those edges only time passes (05 R106, R108 to R110; 04 R79; 10 R248). -/
def Obligations.BrownOutWarning : Prop :=
  ∀ (dt : Nat) (s : State), live s = true →
    (let r := elapseTo (upCbm (now (elapse dt s))) (elapse dt s)
     (r.clk.fllLock = false ∨ r.pwr.bow = true ∨ cbmCount (now r) < cbmCount r.pwr.bowOffAt + 2 →
      exec (.bowAssert dt) s = .next r) ∧
     (Quiet r → r.clk.fllLock = true → r.pwr.bow = false → cbmCount r.pwr.bowOffAt + 2 ≤ cbmCount (now r) →
      r.tamp.logWait.length < 32 →
      ∃ t, exec (.bowAssert dt) s = .next t ∧ t.pwr.bow = true ∧ t.pwr.bowSeen = true ∧
        t.pwr.bowCount = min (r.pwr.bowCount + 1) 65535 ∧ t.pwr.bowAt = now r ∧ t.link.sending = none ∧
        t.link.txEnd = none ∧ t.pol.dpas = false ∧ (∀ x ∈ t.nv.queue, x.bowRetry = true) ∧
        ((∀ x ∈ r.nv.jobs.filterMap Job.txn, x.bowRetry = false) →
          (∃ e ∈ t.tamp.logWait, e.typ = 0x07 ∧ e.stamp = now r) ∧ t.par = r.par) ∧
        t.tmr.base = r.tmr.base ∧ t.sar = r.sar ∧ t.gauge = r.gauge ∧ t.sec = r.sec)) ∧
    (let r := elapseTo (upAon (now (elapse dt s))) (elapse dt s)
     (r.pwr.bow = false ∨ now r / 250 < r.pwr.bowAt / 250 + 8 → exec (.bowRelease dt) s = .next r) ∧
     (Quiet r → r.pwr.bow = true → r.pwr.bowAt / 250 + 8 ≤ now r / 250 →
      ∃ t, exec (.bowRelease dt) s = .next t ∧ t.pwr.bow = false ∧ t.pwr.bowOffAt = now r ∧
        t.nv.queue = r.nv.queue ++ r.nv.held.take (8 - r.nv.queue.length) ∧
        t.nv.held = r.nv.held.drop (8 - r.nv.queue.length) ∧
        (r.start.emberDone = true → r.clk.lode = .off → r.clk.lockTry = 0 → r.start.stage = .ember → r.pwr.mode = .run →
          r.start.romFails = 0 → t.clk = { r.clk with lode := .locking, lodeStart := now r }) ∧
        (r.clk.lode = .on → t.clk = r.clk ∧ t.sar = r.sar) ∧
        t.tmr = r.tmr ∧ t.par = r.par ∧ t.sar = { r.sar with refRdy := t.sar.refRdy } ∧ t.gauge = r.gauge ∧ t.sec = r.sec))

/-- The FLL locks at AON tick 16, and from there the modulators run and the comparators are clocked; Ember ends at AON tick 49: HSEL is latched, read as 0
below the minimum of VDDIO, and Lode starts unless BOW holds it back. A start of Lode that has not locked within 13 AON
ticks has failed; the third failure sets start fault 0x1. After LODE_LOCK the epoch is the next SLOW edge; a lock that comes
later than the attempt may last is none (04 R78 to R80, R101; 02 R38). -/
def Obligations.EmberStartsLode : Prop :=
  ∀ (dt : Nat) (pin : Bool) (s : State), live s = true →
    (s.start.stage = .ember → s.clk.fllLock = false →
      let w := elapseTo 4000 s
      exec .fllLock s =
        .next { w with
          clk := { w.clk with fllLock := true }
          pwr := { w.pwr with bowOffAt := now w }
          afe := { w.afe with
            ocA := { w.afe.ocA with atDsg := now w, atChg := now w, atSc := now w }
            ocB := { w.afe.ocB with atDsg := now w, atChg := now w, atSc := now w } }
          cqa := { w.cqa with modRun := true, tallyAt := now w, edge := cbmCount (now w) }
          cqb := { w.cqb with modRun := true, tallyAt := now w, edge := cbmCount (now w) } }) ∧
    (s.clk.fllLock = true → s.start.emberDone = false →
      let w := elapseTo 12250 s
      let u := { w with start := { w.start with hsel := pin && w.pwr.vddioMin, emberDone := true } }
      (w.pwr.bow = false →
        exec (.emberComplete pin) s = .next { u with
          clk := { u.clk with lode := .locking, lodeStart := now w }, sar := { u.sar with refRdy := false } }) ∧
      (w.pwr.bow = true → exec (.emberComplete pin) s = .next u)) ∧
    (s.pwr.mode = .run → s.start.romFails < 2 → s.clk.lode = .locking →
      let w := elapseTo (s.clk.lodeStart + 13 * 250) s
      (s.clk.lockTry < 2 →
        exec .lodeLockRetry s = .next { w with clk := { w.clk with lode := .off, lockTry := s.clk.lockTry + 1 } }) ∧
      (s.clk.lockTry = 2 → ∃ t, exec .lodeLockRetry s = .next t ∧
        t = { w with
          clk := { w.clk with lode := .off, lockTry := 3 }, start := { w.start with fault := 1 }, tamp := t.tamp }) ∧
      (s.clk.lockTry = 3 → exec .lodeLockRetry s = .next { w with clk := { w.clk with lode := .off, lockTry := 3 } })) ∧
    (s.pwr.mode = .run → s.start.romFails < 2 → s.clk.lode = .off → 0 < s.clk.lockTry → s.clk.lockTry ≤ 3 →
      let w := elapseTo
        (if s.clk.lockTry < 3 then upSlow (s.clk.lodeStart + 13 * 250 + 1) else s.clk.lodeStart + 32768 * 250) s
      exec .lodeLockRetry s = .next { w with
        clk := { w.clk with lode := .locking, lodeStart := now w }, sar := { w.sar with refRdy := false } }) ∧
    (let r := elapse dt s
     let w := elapseTo (upSlow (now r)) r
     (r.clk.lode ≠ .locking ∨ r.clk.lodeStart + 3250 < now r → exec (.lodeEpoch dt) s = .next r) ∧
     (r.clk.lode = .locking → now r ≤ r.clk.lodeStart + 3250 → atLeast w .pour = false →
      ∃ t, exec (.lodeEpoch dt) s = .next t ∧
        t.clk = { w.clk with lode := .on, epochs := min (w.clk.epochs + 1) 65535 } ∧
        t.tmr = { w.tmr with epoch := now w } ∧ t.start = { w.start with fault := if w.start.fault = 1 then 0 else w.start.fault } ∧
        t = { w with clk := t.clk, tmr := t.tmr, start := t.start, tamp := t.tamp }))

/-- With Lode on in Ember: a matching ROM digest releases the Forge cores and their watchdogs, a first mismatch is tried again
and a second stops Lode at the next SLOW edge with start fault 0x2; a blank patch area installs none, a good one its version,
a bad one none with start fault 0x3, and the Melt Routine sequence is due; with the patch checked and both filters settled
Melt is reached (01 R19; 02 R38; 04 R85 to R90). The entries of that sequence are this model's choice (assumption log 133). -/
def Obligations.BootReachesMelt : Prop :=
  ∀ (dt : Nat) (s : State), live s = true → let r := elapse dt s
    booting r = true →
    (r.start.released = false →
      exec (.romDigestCheck dt true) s = .next { r with
        start := { r.start with released := true }, tmr := { r.tmr with wdA := 0, wdB := 0 } } ∧
      (r.start.romFails = 0 → exec (.romDigestCheck dt false) s = .next { r with start := { r.start with romFails := 1 } }) ∧
      (r.start.romFails = 1 → r.pwr.mode = .run → ∃ t, exec (.romDigestCheck dt false) s = .next t ∧
        t.clk = { r.clk with lode := .off } ∧ t.start = { r.start with romFails := 2, fault := 2 } ∧
        t.tmr.base = edgeFor r (upSlow (now r)) ∧ t.par = r.par ∧ t.sec = r.sec ∧ t.nv = r.nv)) ∧
    (r.start.released = true → r.start.patchDone = false →
      let m := { r with sar := { r.sar with routFw := meltRoutine r, routDue := some (now r) } }
      (patchAt r 0 = 0xFFFFFFFF#32 →
        exec (.patchVerify dt) s = .next { m with start := { r.start with patchDone := true, patchVer := 0 } }) ∧
      (patchAt r 0 ≠ 0xFFFFFFFF#32 →
        match patchCause r with
        | none => exec (.patchVerify dt) s =
            .next { m with start := { r.start with patchDone := true, patchVer := (patchAt r 1).toNat % 65536 } }
        | some _ => ∃ t, exec (.patchVerify dt) s = .next t ∧
            t = { m with start := { r.start with patchDone := true, patchVer := 0, fault := 3 }, tamp := t.tamp })) ∧
    (r.start.patchDone = true → r.cqa.settle = 0 → r.cqb.settle = 0 →
      exec (.meltReached dt) s = .next { r with start := { r.start with stage := .melt } }) ∧
    (r.start.patchDone = false ∨ r.cqa.settle ≠ 0 ∨ r.cqb.settle ≠ 0 → exec (.meltReached dt) s = .next r)

/-- Pour is reached by POUR and, with a warm reason, by WARM_START, whatever a tamper event does to the unwrapping of the keys:
the stage is Pour, a copy of the retained block and the configuration image stand written, the Ember limits end, the model
steps a second later, a Routine pass is due, and nothing is in flight; a warm start with a valid copy of the block and a good
image keeps the committed values and the pending ones without their marks (04 R88, R89, R93, R96, R98, R100). -/
def Obligations.PourIsReached : Prop :=
  ∀ (dt : Nat) (bits : Bits) (crc : Crcs) (hit : Option UnwrapHit) (s : State), live s = true → let r := elapse dt s
    Quiet r → r.clk.lode = .on → r.clk.halt = false → r.start.stage = .melt →
    let poured (c : Instr) : Prop := ∃ t, exec c s = .next t ∧
      t.start.stage = .pour ∧ (0 < t.start.retA.seq ∨ 0 < t.start.retB.seq) ∧ t.start.imgWhole = true ∧
      t.start.reason = r.start.reason ∧ t.afe.emberLim = false ∧
      t.sar.routDue = some (now r) ∧ t.tmr.cmp[4].target = now r + 8192000 ∧ t.tmr.cmp[4].mode = 0x13 ∧ Quiet t ∧
      (4 ≤ r.start.reason → (retNewest crc r).isSome = true → imageGood crc r = true →
        t.par.committed = r.par.committed ∧ t.par.pending = r.par.pending.map fun e => { e with mark := none })
    poured (.pour dt bits crc hit) ∧ (4 ≤ r.start.reason → poured (.warmStart dt bits crc hit)) ∧
    (r.start.reason ≤ 3 → exec (.warmStart dt bits crc hit) s = .next r)

/-- Two windows of the crystal monitor are bad: each holds fewer than 6 or more than 10 edges (02 R41). -/
def CrystalBad (w1 w2 : Nat) : Prop := (w1 < 6 ∨ 10 < w1) ∧ (w2 < 6 ∨ 10 < w2)

/-- Two bad windows in a row take AON to the LFRC with XTAL_FAIL, and on the LFRC they end the crystal's qualification; other
windows do nothing. A crystal that has not qualified 10 s after the start counts as failed too; on the LFRC 65 536 good
cycles qualify it. In coarse counting the LFRC cycles since the last crystal edge are supplied, in fine counting none, as the
PLL's edges have gone on (assumption log 125 deduces it) (02 R41, R43; 04 R78). -/
def CrystalEventsAct : Prop :=
  ∀ (dt w1 w2 n : Nat) (s : State), live s = true →
    let r := elapse dt s
    (¬CrystalBad w1 w2 → exec (.crystalFailure dt w1 w2 n) s = .next r) ∧
    (r.clk.onLfrc = true → exec (.crystalQualified dt) s = .next { r with clk := { r.clk with xtalQual := true } } ∧
      (CrystalBad w1 w2 →
        exec (.crystalFailure dt w1 w2 n) s = .next { r with clk := { r.clk with xtalQual := false } })) ∧
    (r.clk.onLfrc = false → exec (.crystalQualified dt) s = .next r) ∧
    (let w := if tmrRuns r = true then r else elapseTo (now r + 250 * n) r
     r.clk.onLfrc = false → CrystalBad w1 w2 → Quiet w →
      ∃ t, exec (.crystalFailure dt w1 w2 n) s = .next t ∧
        t.clk.onLfrc = true ∧ t.clk.xtalFail = true ∧ t.clk.xtalQual = false ∧
        t.tmr.base = w.tmr.base ∧ t.par = w.par) ∧
    (s.clk.napDue = true → s.clk.onLfrc = true → s.clk.xtalQual = false → Quiet (elapseTo 81920000 s) →
      ∃ t, exec .crystalQualifyTimeout s = .next t ∧
        t.clk.onLfrc = true ∧ t.clk.xtalFail = true ∧ t.clk.xtalQual = false ∧ t.clk.napDue = false)

/-- A loss of lock is flagged and takes the part back to Melt with reason 0x6, a watchdog that has counted 65 536 AON ticks
with reason 0x5; the committed parameters stay, and the base but where AON returns to a qualified crystal, for which Lode
stops at the next SLOW edge (01 R19; 02 R38, R43, R44). That Lode starts again at the instant of the loss or stop is this
model's choice (assumption log 126). -/
def LossOfLockAndWatchdogReset : Prop :=
  ∀ (dt : Nat) (core : Core) (s : State), live s = true →
    (let r := elapse dt s
     (r.clk.lode = .on →
      ∃ t, exec (.lodeUnlock dt) s = .next t ∧ t.clk.lodeUnlock = true ∧ t.clk.lode = .locking ∧ t.start.stage = .ember ∧
        t.start.reason = 6 ∧ t.start.warmCount = min (r.start.warmCount + 1) 65535 ∧ Quiet t ∧
        t.tmr.base = r.tmr.base ∧ t.par.committed = r.par.committed) ∧
     (r.clk.lode ≠ .on → exec (.lodeUnlock dt) s = .next r)) ∧
    (let w := elapseTo (upAon (now (elapse dt s))) (elapse dt s)
     (w.clk.lode = .on → w.clk.halt = false → w.start.released = true → 65536 ≤ wdCount core w →
      ∃ t, exec (.coreWatchdog dt core) s = .next t ∧ t.start.stage = .ember ∧ t.start.reason = 5 ∧ t.start.released = false ∧
        t.start.warmCount = min (w.start.warmCount + 1) 65535 ∧ Quiet t ∧ t.par.committed = w.par.committed ∧
        (w.clk.onLfrc = false ∨ w.clk.xtalQual = false → t.tmr.base = w.tmr.base ∧ t.clk.lode = .on) ∧
        (w.clk.onLfrc = true → w.clk.xtalQual = true →
          t.tmr.base = upSlow (now w) ∧ t.clk.lode = .locking ∧ t.clk.lodeStart = now t ∧ t.clk.onLfrc = false)) ∧
     (w.clk.lode ≠ .on ∨ w.clk.halt = true ∨ w.start.released = false ∨ wdCount core w < 65536 →
      exec (.coreWatchdog dt core) s = .next w))

/-- The events of the clocks and the watchdogs act as their rules say. -/
def Obligations.ClockEventsAct : Prop := CrystalEventsAct ∧ LossOfLockAndWatchdogReset

/-- A debug access is answered with its status in LAST: a read of words of one block returns them without a side effect; an
access to all but the ID words below OPEN or before Pour is refused with LOCKED, one that is misaligned, outside the blocks,
in CRUC or across the end of a block with BADARG; a refused one reads 0 and changes nothing else. A 1 written to HALT halts
the part, a 0 lets it go on at the next AON edge (01 R411; 02 R37, R40; 16 R385). -/
def Obligations.DebugPortActs : Prop :=
  ∀ (dt : Nat) (a : Word) (op : DebugOp) (s : State), live s = true →
    let r := elapse dt s
    let off := a.toNat % 0x10000
    let ended (status : Nat) (out : List Word) : State :=
      { r with clk := { r.clk with dbgLast := status, dbgOut := out, attachedAt := some (now r) } }
    let zeros : List Word := match op with | .read n => List.replicate n 0 | .write _ => []
    let idRead : Prop := op = .read 1 ∧ (a = 0x400F0000#32 ∨ a = 0x400F0014#32)
    r.clk.lode = .on → r.pwr.vddioOk = true →
    (∀ b n, blockOf a.toNat = some b → b ≠ 0xC → a.toNat % 4 = 0 → off + 4 * n ≤ 0x10000 → r.sec.lock = .opened →
      2 ≤ r.start.stage.code →
      exec (.debugAccess dt a (.read n)) s =
        .next (ended 0 ((List.range n).map fun i => BitVec.ofNat 32 (regRead r b (off + 4 * i))))) ∧
    (idRead → exec (.debugAccess dt a op) s = .next (ended 0 [BitVec.ofNat 32 (regRead r 0xF off)])) ∧
    (¬idRead → r.sec.lock ≠ .opened ∨ r.start.stage.code < 2 → exec (.debugAccess dt a op) s = .next (ended 1 zeros)) ∧
    (¬idRead → r.sec.lock = .opened → 2 ≤ r.start.stage.code →
      blockOf a.toNat = none ∨ blockOf a.toNat = some 0xC ∨ a.toNat % 4 ≠ 0 ∨ 0x10000 < off + 4 * debugWords op →
      exec (.debugAccess dt a op) s = .next (ended 2 zeros)) ∧
    (r.sec.lock = .opened → 2 ≤ r.start.stage.code → Quiet r → r.pwr.mode = .run → r.link.txEnd = none →
      (∀ i : Fin 6, r.sec.ctx[i].dmaEnd = none) →
      (r.clk.halt = false → ∃ t, exec (.debugHalt dt) s = .next t ∧ t.clk.halt = true ∧ t.clk.dbgLast = 0 ∧
        t.clk.lode = .on ∧ t.tmr = r.tmr ∧ t.par = r.par) ∧
      (r.clk.halt = true → ∃ t, exec (.debugResume dt) s = .next t ∧ t.clk.halt = false ∧ t.clk.dbgLast = 0 ∧
        t.clk.lode = .on ∧ t.tmr.base = (now r / 250 + 1) * 250 ∧ t.par = r.par))

/-! ## Power modes (05_supply_and_modes.md R112 to R122, R412; 03_sprue_commands.md R59) -/

/-- At a SLOW edge an idle part decides to enter Doze when every condition of R116 holds and no scheduled event is nearer
than DOZE_MIN; after IDLE_TIME without traffic it decides to enter Watch or Watch-L, as IDLE_SLEEP says. A handover nap is
an entry to Watch that wakes at once (05 R116, R117; 04 R78). -/
def IdlePartDecidesToSleep : Prop :=
  ∀ (dt : Nat) (bits : Bits) (s : State), live s = true →
    (let w := elapseTo (upSlow (now (elapse dt s))) (elapse dt s)
     (mayDoze w = true → exec (.autoDoze dt) s = .next { w with pwr := { w.pwr with entry := some ⟨.doze, false⟩ } }) ∧
     (mayDoze w = false → exec (.autoDoze dt) s = .next w) ∧
     (mayDoze w = true → prm w 0x0730 = 1 ∧ atLeast w .pour = true ∧ w.clk.lode = .on ∧ w.clk.halt = false ∧
       w.pwr.mode = .run ∧ w.pwr.entry = none ∧ ops w = [] ∧ w.pwr.loadA = false ∧ w.pwr.loadB = false ∧
       w.nv.queue = [] ∧ w.link.txEnd = none ∧
       ∀ t ∈ eventTimes w, now w + msTicks (prm w 0x0731) ≤ t) ∧
     (mayNap w = true → w.link.role ≠ .member → w.link.role ≠ .pole → w.pol.dpas = false →
       ∃ t, exec (.handoverNap dt bits) s = .next t ∧ t.pwr.entry = some ⟨.watch, true⟩ ∧ t.pwr.mode = .run ∧
         t.clk = w.clk ∧ t.tmr = w.tmr ∧ t.sar = w.sar ∧ t.par = w.par)) ∧
    (let w := elapseTo (s.pwr.idleSince + 8192000 * prm s 0x0733) s
     (prm s 0x0732 = 1 ∨ prm s 0x0732 = 2) → 2 ≤ s.start.stage.code → s.clk.lode = .on → s.clk.halt = false →
     s.pwr.mode = .run → s.pwr.entry = none → isMember s = false → s.pwr.loadA = false → s.pwr.loadB = false →
     s.pwr.hold = .none → Quiet s →
     ∃ t, exec .idleSleep s = .next t ∧
       t.pwr.entry = some ⟨if prm s 0x0732 = 1 then .watch else .watchL, false⟩ ∧ t.pwr.mode = .run ∧
       t.clk = w.clk ∧ t.tmr.base = w.tmr.base ∧ t.sar = w.sar ∧ t.par = w.par)

/-- A decided entry completes at a SLOW edge where nothing holds it: Lode stops; Doze keeps the stage and what is in
progress, Watch loses what is not retained and leaves Ember as the stage, with the base and the parameters kept; a handover
nap wakes there and then from the crystal (05 R112, R114, R412; 02 R43; 04 R78). Where something holds it, or a waking
channel has cancelled it meanwhile, only time passes (05 R118). -/
def LowPowerEntryCompletes : Prop :=
  ∀ (dt : Nat) (bits : Bits) (e : Entry) (s : State), live s = true → s.pwr.mode = .run →
    let r := elapse dt s
    let w := elapseTo (upSlow (now r)) r
    (r.pwr.entry = none → exec (.lowPowerEntry dt bits) s = .next r) ∧
    (r.pwr.entry.isSome = true → w.pwr.entry = none → exec (.lowPowerEntry dt bits) s = .next w) ∧
    (w.pwr.entry = some e → (entryReady w = false → exec (.lowPowerEntry dt bits) s = .next w) ∧
    (entryReady w = true →
      (e = ⟨.doze, false⟩ → ∃ t, exec (.lowPowerEntry dt bits) s = .next t ∧
        t.clk = { w.clk with lode := .off } ∧ t.pwr.mode = .doze ∧ t.pwr.entry = none ∧ t.pwr.sleptAt = now w ∧
        t.start = w.start ∧ t.tmr = w.tmr ∧ t.par = w.par ∧ t.sec = w.sec ∧ t.sprue = w.sprue ∧ t.link = w.link) ∧
      (e = ⟨.watch, false⟩ ∨ e = ⟨.watchL, false⟩ → ∃ t, exec (.lowPowerEntry dt bits) s = .next t ∧
        t.clk.lode = .off ∧ t.pwr.mode = e.target ∧ t.pwr.entry = none ∧ t.pwr.sleptAt = now w ∧
        t.start.stage = .ember ∧ t.tmr.base = w.tmr.base ∧ t.tmr.rtcSec = w.tmr.rtcSec ∧ t.par = w.par ∧
        t.sprue.slots = Vector.replicate 8 none ∧ t.nv.queue = []) ∧
      (e = ⟨.watch, true⟩ → w.clk.onLfrc = true → w.clk.xtalQual = true →
        ∀ c, c = Instr.handoverNap dt bits ∨ c = Instr.lowPowerEntry dt bits → ∃ t, exec c s = .next t ∧
        t.clk.lode = .locking ∧ t.clk.onLfrc = false ∧ t.clk.napDue = false ∧ t.pwr.mode = .run ∧ t.pwr.entry = none ∧
        t.start.stage = .ember ∧ t.start.reason = 7)))

/-- An idle part decides to sleep, and a decided entry completes. -/
def Obligations.SleepIsEntered : Prop := IdlePartDecidesToSleep ∧ LowPowerEntryCompletes

/-- What a wake source does by the mode it finds: in Run it cancels a decided entry; from Doze Lode starts and the stage
stays; from Watch and Watch-L the warm path begins with reason 0x7 (05 R118, R119, R121; 04 R98). -/
def Woken (s t : State) : Prop :=
  match s.pwr.mode with
  | .run => t = { s with pwr := { s.pwr with entry := none } }
  | .doze => t = { s with
      clk := { s.clk with lode := .locking, lodeStart := now s, lockTry := 0 }
      pwr := { s.pwr with mode := .run, entry := none } }
  | _ => t = { s with clk := t.clk, pwr := t.pwr, start := t.start } ∧
      t.clk = { s.clk with lode := .locking, lodeStart := now s, lockTry := 0 } ∧ t.pwr.mode = .run ∧ t.pwr.entry = none ∧
      t.start.stage = .ember ∧ t.start.reason = 7 ∧ t.start.startBase = now s ∧ t.start.life = true ∧
      t.start.warmCount = min (s.start.warmCount + 1) 65535

/-- Every wake source that asserts and is enabled wakes the part, one that is not does nothing; WATCH_WAKE minutes after an
entry to Watch the part wakes, and in Doze at the SLOW edge 2 SLOW ticks before a scheduled event. A carrier of 10 ms wakes a
dozing part, in Watch-L one that fills three windows in a row (where the windows open is the model's choice, assumption
log 145), and holds Run for 1 s; a shorter one does nothing, and nothing in Run without a decided entry (05 R116, R118, R119,
R121; 12 R287). -/
def Obligations.WakeSourcesWake : Prop :=
  ∀ (dt len : Nat) (k : WakeSrc) (c : Instr) (s : State), live s = true →
    let r := elapse dt s
    (k ≠ .scheduler → (∀ n, k ≠ .link n) →
      (wakeReal k r = true → ∃ t, exec (.wakeSource dt k) s = .next t ∧ Woken r t) ∧
      (wakeReal k r = false → exec (.wakeSource dt k) s = .next r)) ∧
    (c = .scheduledWake dt ∨ c = .wakeSource dt .scheduler →
      (∀ e, r.pwr.mode = .doze → nextEvent r = some e →
        let w := elapseTo (max ((e - 4000) / 2000 * 2000) (upSlow (now r))) r
        w.pwr.mode = .doze →
          (∀ x, nextEvent w = some x → (x - 4000) / 2000 * 2000 ≤ now w → ∃ t, exec c s = .next t ∧ Woken w t) ∧
          ((∀ x, nextEvent w = some x → now w < (x - 4000) / 2000 * 2000) → exec c s = .next w)) ∧
      (r.pwr.mode ≠ .doze ∨ nextEvent r = none → exec c s = .next r)) ∧
    (let w := elapseTo (upAon (s.pwr.sleptAt + secTicks (60 * prm s 0x0735))) s
     (s.pwr.mode = .watch ∨ s.pwr.mode = .watchL) → prm s 0x0735 ≠ 0 → (w.pwr.mode = .watch ∨ w.pwr.mode = .watchL) →
      ∃ t, exec .periodicWake s = .next t ∧ Woken w t) ∧
    (c = .carrierWake dt len ∨ c = .wakeSource dt (.link len) →
      (∀ at_, (r.pwr.mode = .doze ∧ 81920 ≤ len ∧ at_ = upAon (now r + 81920)) ∨
          (r.pwr.mode = .watchL ∧ at_ ≤ now r + len ∧ at_ = (now r + 63999) / 64000 * 64000 + 136000) →
        let w := elapseTo at_ r
        w.pwr.mode = r.pwr.mode → prm w 0x0901 = 1 → ∃ t u, exec c s = .next t ∧ Woken w u ∧
          t.clk = u.clk ∧ t.start = u.start ∧ t.tmr = w.tmr ∧ t.pwr.mode = .run ∧
          (w.pwr.hold = .none → t.pwr.hold = .until (now w + 8192000))) ∧
      (r.pwr.mode = .doze → len < 81920 → exec c s = .next r) ∧
      (r.pwr.mode = .watch → exec c s = .next r) ∧
      (r.pwr.mode = .run → r.pwr.entry = none → exec c s = .next r))

/-- A hold ends at its time; an action whose reply left its port, or on a port other than the UART was ready 1.000 s ago,
takes effect, and one whose reply still waits does not (03 R59; 13 R333). -/
def Obligations.HoldsAndDeferredActionsEnd : Prop :=
  ∀ (dt : Nat) (s : State), live s = true →
    (∀ t, s.pwr.hold = .until t →
      exec .wakeHoldExpiry s = .next (let w := elapseTo t s; { w with pwr := { w.pwr with hold := .none } })) ∧
    (∀ d : Deferred, let r := elapse dt s
      (∀ i : Fin 8, r.sprue.slots[i] = none) → r.sprue.held = [] → r.sprue.early = [] → r.pwr.deferred = [d] →
      r.clk.lode = .on → r.clk.onLfrc = false →
      (d.left = true ∨ (∃ e, d.sent = some e ∧ e ≤ now r) ∨ (d.origin ≠ .fieldNative ∧ d.ready + 8192000 ≤ now r) →
        ∃ t, exec (.deferredAction dt) s = .next t ∧ t.pwr.deferred = [] ∧
          (d.act = .resetCore ∨ d.act = .rearmReset → t.start.stage = .ember ∧ t.start.reason = 4 ∧ t.tmr.base = r.tmr.base ∧
            t.par.committed = r.par.committed ∧ t.clk.lode = .on) ∧
          (d.act = .resetFull → Cold 3 r t) ∧
          (d.act = .seal → t.sec.lock = .sealed) ∧
          (∀ m, d.act = .sleep m → isMember r = false → t.pwr.entry = some ⟨m, false⟩)) ∧
      (d.left = false → (∀ e, d.sent = some e → now r < e) →
        (d.origin = .fieldNative ∨ now r < d.ready + 8192000) →
        ∃ t, exec (.deferredAction dt) s = .next t ∧ t.pwr.deferred = [d] ∧ t.sec = r.sec ∧ t.start = r.start ∧
          t.pwr.entry = r.pwr.entry))

/-! ## Protection and integrators (06_front_end_integrators.md) -/

/-- A ladder scan is applied 32 AON ticks after it begins, and the next begins 8192 AON ticks later. An OV fault sets after
UVOV_SCANS consecutive scans above CELL_OV and clears below CELL_OV less its hysteresis; a UV fault mirrors it, resolves to
the protective side at its first judgement, and is not judged under the Ember limits, under which OV uses 4450 mV, 50 mV and
one scan; cells above BA_SERIES have no fault (06 R129, R130, R136). -/
def Obligations.LadderScanJudgesCells : Prop :=
  ∀ (x : ScanIn) (s : State), live s = true → s.pwr.mode = .run →
    let w := elapseTo (s.afe.scanAt + 8000) s
    let u := { w with par := w.par.applyMoment .scan }
    let ember := w.afe.emberLim
    let n := if ember then 16 else prm u 0x0201
    let ov := if ember then 4450 else prm u 0x0301
    let ovHys := if ember then 50 else prm u 0x0302
    let scans := if ember then 1 else prm u 0x0305
    let uv := prm u 0x0303
    let uvHys := prm u 0x0304
    ∃ t, exec (.ladderScan x) s = .next t ∧ t.afe.scanAt = s.afe.scanAt + 2048000 ∧ t.afe.uvJudged = !ember ∧
      t.afe.ocA = s.afe.ocA ∧ t.afe.ocB = s.afe.ocB ∧ t.tmr.base = w.tmr.base ∧ t.sar = s.sar ∧ t.gauge = s.gauge ∧
      ∀ i : Fin 16, let mv := x.cells.getD i 0
        (n ≤ i → t.afe.ov[i] = false ∧ t.afe.uv[i] = false) ∧
        (i < n →
          (s.afe.ov[i] = true → t.afe.ov[i] = !decide (mv + ovHys < ov)) ∧
          (s.afe.ov[i] = false → t.afe.ov[i] = decide (ov < mv ∧ scans ≤ min (s.afe.ovCnt[i] + 1) 255)) ∧
          (ember = true → t.afe.uv[i] = false) ∧
          (ember = false → s.afe.uvJudged = false → uv ≤ mv → mv ≤ uv + uvHys → t.afe.uv[i] = true) ∧
          (ember = false → s.afe.uvJudged = true →
            (s.afe.uv[i] = true → t.afe.uv[i] = !decide (uv + uvHys < mv)) ∧
            (s.afe.uv[i] = false → t.afe.uv[i] = decide (mv < uv ∧ scans ≤ min (s.afe.uvCnt[i] + 1) 255))))

/-- An over-current comparator takes one sample at each CBM edge: samples beyond its threshold count on from those that ended
just before them, and at its filter length it trips: the output asserts at the next CBM edge, the hold runs from there, the
trip is counted, and the latch sets at OC_LATCH_N trips within 60 s. A sample at or inside the threshold clears the count.
The end of the hold releases the output and clears the counts. The other bank is untouched (06 R131 to R133). -/
def Obligations.OverCurrentTripsAndReleases : Prop :=
  ∀ (dt n : Nat) (b other : Bank) (c : OcCmp) (uv : Int) (s : State), live s = true → s.pwr.mode = .run → other ≠ b →
    let r := elapse dt s
    let o := ocOf b r
    let edges := 16 * now r / 250 - 16 * o.countedTo c / 250
    let m := min n edges
    let before := if m < edges then 0 else o.cnt c
    (r.cqa.modRun = true → beyond r b c uv = true → 1 ≤ m → filterLen r c ≤ before + m →
      ∃ t, exec (.protectionTrip dt b c uv n) s = .next t ∧ ocOf other t = ocOf other r ∧
        (ocOf b t).count = min (o.count + 1) 255 ∧ (ocOf b t).cnt c = 0 ∧ (ocOf b t).holdChg = (c == .oc1Chg) ∧
        (ocOf b t).holdEnd =
          some ((nextCbm (now r) / 2000 + (limit r 2000 0x0318 * 4096 + 999) / 1000) * 2000) ∧
        (o.holdEnd = none → (ocOf b t).assertAt = nextCbm (now r)) ∧
        (ocOf b t).trips = (o.trips.filter fun t => decide (now r ≤ t + 491520000)) ++ [now r] ∧
        (ocOf b t).latch = (o.latch ||
          (limit r 3 0x0319 != 0 && decide (limit r 3 0x0319 ≤ (ocOf b t).trips.length))) ∧
        t.pwr.entry = none ∧ t.tmr.base = r.tmr.base ∧ t.gauge = r.gauge) ∧
    (r.cqa.modRun = true → beyond r b c uv = true → before + m < filterLen r c →
      ∃ t, exec (.protectionTrip dt b c uv n) s = .next t ∧
        ocOf b t = (o.setCountedTo c (now r)).setCnt c (before + m) ∧ ocOf other t = ocOf other r) ∧
    (r.cqa.modRun = true → beyond r b c uv = false → 1 ≤ m →
      ∃ t, exec (.protectionTrip dt b c uv n) s = .next t ∧ ocOf b t = (o.setCountedTo c (now r)).setCnt c 0 ∧
        ocOf other t = ocOf other r) ∧
    (∀ e, (ocOf b s).holdEnd = some e →
      ∃ t, exec (.protectionHoldEnd b) s = .next t ∧ ocOf other t = ocOf other s ∧
        ocOf b t = { ocOf b s with holdEnd := none, holdChg := false, cntDsg := 0, cntChg := 0, cntSc := 0 } ∧
        t = { elapseTo e s with afe := t.afe, host := t.host })

/-- Output boundaries of an integrator follow each other a window apart. A boundary publishes the mean, held within 24 bits,
once the filter has settled; before that it counts down, and a window or order written since starts the settling anew with
OUT_VALID clear. The tallies take the bits up to the boundary. A published output at or above WAKE_MA restarts idleness,
cancels a decided entry where the load has only now risen, and wakes a dozing part; a calibration of this integrator takes a
published output (05 R117 to R119, R123; 06 R140, R143, R144; 07 R171). -/
def Obligations.IntegratorOutputs : Prop :=
  ∀ (b : Bank) (mean : Int) (bits : Bits) (s : State), live s = true → (cqOf b s).modRun = true →
    let r := elapseTo ((250 * ((cqOf b s).edge + (cqOf b s).actWin) + 15) / 16) s
    let w := addBits bits r
    let q := cqOf b w
    let q1 := { q with edge := q.edge + q.actWin }
    let out := max (-8388608) (min 8388607 mean)
    let loads := decide (prm w 0x0734 * 8388608 * shuntOf b w ≤ out.natAbs * 100000000)
    let same := q.actWin = max 32 (min 1048576 q.win) ∧ q.actOrder = q.order + 1
    let pub := setCq b { q1 with settle := 0, outValid := true, new := true, out := out, lastOut := out } w
    (q.tally = wrap48 ((cqOf b r).tally
        + bitSum (16 * now r / 250 - 16 * (cqOf b r).tallyAt / 250) (match b with | .a => bits.a | .b => bits.b))) ∧
    (w.sar.calRun = false →
      (¬same → exec (.cqOutput b mean bits) s = .next (setCq b { q1 with
        actWin := max 32 (min 1048576 q.win), actOrder := q.order + 1, settle := q.order + 1, outValid := false } w)) ∧
      (same → 2 ≤ q.settle → exec (.cqOutput b mean bits) s = .next (setCq b { q1 with settle := q.settle - 1 } w)) ∧
      (same → q.settle ≤ 1 → w.pwr.mode = .run → ∃ t, exec (.cqOutput b mean bits) s = .next t ∧
        t = { pub with pwr := t.pwr } ∧ loadOf b t = loads ∧
        t.pwr.idleSince = (if loads then now w else w.pwr.idleSince) ∧
        t.pwr.entry = (if loads && !loadOf b w then none else w.pwr.entry)) ∧
      (same → q.settle ≤ 1 → w.pwr.mode = .doze → loads = true → ∃ t, exec (.cqOutput b mean bits) s = .next t ∧
        t.pwr.mode = .run ∧ t.clk.lode = .locking ∧ t.clk.lodeStart = now w ∧ cqOf b t = cqOf b pub)) ∧
    (w.sar.calRun = true → w.sar.calPair = (match b with | .a => 0x30 | .b => 0x31) → w.sar.calCnt < 16 →
      same → q.settle ≤ 1 → ∃ t, exec (.cqOutput b mean bits) s = .next t ∧ cqOf b t = cqOf b pub ∧
        t.sar = { w.sar with calCnt := w.sar.calCnt + 1, calSum := w.sar.calSum + out })

/-! ## SAR (07_sar_and_accumulators.md) -/

/-- The reference sets REF_RDY once it can have settled. A Routine pass that falls due with the reference settled starts at
its first entry, takes the ports' new entries, and sets the time of the next; it waits behind Pollux's half of an interleave
pair. The next conversion of a pass completes at its own edge and takes its calibrated sample into the accumulator and, with
the stamp of its hold edge, into the tracker of its entry; a clipped one raises OVR and the clamp flag instead (07 R147, R148,
R153, R155, R157, R160, R162, R166, R167). -/
def PassesAndConversions : Prop :=
  ∀ (dt : Nat) (s : State), live s = true → (elapse dt s).clk.lode = .on →
    let r := elapse dt s
    let b := { r with par := r.par.applyMoment .pass }
    let tbl := r.sar.routFw ++ r.sar.routNext.getD r.sar.routPort
    (r.sar.refSel ≠ 0 ∨ r.clk.lodeStart + 1475 ≤ now r →
      exec (.referenceSettled dt) s = .next { r with sar := { r.sar with refRdy := true } }) ∧
    (r.sar.refSel = 0 → now r < r.clk.lodeStart + 1475 → exec (.referenceSettled dt) s = .next r) ∧
    (∀ due p, r.sar.routDue = some due → r.sar.routPos = none → due ≤ now r → r.sar.refRdy = true → Quiet r →
      r.sar.burstOn = false → r.sar.refSel = prm b 0x0440 → 1 ≤ prm b 0x0441 → seqStart b tbl = some p →
      ∃ t, exec (.routinePass dt []) s = .next t ∧
        t.sar.routPort = r.sar.routNext.getD r.sar.routPort ∧ t.sar.routNext = none ∧ t.sar.routPos = some p ∧
        t.sar.routDue = some (due + ((now r - due) / (prm b 0x0441 * 8192) + 1) * (prm b 0x0441 * 8192)) ∧
        t.sar.acc = r.sar.acc ∧ t.sar.trk = r.sar.trk ∧ t.gauge = r.gauge) ∧
    (∀ due, r.sar.routDue = some due → now r < due → Quiet r → exec (.routinePass dt []) s = .next (alarmTrack r)) ∧
    (r.sar.burstOn = true → polluxSlot r.sar.burst r.sar.burstPos = true → Quiet r →
      exec (.routinePass dt []) s = .next (alarmTrack r)) ∧
    (∀ (p : SeqPos) (e : SeqEntry) (code : Nat), dt = 0 → r.sar.routPos = some p → (routTable r)[p.entry]? = some e →
      e.mode = 0 → e.chan + p.chan ≠ 0x3B → e.acc + p.chan < 32 → (e.trk = 0xFF ∨ e.trk + p.chan < 32) → Quiet r →
      r.sar.refRdy = true → r.sar.flares = [] → (∀ i : Fin 32, r.sar.acc[i].count < 16777216) → prm r 0x0C04 = 1 →
      let start := slotStart r (routTable r) p
      let w := elapseTo (sarStamp r (start + e.sample + 16)) r
      let m := sampleOf r (e.chan + p.chan) 0 code
      (∀ i : Fin 4, cdnSrc w.tmr.cdn[i].actSrc ≠ 3) →
      ∃ t, exec (.sarConversion (.sequence code 0)) s = .next t ∧
        t.sar.routPos = seqNext w (routTable r) p ∧ t.tmr = w.tmr ∧
        (∀ i : Fin 32, t.sar.acc[i] = if i.val = e.acc + p.chan then
            (match m with
              | .good x => Acc.add x none r.sar.acc[i]
              | _ => { r.sar.acc[i] with ovr := min (r.sar.acc[i].ovr + 1) 65535 })
          else r.sar.acc[i]) ∧
        ∀ i : Fin 32, t.sar.trk[i] = if e.trk ≠ 0xFF ∧ i.val = e.trk + p.chan then
            (match m with
              | .good x => Trk.add x (sarStamp w (start + e.sample)) r.sar.trk[i]
              | .high => Trk.clip true r.sar.trk[i]
              | .low => Trk.clip false r.sar.trk[i])
          else r.sar.trk[i]) ∧
    (∀ code cell : Nat, code < 4095 → 1 ≤ cell → cell ≤ 16 → let y := calSample (calOf r (cell - 1)) code
      y.natAbs ≤ 524287 → sampleOf r cell 0 code = .good y) ∧
    (∀ c g, sampleOf r c g 4095 = .high)

/-- A Burst pass in progress goes on from where it stands, its next conversion ready from now; a Burst that runs no pass does
nothing, and one that a Routine pass suspends waits. A pass that comes to its end with one pass left stops the Burst. A Flare
converts ahead of everything at its own edge, and its reply carries the stamp of its hold edge. A calibration adds the codes
of its conversions (07 R147, R154, R157, R158, R168). -/
def BurstAndFlare : Prop :=
  ∀ (dt code : Nat) (s : State), live s = true → (elapse dt s).clk.lode = .on → (elapse dt s).pwr.mode = .run →
    let r := elapse dt s
    r.sar.refRdy = true →
    (∀ p, r.sar.burstPos = some p → seqStart r r.sar.burst ≠ some p → r.sar.burstOn = true → r.sar.routPos = none →
      polluxSlot r.sar.burst (some p) = false → Quiet r →
      ∃ t, exec (.burstPass dt []) s = .next t ∧ t.sar = { r.sar with passAt := 4 * now r } ∧ t.tmr = r.tmr ∧
        t.par = r.par) ∧
    (r.sar.burstPos = none ∨ r.sar.burstOn = false ∨ r.sar.routPos ≠ none → Quiet r →
      exec (.burstPass dt [(code, 0)]) s = .next (alarmTrack r)) ∧
    (∀ e p, r.sar.burst = [e] → r.sar.burstPos = some p → p.entry = 0 → p.chan + 1 = e.span → p.done + 1 = e.repeat_ →
      isIntlv e = false → seqStart r r.sar.burst ≠ some p → r.sar.burstOn = true → r.sar.burstLeft = 1 →
      r.sar.routPos = none → r.sar.flares = [] → Quiet r → r.glint.on = false →
      prm { r with par := r.par.applyMoment .burst } 0x0520 = 0 →
      ∃ t, exec (.burstPass dt [(code, 0)]) s = .next t ∧ t.sar.burstOn = false ∧ t.sar.burstPos = none ∧
        t.sar.burstLeft = 0 ∧ t.sar.burst = [e]) ∧
    (∀ (f : Flare) (q : List Flare) (slot : Fin 8) (o : Oper), dt = 0 → r.sar.flares = f :: q → Runs r slot o →
      o.id = f.opId → o.op = .flare → o.origin = .hostNative → o.interim = none → o.replied = false →
      flgNoReply o.flg = false → r.host.queue.length < 4 →
      let start := flareStart r f
      let w := elapseTo (sarStamp r (start + f.sample + 16)) r
      ∃ t, exec (.sarConversion (.flare code)) s = .next t ∧ Quiet t ∧ t.sar.flares = q ∧
        t.host.queue = r.host.queue
          ++ [⟨o.id, 0x25, o.tag, stOk, o.arg, leBytes 8 (sarStamp w (start + f.sample)), now w⟩]) ∧
    (∀ (slot : Fin 8) (o : Oper), dt = 0 → Runs r slot o → o.op = .calZero → o.replied = true → r.sar.calRun = true →
      r.sar.calCnt < r.sar.calN → 1 ≤ r.sar.calPair → r.sar.calPair ≤ 16 → r.sar.flares = [] → r.sar.routPos = none →
      r.sar.burstOn = false →
      ∃ t, exec (.sarConversion (.calibration [code])) s = .next t ∧ ops t = [o] ∧
        t.sar.calCnt = r.sar.calCnt + 1 ∧ t.sar.calSum = r.sar.calSum + code ∧ t.sar.acc = r.sar.acc)

/-- The Routine, the Burst and Flares run as their rules say. -/
def Obligations.SequencesRun : Prop := PassesAndConversions ∧ BurstAndFlare

/-! ## Timers (08_timers.md) -/

/-- The channel fires when the base reaches its target: it is counted, and a reloading channel steps its target by its
increment while another is disarmed. A countdown on the base clock has its zero tick after the edges its settings ask for,
and reloads from BUF or stops (08 R177, R178, R181, R182). -/
def TimersFire : Prop :=
  ∀ (s : State), live s = true → s.clk.lode = .on → s.clk.halt = false → s.pwr.mode = .run → s.link.txEnd = none →
    canTx s = false → (∀ i : Fin 6, s.sec.ctx[i].dmaEnd = none) →
    (∀ ch : Fin 8, let c := s.tmr.cmp[ch]
      cmpEn c.mode = true → s.tmr.base < c.target →
      let w := elapseTo c.target s
      (∃ t, exec (.compareFire ch) s = .next t ∧ (ch ≠ 6 → t = w) ∧ (ch = 6 → t.pwr.hold ≠ .none) ∧
        t.tmr.base = c.target) ∧
      w.tmr.cmp[ch].fired = true ∧ w.tmr.cmp[ch].match_ = min (c.match_ + 1) 65535 ∧ w.tmr.cmp[ch].late = 0 ∧
      (cmpReload c.mode = true → w.tmr.cmp[ch].target = c.target + cmpInc s ch ∧ w.tmr.cmp[ch].mode = c.mode) ∧
      (cmpReload c.mode = false → w.tmr.cmp[ch].mode = c.mode &&& 0xFE)) ∧
    (∀ n : Fin 4, let c := s.tmr.cdn[n]
      cdnSrc c.actSrc = 0 → c.dirty = false → 1 ≤ c.v → 1 ≤ c.d → c.p < c.d → (n = 3 → s.pol.dpas = false) →
      let m := (c.v * c.d - c.p + 255) / 256
      let w := elapseTo (s.tmr.base + m) s
      exec (.countdownZero n) s = .next w ∧ w.tmr.cdn[n].zero = true ∧ (c.buf = 0 → w.tmr.cdn[n].v = 0) ∧
      (c.buf ≠ 0 → c.d = 256 → w.tmr.cdn[n].v = c.buf ∧ w.tmr.cdn[n].zcount = min (c.zcount + 1) 65535))

/-- What a recognised edge of a TIN pin does: a rising one is counted by the countdowns of its source; an edge that its queue
selects is captured with its stamp, and a full queue counts it as lost; another captures nothing (08 R180, R185, R186). -/
def TinTaken (pin : Fin 2) (rising coarse : Bool) (w t : State) : Prop :=
  let i : Fin 4 := ⟨pin.val, by omega⟩
  let q := w.tmr.capq[i]
  let counts (c : Cdn) : Prop := rising = true ∧ coarse = false ∧ cdnSrc c.actSrc = 4 + pin.val
  (tinEnabled w pin rising = true →
    (q.held.length < 4 → t.tmr.capq[i] = { q with held := q.held ++ [(now w, coarse)] }) ∧
    (4 ≤ q.held.length → t.tmr.capq[i].held = q.held ∧ t.tmr.capq[i].lostNow = min (q.lostNow + 1) 65535)) ∧
  (tinEnabled w pin rising = false → t.tmr.capq[i] = q) ∧
  (∀ j : Fin 4, j ≠ i → t.tmr.capq[j] = w.tmr.capq[j]) ∧
  (∀ n : Fin 4, let c := w.tmr.cdn[n]
    (¬counts c → t.tmr.cdn[n] = c) ∧
    (counts c → c.dirty = false → c.d = 256 → c.p = 0 → 1 < c.v → t.tmr.cdn[n] = { c with v := c.v - 1 })) ∧
  t.tmr.base = w.tmr.base ∧ t.tmr.cmp = w.tmr.cmp ∧ t.sar = w.sar ∧ t.gauge = w.gauge

/-- An edge on a TIN pin is recognised once its level has stood TIN_FILT further PORT ticks; while TMR is stopped the edge
detector sees one edge per AON tick; without the supply of the pads nothing is seen (05 R105; 08 R185, R187). -/
def TinEdgesAct : Prop :=
  ∀ (dt : Nat) (pin : Fin 2) (rising : Bool) (s : State), live s = true → let r := elapse dt s
    (r.pwr.vddioOk = false → exec (.tinEdge dt pin rising) s = .next r) ∧
    (r.pwr.vddioOk = true → tmrRuns r = true → r.pwr.mode = .run →
      let w := elapseTo (now r + prm r 0x0C03 * 32 / 400) r
      ∃ t, exec (.tinEdge dt pin rising) s = .next t ∧ TinTaken pin rising false w t) ∧
    (r.pwr.vddioOk = true → tmrRuns r = false →
      let seen := if pin = 0 then r.tmr.tin0At else r.tmr.tin1At
      (seen = some (now r) → exec (.tinEdge dt pin rising) s = .next r) ∧
      (seen ≠ some (now r) → ∃ t, exec (.tinEdge dt pin rising) s = .next t ∧ TinTaken pin rising true r t))

/-- RTC_SUB_WRAP lets time pass to the AON edge at which RTC_SEC next rises; RTC_SLEW_ADJUST to the next slew adjustment,
which inserts or withholds one count (08 R189, R190). -/
def RtcCounts : Prop :=
  ∀ (s : State), live s = true → s.clk.lode = .on → s.clk.halt = false → s.pwr.mode = .run → s.link.txEnd = none →
    canTx s = false → (∀ i : Fin 6, s.sec.ctx[i].dmaEnd = none) → s.tmr.rtcSub < 32768 →
    s.tmr.rtcSec < 2 ^ 32 →
    (s.tmr.rtcSlew = 0 → ∃ w, exec .rtcSubWrap s = .next w ∧
      w.tmr.base = (s.tmr.base / 250 + (32768 - s.tmr.rtcSub)) * 250 ∧ w.tmr.rtcSec = (s.tmr.rtcSec + 1) % 2 ^ 32 ∧
      w.tmr.rtcSub = 0 ∧ w.tmr.rtcValid = s.tmr.rtcValid) ∧
    (s.tmr.rtcSlew ≠ 0 → s.tmr.slewAt ≤ s.tmr.base → s.tmr.base / 250 < s.tmr.slewAt / 250 + slewPeriod s.tmr.rtcSlew →
      let n := s.tmr.slewAt / 250 + slewPeriod s.tmr.rtcSlew
      ∃ w, exec .rtcSlewAdjust s = .next w ∧ w.tmr.base = n * 250 ∧
        ((32768 * w.tmr.rtcSec + w.tmr.rtcSub : Nat) : Int) =
          (((32768 * s.tmr.rtcSec + s.tmr.rtcSub + (n - s.tmr.base / 250) : Nat) : Int)
            + (if 0 < s.tmr.rtcSlew then 1 else -1)) % (32768 * 2 ^ 32))

/-- The compare channels, the countdowns, the capture queues and the RTC run as their rules say. -/
def Obligations.TimersAndRtcRun : Prop := TimersFire ∧ TinEdgesAct ∧ RtcCounts

/-! ## The gauge and Glint (09_gauge_model.md) -/

/-- MODEL_STEP acts once compare channel 4 has fired: both tallies are captured at the next CBM edge and their differences
counted into the accounts, that of Bank B where it is present; accumulators and trackers 0 to 23 are read and cleared, the
Glint events closed since the last step are taken, and one whole snapshot with the next number is published; Cast is entered at the end of a step whose uncertainties allow it, or 120 s after the start. COULOMB_COMMIT queues the
coulomb records, every tenth time with the cells (09 R193, R195, R200; 01 R18, R27; 04 R96; 06 R146). -/
def Obligations.ModelSteps : Prop :=
  ∀ (dt : Nat) (bits : Bits) (s : State), live s = true →
    (let r := elapse dt s
     (stepDue r = false → exec (.modelStep dt bits) s = .next r) ∧
     (stepDue r = true → Quiet r → ∃ t, exec (.modelStep dt bits) s = .next t ∧
       t.gauge.snap.num = r.gauge.snap.num + 1 ∧ t.gauge.snap.stamp = t.capStamp ∧ t.gauge.lastS = t.capStamp ∧
       (r.capAt ≤ now r → t.capStamp = 250 * (16 * now r / 250 + 1) / 16) ∧
       t.gauge.a.q = r.gauge.a.q + tallyDiff t.cqa.cap r.gauge.lastTA ∧ t.gauge.lastTA = t.cqa.cap ∧
       t.gauge.b.q = r.gauge.b.q + (if prm t 0x0205 = 1 then tallyDiff t.cqb.cap r.gauge.lastTB else 0) ∧
       t.gauge.lastTB = t.cqb.cap ∧ t.glint.closedA = [] ∧ t.glint.closedB = [] ∧
       t.cqa.satStep = 0 ∧ t.cqb.satStep = 0 ∧
       (∀ i : Fin 32, t.sar.acc[i] = (if i.val < 24 then Acc.empty else r.sar.acc[i]) ∧
         t.sar.trk[i] = if i.val < 24 then Trk.empty else r.sar.trk[i]) ∧
       (r.start.stage = .cast → t.start.stage = .cast) ∧
       (r.start.stage = .pour →
         t.start.stage = if t.start.estConf = true ∨ r.start.startBase + 983040000 ≤ now r then .cast else .pour) ∧
       t.tmr.base = r.tmr.base ∧ t.tmr.cmp[4].fired = false ∧ t.sec = r.sec ∧ t.clk = r.clk)) ∧
    (s.pwr.mode = .run → s.clk.lode = .on → s.clk.halt = false → 2 ≤ s.start.stage.code →
      let w := elapseTo (s.gauge.coulAt + prm s 0x050C * 8192000) s
      let n := w.gauge.coulN + 1
      let u := { w with gauge := { w.gauge with coulAt := now w, coulN := n } }
      Quiet w → w.pwr.bow = false → w.nv.queue.length < 8 →
      exec .coulombCommit s =
        .next (alarmTrack (Queued u ⟨none, now w, .records, coulRecs u (n % 10 == 0), false, false⟩))) ∧
    (s.start.stage.code < 2 → exec .coulombCommit s = .next s)

/-- GLINT_SLICE takes the slice of each bank that ends at its boundary into the bank's ring of 256 and clears accumulators
24 to 27 and trackers 24 and 26 for the next; GLINT_EVENT forms the record of an event whose after-window has closed, with a
bit for each of its segments that is valid, for the next step to take, and counts it; the other bank keeps its own (09 R212 to R215, R220). -/
def Obligations.GlintSlicesAndEvents : Prop :=
  ∀ (s : State), live s = true →
    (∀ e, s.pwr.mode = .run → s.glint.on = true → s.clk.lode = .on → s.clk.halt = false → s.glint.sliceAt = some e →
      let w := elapseTo e s
      ∃ t, exec .glintSlice s = .next t ∧
        t.glint.ringA = (sliceOf w .a e :: w.glint.ringA).take 256 ∧
        t.glint.ringB = (if prm w 0x0205 = 1 then (sliceOf w .b e :: w.glint.ringB).take 256 else w.glint.ringB) ∧
        t.glint.sliceAt = some ((max e (now w) / 400 + 1) * 400) ∧
        (∀ i : Fin 32, t.sar.acc[i] = (if 24 ≤ i.val ∧ i.val ≤ 27 then Acc.empty else w.sar.acc[i]) ∧
          t.sar.trk[i] = if i.val = 24 ∨ i.val = 26 then Trk.empty else w.sar.trk[i]) ∧
        t = { w with glint := t.glint, sar := { w.sar with acc := t.sar.acc, trk := t.sar.trk } }) ∧
    (s.glint.on = false → exec .glintSlice s = .next s) ∧
    (∀ (dt : Nat) (b c : Bank) (o : GlintOpen), let r := elapse dt s
      let ok (k : Nat) (seg : Pool) : Nat := bit (segValid r b o k seg)
      tmrRuns r = true → openOf r b = some o → c ≠ b →
      (o.ended ≠ none → ∃ t g, exec (.glintEvent dt b) s = .next t ∧
        (match b with | .a => t.glint.closedA | .b => t.glint.closedB) =
          (match b with | .a => r.glint.closedA | .b => r.glint.closedB) ++ [g] ∧
        g.stamp = o.stamp ∧ g.fall = o.fall ∧
        g.segs = ok 1 o.seg1 + 2 * ok 2 o.seg10 + 4 * ok 3 o.seg100 ∧ g.valid = decide (g.segs ≠ 0) ∧
        (match b with | .a => t.glint.eventsA | .b => t.glint.eventsB) =
          min ((match b with | .a => r.glint.eventsA | .b => r.glint.eventsB) + 1) 4294967295 ∧
        openOf t b = none ∧ openOf t c = openOf r c ∧
        (match c with | .a => t.glint.closedA | .b => t.glint.closedB) =
          (match c with | .a => r.glint.closedA | .b => r.glint.closedB) ∧
        t = { r with glint := t.glint }) ∧
      (o.ended = none → exec (.glintEvent dt b) s = .next r))

/-! ## The Almanac and the policy engine (10_almanac_policy.md) -/

/-- ALMANAC_EVALUATION acts once compare channel 5 has fired in Cast: the record carries the number and the stamp of the
snapshot it worked on, the computed shed level falls by at most one, and the SHED lines take the higher of the computed
level and the floor at the next SLOW edge. DPAS_ENERGY_CAPTURE adds the energy of the last 100 ms to a running pulse, and the pulse ends when its
time is up or at DPAS_PULSE_MWH (10 R225, R235, R241, R242, R246, R247). -/
def Obligations.EvaluationsAndPulses : Prop :=
  ∀ (s : State), live s = true →
    (∀ dt, let r := elapse dt s
      (evalDue r = false → exec (.almanacEvaluation dt) s = .next r) ∧
      (evalDue r = true → Quiet r → ∃ t a, exec (.almanacEvaluation dt) s = .next t ∧ t.alm.rcd = some a ∧
        a.snap = r.gauge.snap.num ∧ a.stamp = r.gauge.snap.stamp ∧ a.computed = t.pol.computed ∧
        a.inForce = max t.pol.computed t.pol.floor ∧ t.pol.pins = max t.pol.computed t.pol.floor ∧
        (r.pol.pins ≠ t.pol.pins → t.pol.pinsOld = shedPins r ∧ t.pol.pinsAt = (now r / 2000 + 1) * 2000) ∧
        t.pol.floor = r.pol.floor ∧ r.pol.computed ≤ t.pol.computed + 1 ∧
        (t.pol.computed ≠ r.pol.computed → t.pol.holdAt = now r) ∧
        t.tmr.cmp[5].fired = false ∧ t.tmr.base = r.tmr.base ∧ t.gauge = r.gauge ∧ t.sar = r.sar ∧ t.sec = r.sec)) ∧
    (∀ bits : Bits, s.pwr.mode = .run → s.pol.dpas = true → s.clk.lode = .on → s.clk.halt = false →
      let w := elapseTo (s.pol.dpasCap + 819200) s
      let c := captureTallies bits w
      let mAh := cqGain w .b * (tallyDiff c.cqb.cap w.pol.dpasT : Rat) * countC w .b * (10 / 36)
      let e := w.pol.dpasE - mAh * latestVbb w / 1000
      let ends (t : State) (sum : Rat) : Prop := t.pol.dpas = false ∧ t.pol.dpasEnd = some (now w) ∧
        t.pol.dpasDay = w.pol.dpasDay + sum ∧ t.tmr.cdn[3].v = 0
      Quiet w → ∃ t, exec (.dpasEnergyCapture bits) s = .next t ∧ t.cqa = c.cqa ∧ t.cqb = c.cqb ∧ t.gauge = w.gauge ∧
        (w.tmr.cdn[3].zero = true → ends t w.pol.dpasE) ∧
        (w.tmr.cdn[3].zero = false → (prm w 0x0724 : Rat) ≤ e → ends t e) ∧
        (w.tmr.cdn[3].zero = false → e < (prm w 0x0724 : Rat) →
          t.pol.dpas = true ∧ t.pol.dpasE = e ∧ t.pol.dpasCap = now w ∧ t.pol.dpasT = c.cqb.cap ∧ t.tmr = w.tmr)) ∧
    (∀ bits : Bits, s.pol.dpas = false → exec (.dpasEnergyCapture bits) s = .next s)

/-- HALF_HOUR_LEARNING acts on a passed half-hour boundary: only the bin that ended may change, and only where it
qualified; the next begins. DAILY_COMMIT rolls the day's sums on and queues the Almanac's records. DUTY_STALE drops the
declared table; SEA_STALE puts SEA_DEFAULT in force (10 R227 to R232, R236, R246). -/
def Obligations.AlmanacEventsAct : Prop :=
  ∀ (dt : Nat) (s : State), live s = true →
    (let r := elapse dt s
     let half := r.tmr.rtcSec / 1800
     let day := r.tmr.rtcSec / 86400
     (halfHourDue r = false → exec (.halfHourLearning dt) s = .next r) ∧
     (halfHourDue r = true → ∃ t, exec (.halfHourLearning dt) s = .next t ∧
       t.alm.binIdx = half ∧ t.alm.binAt = now r ∧ t.alm.binOk = true ∧ t.alm.binChg = false ∧ t.alm.seeds = [] ∧
       (r.alm.seeds = [] → ∀ i : Fin 48,
         i.val ≠ r.alm.binIdx % 48 ∨ r.alm.binOk = false ∨ r.tmr.rtcValid = false ∨ half ≠ r.alm.binIdx + 1 →
         t.alm.load[i] = r.alm.load[i] ∧ t.alm.harv[i] = r.alm.harv[i]) ∧
       t = { r with alm := t.alm, tamp := t.tamp }) ∧
     (dayDue r = false → exec (.dailyCommit dt) s = .next r) ∧
     (dayDue r = true → Quiet r → r.pwr.bow = false → r.nv.queue.length < 8 →
       ∃ t, exec (.dailyCommit dt) s = .next t ∧ t.alm.dayIdx = day ∧ t.alm.today = none ∧ t.pol.dpasN = 0 ∧
         t.pol.dpasDay = 0 ∧ t.alm.daily.length ≤ 14 ∧
         (halfHourDue r = false → day = r.alm.dayIdx + 1 → t.alm.daily = (r.alm.today :: r.alm.daily).take 14) ∧
         t.nv.queue = r.nv.queue ++ [⟨none, now r, .records,
           [⟨0x30, 0, 48, .bins t.alm.load.toList⟩, ⟨0x30, 1, 48, .bins t.alm.harv.toList⟩,
             ⟨0x30, 2, 14, .daily t.alm.daily⟩], false, false⟩] ∧
         t.tmr = r.tmr ∧ t.gauge = r.gauge ∧ t.par = r.par)) ∧
    (s.pwr.mode = .run → 2 ≤ s.start.stage.code →
      (s.alm.dutyStale = false → prm s 0x060D ≠ 0 →
        let w := elapseTo (s.alm.dutyAt + 86400 * prm s 0x060D * 8192000) s
        ∃ t, exec .dutyStale s = .next t ∧ t.alm = { w.alm with duties := [], dutyStale := true } ∧
          t.tmr.cmp[6].mode = w.tmr.cmp[6].mode &&& 0xFE#8 ∧
          t = { w with alm := t.alm, tmr := { w.tmr with cmp := t.tmr.cmp } } ∧
          ∀ i : Fin 8, i ≠ 6 → t.tmr.cmp[i] = w.tmr.cmp[i]) ∧
      (s.alm.seaStale = false →
        let w := elapseTo (s.alm.seaAt + 60 * prm s 0x060B * 8192000) s
        ∃ t, exec .seaStale s = .next t ∧ t.alm.sea = prm w 0x060A ∧ t.alm.seaStale = true ∧
          t.alm = { w.alm with
            sea := t.alm.sea, seaStale := true, seaSum := t.alm.seaSum, seaSince := now w } ∧
          t = { w with alm := t.alm })) ∧
    (s.alm.dutyStale = true ∨ prm s 0x060D = 0 → exec .dutyStale s = .next s) ∧
    (s.alm.seaStale = true → exec .seaStale s = .next s)

/-! ## Locks (13_digest_crucible.md R332 to R337) -/

/-- UNSEALED falls back to SEALED at its timeout, which ends every challenge, logs the change and queues the LOCK record; a
challenge ends at its TTL and a lockout at its time. At the close of a verification round a valid response changes the level,
clears the failures and answers OK; an invalid one is counted and answers AUTHFAIL (13 R332 to R337). -/
def Obligations.LocksTimeOut : Prop :=
  ∀ (s : State), live s = true → s.pwr.mode = .run →
    (s.sec.lock = .unsealed → 2 ≤ s.start.stage.code →
      let w := elapseTo (s.sec.lockAt + 60 * prm s 0x0A02 * 8192000) s
      Quiet w → w.pwr.bow = false → w.nv.queue.length < 8 → w.tamp.logWait.length < 32 →
      ∃ t, exec .lockTimeout s = .next t ∧
        t.sec = { w.sec with
          lock := .sealed, lockAt := now w
          host := { w.sec.host with chal := none }
          field := { w.sec.field with chal := none } } ∧
        (∃ e, t.tamp.logWait = w.tamp.logWait ++ [e] ∧ e.typ = 0x20 ∧ e.stamp = now w ∧ e.data = padTo 32 [1, 0, 2]) ∧
        t.nv.queue = w.nv.queue ++ [⟨none, now w, .records, [lockRec t], false, false⟩] ∧
        t.tmr = w.tmr ∧ t.par = w.par ∧ t.gauge = w.gauge) ∧
    (s.sec.lock ≠ .unsealed → exec .lockTimeout s = .next s) ∧
    (∀ p : LockPort,
      (∀ c, (plOf p s).chal = some c → let w := elapseTo (c.2.2 + prm s 0x0A01 * 8192000) s
        exec (.unlockTtlExpiry p) s = .next (setPl p { plOf p w with chal := none } w)) ∧
      ((plOf p s).chal = none → exec (.unlockTtlExpiry p) s = .next s) ∧
      (∀ e, (plOf p s).until_ = some e → let w := elapseTo e s
        let u := setPl p { plOf p w with until_ := none } w
        w.pwr.bow = false → w.nv.queue.length < 8 →
        exec (.lockoutEnd p) s = .next { u with nv := { u.nv with
          queue := u.nv.queue ++ [⟨none, now w, .records, [lockRec u], false, false⟩] } }) ∧
      ((plOf p s).until_ = none → exec (.lockoutEnd p) s = .next s) ∧
      ((plOf p s).roundAt = none → exec (.unlockRoundClose p) s = .next s)) ∧
    (∀ (e : Nat) (slot : Fin 8) (o : Oper), s.sec.host.roundAt = some e → s.sec.host.round = [o.id] →
      let w := elapseTo (e + 819) s
      Runs w slot o → o.op = .unlock → o.origin = .hostNative → o.replied = false → o.interim = none →
      flgNoReply o.flg = false → w.host.queue.length < 4 → w.pwr.bow = false →
      ∃ t k, exec (.unlockRoundClose .host) s = .next t ∧ Quiet t ∧ t.sec.host.round = [] ∧ t.sec.host.roundAt = none ∧
        t.sec.field.fails = w.sec.field.fails ∧ t.par = w.par ∧ t.gauge = w.gauge ∧
        (unlockValid w .host o = true →
          t.sec.lock = lockOfCode o.arg.toNat ∧ t.sec.host.chal = none ∧ t.sec.host.consumed = some o.payload ∧
          t.sec.host.fails = 0 ∧ t.sec.host.k = 0 ∧
          t.host.queue = w.host.queue ++ [⟨o.id, 0x6A, o.tag, stOk, o.arg, [], k⟩]) ∧
        (unlockValid w .host o = false → w.sec.host.consumed ≠ some o.payload → w.sec.host.fails < 4 →
          t.sec.lock = w.sec.lock ∧ t.sec.host.fails = w.sec.host.fails + 1 ∧ t.sec.host.chal = w.sec.host.chal ∧
          t.host.queue = w.host.queue ++ [⟨o.id, 0x6A, o.tag, stAuthFail, o.arg, [], k⟩]))

/-! ## Tamper and the log (14_tamper_quench.md) -/

/-- The event condition of each source: a source already in tamper has no new event; LID, the mesh, the probe and the
temperature ask for a number of samples in a row, a jump of VREG or a core voltage outside its window for none; CLOCK follows
the flags of the clocks (14 R342, R343). -/
def TamperConditions : Prop :=
  ∀ (mv vreg g step core ns k n : Nat) (s : State),
    (tamperReal (.lid mv vreg n) s = true ↔ s.tamp.lid.inTamper = false ∧ 3 * vreg ≤ 10 * mv ∧ 7 * vreg < 10 * mv ∧
      prm s 0x0B10 ≤ n ∧ prm s 0x0B10 ≤ samples .lid s) ∧
    (tamperReal (.mesh n) s = true ↔ s.tamp.mesh.inTamper = false ∧ prm s 0x0B12 ≤ n ∧ prm s 0x0B12 ≤ samples .mesh s) ∧
    (tamperReal (.ingress g n) s = true ↔ s.tamp.ingress.inTamper = false ∧ prm s 0x0B13 < g ∧ prm s 0x0B15 ≤ n ∧
      prm s 0x0B15 ≤ samples .ingress s) ∧
    (tamperReal (.glitch step core ns) s = true ↔
      300 < step ∨ (s.clk.lode ≠ .off ∧ 20 < ns ∧ (core < 750 ∨ 950 < core))) ∧
    (tamperReal .clock s = true ↔ (s.clk.xtalFail = true ∨ s.clk.lodeUnlock = true) ∧ s.tamp.clockSeen = false) ∧
    (tamperReal (.temp k n) s = true ↔ s.tamp.temp.inTamper = false ∧ (k < prm s 0x0B17 ∨ prm s 0x0B18 < k) ∧ 2 ≤ n ∧
      2 ≤ samples .temp s)

/-- A tamper event is recognised at the sampling edge of its source. One whose condition holds latches its response, the
highest since the last clear, counts and stamps the source, and leaves every other source as it was; a response of class Q1 or
Q2 seals the level, closes every context and leaves no key loaded, and Q2 starts the erase of the key area; any other leaves
the security block and the marks. An event whose condition does not hold changes nothing but the debounced reading of LID. A
release whose condition holds ends the tamper state of its source, and another changes nothing; INDETERMINATE for
LID_INDET_TIME is a LID event (14 R342 to R349; 04 R99). -/
def TamperSourcesLatch : Prop :=
  ∀ (dt : Nat) (x : Sensed) (s : State), live s = true →
    let r := elapse dt s
    let k := x.src
    let w := elapseTo (recogniseAt k r) r
    let resp := responseOf w k
    (k = .lid ∨ k = .mesh ∧ r.clk.lode = .off → recogniseAt k r = upSlow (now r)) ∧
    (tamperReal x w = true → Quiet w → ∃ t, exec (.tamperEvent dt x) s = .next t ∧
      let old := srcOf w k
      let y := srcOf t k
      y.latch = some (match old.latch with | some o => (if o.code < resp.code then resp else o) | none => resp) ∧
      y.count = min (old.count + 1) 65535 ∧ y.last = now w % 2 ^ 56 ∧
      y.first = (if old.count = 0 then now w % 2 ^ 56 else old.first) ∧ y.since = now w ∧
      y.value = (match x with | .ingress g _ => g | .temp c _ => c | _ => 0) ∧
      (k ≠ .glitch → k ≠ .clock → y.inTamper = true) ∧
      (∀ j, j ≠ k → srcOf t j = srcOf w j) ∧
      (resp.code < 2 → t.sec = w.sec ∧ t.nv.marks = w.nv.marks ∧ t.tamp.q2Erase = w.tamp.q2Erase) ∧
      (2 ≤ resp.code → 2 ≤ w.start.stage.code →
        t.sec.lock = .sealed ∧ (∀ i : Fin 6, t.sec.ctx[i] = Ctx.closed) ∧ (∀ i : Fin 16, t.sec.keys[i].state ≠ .loaded) ∧
        t.link.role = .silent ∧ t.tamp.quenchTo = now w + 84 ∧
        (w.clk.lode = .on → t.tamp.q2Erase = (w.tamp.q2Erase || resp == .q2))) ∧
      t.tmr.base = w.tmr.base ∧ t.par = w.par ∧ t.gauge = w.gauge) ∧
    (tamperReal x w = false →
      (k ≠ .lid → exec (.tamperEvent dt x) s = .next w) ∧
      (∀ mv vreg n, x = .lid mv vreg n →
        let reads := prm w 0x0B10 ≤ n ∧ prm w 0x0B10 ≤ samples .lid w ∧ lidOf mv vreg ≠ .closed ∧
          lidOf mv vreg ≠ w.tamp.lidState
        (¬reads → exec (.tamperEvent dt x) s = .next w) ∧
        (reads → exec (.tamperEvent dt x) s = .next { w with tamp := { w.tamp with
          lidState := lidOf mv vreg
          lidSince := if lidOf mv vreg = .indeterminate then some (w.tamp.lidSince.getD (now w)) else none
          lid := { w.tamp.lid with since := now w } } }))) ∧
    (tamperClear x w = false → exec (.tamperRelease dt x) s = .next w) ∧
    (tamperClear x w = true → ∃ t, exec (.tamperRelease dt x) s = .next t ∧
      srcOf t k = { srcOf w k with inTamper := false, since := now w } ∧
      (∀ j, j ≠ k → srcOf t j = srcOf w j) ∧ t = { w with tamp := t.tamp } ∧
      (k = .lid → t.tamp.lidState = .closed ∧ t.tamp.lidSince = none) ∧
      t.tamp.log = w.tamp.log ∧ t.tamp.logWait = w.tamp.logWait ∧ t.tamp.q2Erase = w.tamp.q2Erase) ∧
    (∀ e, s.tamp.lidState = .indeterminate → s.tamp.lid.inTamper = false → s.tamp.lidSince = some e → s.pwr.mode = .run →
      let w := elapseTo (upSlow (e + prm s 0x0B11 * 8192)) s
      Quiet w → ∃ t, exec .lidIndeterminateTimeout s = .next t ∧ t.tamp.lid.inTamper = true ∧
        t.tamp.lid.count = min (w.tamp.lid.count + 1) 65535 ∧ t.tamp.lid.last = now w % 2 ^ 56 ∧ t.tamp.lidSince = none ∧
        ∀ j, j ≠ .lid → srcOf t j = srcOf w j) ∧
    (s.tamp.lidState ≠ .indeterminate → exec .lidIndeterminateTimeout s = .next s)

/-- The tamper sources have their events and releases as their rules say. -/
def Obligations.TamperEventsLatch : Prop := TamperConditions ∧ TamperSourcesLatch

/-- The end of a Q2 erase leaves every copy of every key slot blank, every slot empty, and its mark in class 3. From Pour on,
with Lode on and no BOW, LOG_ENTRY_COMMIT commits the oldest raised entry: it takes the next index, the log holds the newest
128, and a tamper entry is copied into the evidence store while that holds fewer than 16 (14 R345, R353, R355; 15 R369). -/
def Obligations.EraseAndLogCommit : Prop :=
  ∀ (dt : Nat) (s : State), live s = true → let r := elapse dt s
    (r.tamp.q2Erase = true → r.clk.lode = .on → Quiet r → ∃ t, exec (.q2EraseComplete dt) s = .next t ∧
      t.tamp.q2Erase = false ∧ t.nv.keyArea = Vector.replicate 16 [none, none, none] ∧
      (∀ i : Fin 16, t.sec.keys[i].state = .empty) ∧
      (∀ i : Fin 64, t.nv.marks[i] =
        if isMark r.nv.marks[i] = true ∧ markClass r.nv.marks[i] = 2 then r.nv.marks[i] ||| 0x08000000#32 else r.nv.marks[i]) ∧
      t.nv.sectors = r.nv.sectors ∧ t.sec.lock = r.sec.lock ∧ t.par = r.par ∧ t.tmr = r.tmr) ∧
    (r.tamp.q2Erase = false → exec (.q2EraseComplete dt) s = .next r) ∧
    (r.clk.lode = .on → 2 ≤ r.start.stage.code → r.pwr.bow = false →
      (r.tamp.logWait = [] → exec (.logEntryCommit dt) s = .next r) ∧
      (∀ e q, r.tamp.logWait = e :: q →
        let x := { e with index := r.tamp.logNext }
        ∃ t, exec (.logEntryCommit dt) s = .next t ∧
          t.tamp = { r.tamp with
            logWait := q, log := t.tamp.log, logNext := (r.tamp.logNext + 1) % 2 ^ 32, evid := t.tamp.evid
            evidLost := t.tamp.evidLost } ∧
          (r.tamp.log.length < 128 → t.tamp.log = r.tamp.log ++ [x]) ∧
          (r.tamp.log.length = 128 → t.tamp.log = r.tamp.log.drop 1 ++ [x]) ∧
          t.tamp.evid = (if tamperTyp e.typ = true ∧ r.tamp.evid.length < 16 then r.tamp.evid ++ [x] else r.tamp.evid) ∧
          t.tamp.evidLost = (if tamperTyp e.typ = true ∧ 16 ≤ r.tamp.evid.length then min (r.tamp.evidLost + 1) 65535
            else r.tamp.evidLost) ∧
          t = { r with tamp := t.tamp })) ∧
    (r.pwr.bow = true ∨ r.start.stage.code < 2 ∨ r.clk.lode ≠ .on → exec (.logEntryCommit dt) s = .next r)

/-! ## The Ingot store (15_ingot_store.md) -/

/-- COMMIT_QUEUE_START begins the queued transaction with the earliest timestamp, if the controller is idle, nothing
refuses it, and no reclaim is due, which would go before it: it takes the next TXN, or for a key the copy after the newest. NV_WORD_WRITE ends one word:
the next word of the record, of the key copy or of the sector follows; the MARK commits the transaction, whose records then
count; a word that failed retires its sector, which both header copies are to record; the last word of a header copy makes it
valid with the sectors retired by then (15 R360, R363, R364, R366, R368,
R373). -/
def Obligations.StoreWritesWords : Prop :=
  ∀ (dt : Nat) (e : WriteEnd) (s : State), live s = true → let r := elapse dt s
    (storeIdle r = false → exec (.commitQueueStart dt) s = .next r) ∧
    (wordRuns r = false → exec (.nvWordWrite dt e) s = .next r) ∧
    (Quiet r → r.nv.held = [] →
      (storeIdle r = true → r.nv.queue = [] → exec (.commitQueueStart dt) s = .next (alarmTrack r)) ∧
      (∀ x, storeIdle r = true → queueHead r r.nv.queue = some x → storeRefuses x r = false → x.opId = none →
        ∃ t, exec (.commitQueueStart dt) s = .next t ∧
          (∀ y ∈ r.nv.queue, x.stamp ≤ y.stamp) ∧ t.par = r.par ∧ t.sec = r.sec ∧ t.gauge = r.gauge ∧
          (x.kind = .records → reclaimDue x.recs r = false → t.nv.queue = r.nv.queue.erase x ∧
            t.nv.jobs = [.journal x r.nv.nextTxn 0 0 none] ∧ t.nv.nextTxn = (r.nv.nextTxn + 1) % 2 ^ 24) ∧
          (x.kind = .records → reclaimDue x.recs r = true → oldestSector r ≠ none → t.nv.queue = r.nv.queue) ∧
          (∀ slot gen wr use b, x.kind = .key slot gen wr use b → t.nv.queue = r.nv.queue.erase x ∧
            t.nv.jobs = [.keyCopy x (nextCopy r slot) 0] ∧ t.nv.nextTxn = r.nv.nextTxn)) ∧
      (wordRuns r = true →
        (∀ x n i w v q rec, r.nv.jobs = .journal x n i w v :: q → x.recs[i]? = some rec →
          (e ≠ .failed → w + 1 < rec.words → ∃ t, exec (.nvWordWrite dt e) s = .next t ∧
            t.nv.jobs = .journal x n i (w + 1) v :: q ∧ t.par = r.par ∧ t.nv.keyArea = r.nv.keyArea ∧
            (sectorAt t r.nv.head).used = (sectorAt r r.nv.head).used + (if r.nv.head < 64 then 1 else 0) ∧
            ∀ j : Fin 64, j.val ≠ r.nv.head → t.nv.sectors[j] = r.nv.sectors[j]) ∧
          (e = .failed → ∃ t, exec (.nvWordWrite dt e) s = .next t ∧
            t.nv.jobs = .header false 0 (some x) v :: q ∧ t.par = r.par ∧
            (r.nv.head < 64 → (sectorAt t r.nv.head).retired = true) ∧
            ∀ j : Fin 64, j.val ≠ r.nv.head → t.nv.sectors[j] = r.nv.sectors[j])) ∧
        (∀ x n i q id len b, r.nv.jobs = .journal x n i (len + 3) none :: q → x.opId = none →
          x.recs = [⟨0x10, id, len, .bytes b⟩] → i = 0 → e ≠ .failed → ∃ t, exec (.nvWordWrite dt e) s = .next t ∧
            t.nv.jobs = q ∧ t.nv.lastTxn = n ∧ t.par.committed = sparseSet [] id b r.par.committed ∧
            t.par.pending = r.par.pending) ∧
        (∀ x c w q, r.nv.jobs = .keyCopy x c w :: q → (∃ slot gen wr use y, x.kind = .key slot gen wr use y) → w < 24 →
          e ≠ .failed → ∃ t, exec (.nvWordWrite dt e) s = .next t ∧ t.nv.jobs = .keyCopy x c (w + 1) :: q ∧
            t.nv.sectors = r.nv.sectors ∧ t.sec = r.sec ∧ t.par = r.par) ∧
        (∀ v q, r.nv.jobs = .blank v 127 :: q → v < 64 → e ≠ .failed → ∃ t, exec (.nvWordWrite dt e) s = .next t ∧
          t.nv.jobs = q ∧ sectorAt t v = Sector.blank ∧ t.par = r.par) ∧
        (∀ q, r.nv.jobs = .header true 2 none none :: q → ∃ t, exec (.nvWordWrite dt e) s = .next t ∧
          t.nv.jobs = q ∧ t.nv.hdrB = decide (e ≠ .failed) ∧ t.nv.hdrA = r.nv.hdrA ∧ t.nv.mapA = r.nv.mapA ∧
          (e ≠ .failed → t.nv.mapB = retiredNow r) ∧
          t.nv.storeBad = (!r.nv.hdrA && !t.nv.hdrB))))

/-! ## The Criuc link (12_criuc_link.md) -/

/-- A scheduled frame of `len` payload bytes starts where its instant, or 48 µs after the end of the energy that stands
there, leaves it time within its window (12 R283, R286). -/
def Fits (m : Medium) (r : State) (due window typ len start : Nat) : Prop :=
  let k := busySyms m r
  start = (if k = 0 then due else due + usTicks (8 * k + 48)) ∧ now r ≤ due ∧ start + frameTicks typ len ≤ window

/-- The listen for a constellation ends in a JOIN where a beacon was heard; where none was, the part is the Pole of a new
constellation, whose beacon 0 starts at that instant as the medium allows, or else with the next period (12 R286, R291; the
last is the model's reading, assumption log 93). -/
def ListenEnds : Prop :=
  ∀ (dt start : Nat) (m : Medium) (s : State), live s = true → let r := elapse dt s
    (r.link.role = .listening → r.link.heard = true →
      (now r < r.link.listenAt + 16384000 → exec (.joinListenEnd dt m) s = .next r) ∧
      (r.link.listenAt + 16384000 ≤ now r → exec (.joinListenEnd dt m) s = .next { r with link := { r.link with
        role := .joining, joinAge := 0, txq := r.link.txq ++ [⟨3, [], 5, none, 0, none, now r, 0⟩] } })) ∧
    (r.link.role = .listening → r.link.heard = false → canTx r = true →
      r.link.listenAt + 16384000 + prm r 0x0101 % 8 * 1024000 ≤ now r →
      let u := founded r
      let z := elapseTo start u
      let fits := Fits m u (now r) (now r + 81920) 1 111
      u.link.role = .pole ∧ u.link.poleSer = prm r 0x0101 ∧ u.link.roster = List.replicate 15 0 ∧
      (fits start → canTx z = true → ∃ t f, exec (.joinListenEnd dt m) s = .next t ∧ t.link.role = .pole ∧
        t.link.bn = 0 ∧ t.link.roster = List.replicate 15 0 ∧ t.link.poleSer = prm r 0x0101 ∧
        t.link.refAt = some (now z) ∧ t.link.beaconAt = now r + 8192000 ∧ t.link.sending = some f ∧ f.typ = 1 ∧
        f.ctr = some (r.link.ctr + 1) ∧ t.tmr = z.tmr ∧ t.par = r.par) ∧
      ((∀ b, ¬fits b) → exec (.joinListenEnd dt m) s =
        .next (linkCount 4 { u with link := { u.link with beaconAt := now r + 8192000 } }))) ∧
    (r.link.role ≠ .listening → exec (.joinListenEnd dt m) s = .next r)

/-- The Pole's beacon and the own report start at their instants with the next counter, or are skipped for the period where
the medium is busy past their window; a frame that a brown-out warning stopped keeps its counter (05 R111; 12 R286, R288,
R294, R295). -/
def ScheduledFramesStart : Prop :=
  ∀ (dt start : Nat) (m : Medium) (s : State), live s = true → let r := elapse dt s
    let w := elapseTo start r
    (canTx r = false → exec (.beaconTransmit dt m) s = .next r) ∧
    (canTx r = true → r.link.role = .pole → (∀ f ∈ r.link.txq, f.typ ≠ 1) →
      let e := r.link.beaconAt
      let fits := Fits m r e (e + 81920) 1 (if pvOf r = 1 then 89 else 111)
      let skipped (u : State) : State := linkCount 4 { u with link := { u.link with beaconAt := u.link.beaconAt + 8192000 } }
      (fits start → canTx w = true → r.link.leaving = false → r.link.handover = false → r.link.demote = false →
        ∃ t f, exec (.beaconTransmit dt m) s = .next t ∧ t.link.sending = some f ∧ f.typ = 1 ∧
          f.ctr = some (r.link.ctr + 1) ∧ t.link.ctr = r.link.ctr + 1 ∧ t.link.role = .pole ∧
          t.link.bn = (r.link.bn + 1) % 2 ^ 32 ∧ t.link.refAt = some (now w) ∧ t.link.beaconAt = e + 8192000 ∧
          t.link.roster = r.link.roster ∧ (f.payload.drop 3).take 4 = leBytes 4 t.link.bn ∧ t.tmr = w.tmr) ∧
      ((∀ b, ¬fits b) → exec (.beaconTransmit dt m) s = .next (skipped r))) ∧
    (∀ f c, canTx r = true → r.link.txq = [f] → f.typ = 1 → f.ctr = some c →
      let u := { r with link := { r.link with txq := [] } }
      let z := elapseTo start u
      let fits := Fits m r f.readyAt (r.link.beaconAt - 8192000 + 81920) 1 f.payload.length
      (fits start → canTx z = true → ∃ t g, exec (.beaconTransmit dt m) s = .next t ∧ t.link.sending = some g ∧
        g.typ = 1 ∧ g.ctr = some c ∧ t.link.ctr = r.link.ctr ∧ t.link.refAt = some (now z) ∧ t.link.txq = [] ∧
        t.tmr = z.tmr) ∧
      ((∀ b, ¬fits b) → exec (.beaconTransmit dt m) s = .next (linkCount 4 u))) ∧
    ((∀ f ∈ r.link.txq, f.typ ≠ 2) →
      (reportDue r = none → exec (.reportTransmit dt m) s = .next r) ∧
      (∀ e i, reportDue r = some (e, i) →
        let u := { r with link := { r.link with sentBn := some r.link.bn } }
        let z := elapseTo start u
        let fits := Fits m r (e + (11 + 5 * i) * 8192) (e + (15 + 5 * i) * 8192) 2 20
        (fits start → canTx z = true → ∃ t f, exec (.reportTransmit dt m) s = .next t ∧ t.link.sending = some f ∧ f.typ = 2 ∧
          f.payload = reportBytes z ∧ f.ctr = some (r.link.ctr + 1) ∧ t.link.ctr = r.link.ctr + 1 ∧
          t.link.sentBn = some r.link.bn ∧ t.link.txq = r.link.txq ∧ t.tmr = z.tmr) ∧
        ((∀ b, ¬fits b) → exec (.reportTransmit dt m) s = .next (linkCount 4 u))))

/-- The queued frame whose instant comes first starts there on an idle medium, and a JOIN takes its payload then; on a busy
one every frame waits for the next idle. Without a reference the instant is 48 µs for each place of its priority and its
back-off after the later of its readiness and the last idle (12 R284, R288, R291). -/
def CsmaFramesStart : Prop :=
  ∀ (dt : Nat) (m : Medium) (s : State), live s = true → let r := elapse dt s
    let q := csmaRenew r
    (canTx r = false ∨ (∀ f ∈ r.link.txq, f.typ ≤ 2) → exec (.csmaFrameStart dt m) s = .next r) ∧
    (∀ i f, canTx r = true → nextFrame q q.link.txq = some (i, f) →
      let w := elapseTo (csmaDue q f) q
      (canTx w = true → busySyms m r = 0 → ∃ t g, exec (.csmaFrameStart dt m) s = .next t ∧ t.link.sending = some g ∧
        g.typ = f.typ ∧ g.payload = (if f.typ = 3 ∧ f.ctr = none then joinBytes w else f.payload) ∧
        g.ctr = some (f.ctr.getD (r.link.ctr + 1)) ∧ t.link.txq = q.link.txq.eraseIdx i ∧ t.link.txAt = now w ∧
        (∃ e, t.link.txEnd = some e ∧ now w < e) ∧ t.tmr = w.tmr ∧ t.par = r.par) ∧
      (canTx w = true → busySyms m r ≠ 0 → exec (.csmaFrameStart dt m) s =
        .next { w with link := { w.link with idleAt := now w + usTicks (8 * busySyms m r) } })) ∧
    (∀ f : TxFrame, r.link.refAt = none →
      csmaDue r f = max f.readyAt r.link.idleAt + usTicks (48 * (f.prio + 1 + 8 * f.back)))

/-- Energy LINK_CD dB above the own level in two symbols ends the burst with its symbol: a collision in B1 puts a CSMA frame
back up to six times, with a back-off that no rule fixes, and drops it at the seventh; one in B2 ends the frame, which counts
as sent. Less energy changes nothing (12 R284, R285). -/
def CollisionsBackOff : Prop :=
  ∀ (dt : Nat) (e : Echo) (s : State), live s = true → let r := elapse dt s
    let louder (x : Nat) : Prop := e.own ^ 20 * 10 ^ prm r 0x0905 < x ^ 20
    (r.link.sending = none → exec (.txCollision dt e) s = .next r) ∧
    (∀ f, r.link.sending = some f → burstOn f (linkSince r r.link.txAt) = none → exec (.txCollision dt e) s = .next r) ∧
    (∀ f first n, r.link.sending = some f → burstOn f (linkSince r r.link.txAt) = some (first, n) →
      (¬(louder e.first ∧ louder e.second) → exec (.txCollision dt e) s = .next r) ∧
      (louder e.first → louder e.second → Quiet r →
        let w := elapseTo (symbolEnd r first) r
        let u := { w with link := { w.link with sending := none, txEnd := none, idleAt := now w + usTicks 112 } }
        (first = 0 → f.typ ≤ 2 → exec (.txCollision dt e) s = .next (alarmTrack (linkCount 1 u))) ∧
        (first = 0 → 3 ≤ f.typ → 6 ≤ f.tries →
          exec (.txCollision dt e) s = .next (alarmTrack (linkCount 2 (linkCount 1 u)))) ∧
        (first = 0 → 3 ≤ f.typ → f.tries < 6 → ∃ t k, exec (.txCollision dt e) s = .next t ∧ k < 2 ^ (f.tries + 1) ∧
          t.link = { (linkCount 1 u).link with
            txq := { f with tries := f.tries + 1, back := k, readyAt := now w } :: u.link.txq } ∧
          t.tmr = w.tmr ∧ t.par = w.par) ∧
        (first ≠ 0 → w.link.sending = some f → exec (.txCollision dt e) s = .next (alarmTrack (linkCount 0 u)))))

/-- Frames are sent as their rules say: the end of the listen, scheduled frames, frames by CSMA, collisions. -/
def Obligations.FramesAreSent : Prop := ListenEnds ∧ ScheduledFramesStart ∧ CsmaFramesStart ∧ CollisionsBackOff

/-- 90 ms into each period the Pole forms the 22 bytes of the block of its next beacon. A member counts each beacon that is
10 ms overdue; after three the Pole is lost, and at its own expected instant the Star of a roster entry takes over as Pole
with the next beacon, which starts as the medium allows, or else with the next period (12 R286, R296, R297; the last is the
model's reading, assumption log 93). -/
def Obligations.SuccessionAndAggregate : Prop :=
  ∀ (dt start : Nat) (m : Medium) (s : State), live s = true → let r := elapse dt s
    (∀ e, r.link.role = .pole → r.link.formed = none → r.link.refAt = some e →
      (e + 737280 ≤ now r → ∃ t b, exec (.aggregateForm dt) s = .next t ∧ t.link.formed = some b ∧ b.length = 22 ∧
        (others r = [] → byteAt b 0 = 1) ∧ t.link.splitAge = min 4 (r.link.splitAge + 1) ∧ t.link.role = .pole ∧
        t = { r with link := t.link }) ∧
      (now r < e + 737280 → exec (.aggregateForm dt) s = .next r)) ∧
    (r.link.role ≠ .pole ∨ r.link.formed ≠ none → exec (.aggregateForm dt) s = .next r) ∧
    (∀ e, s.link.refAt = some e → s.link.role = .member → canRx s = true → s.pwr.mode = .run →
      let w := elapseTo (e + (s.link.missed + 1) * 8192000 + 81920) s
      exec .beaconMissed s = .next (linkCount 15 { w with link := { w.link with
        missed := w.link.missed + 1, poleLost := w.link.poleLost || decide (3 ≤ w.link.missed + 1) } })) ∧
    (s.link.role ≠ .member → exec .beaconMissed s = .next s) ∧
    (∀ e i, r.link.refAt = some e → r.link.roster.findIdx? (fun x => x == prm r 0x0101) = some i → r.link.role = .member →
      r.link.poleLost = true → canTx r = true → prm r 0x0101 ≠ 0 →
      let d := e + (4 + i) * 8192000
      let u := becomePole d r
      let z := elapseTo start u
      let fits := Fits m u d (d + 81920) 1 (if pvOf u = 1 then 89 else 111)
      (fits start → canTx z = true → ∃ t f, exec (.poleTakeover dt m) s = .next t ∧ t.link.role = .pole ∧
        t.link.poleLost = false ∧ t.link.poleSer = prm r 0x0101 ∧ t.link.bn = (r.link.bn + 1) % 2 ^ 32 ∧
        t.link.refAt = some (now z) ∧ t.link.beaconAt = d + 8192000 ∧ t.link.sending = some f ∧ f.typ = 1 ∧
        f.ctr = some (r.link.ctr + 1) ∧ prm r 0x0101 ∉ t.link.roster ∧ t.tmr = z.tmr) ∧
      ((∀ b, ¬fits b) → exec (.poleTakeover dt m) s =
        .next (linkCount 4 { u with link := { u.link with beaconAt := d + 8192000 } }))) ∧
    (r.link.poleLost = false → exec (.poleTakeover dt m) s = .next r)

/-- The command that delivers a frame of each type. -/
def frameOf (typ dt : Nat) (f : RxFrame) : Instr :=
  match typ with
  | 1 => .beacon dt f
  | 2 => .report dt f
  | 3 => .join dt f
  | 4 => .notice dt f
  | 5 => .leave dt f
  | 6 => .cfg dt f
  | 7 => .alarm dt f
  | 8 => .sprueReq dt f
  | n => .malformedFrame dt (BitVec.ofNat 8 n) f

/-- A delivered frame is checked in the order of its rule, and the first check that fails drops it with its counter: bursts
that differ, a length its type does not allow, no key or a wrong AUTH, a counter that is a duplicate or a replay. A burst is
stamped into capture queue 2 while TMR runs, holds the part as receiving until its end, and is counted where its CRC fails;
without reception nothing happens (08 R187; 12 R280 to R283, R289). -/
def Obligations.FramesAreChecked : Prop :=
  ∀ (typ dt : Nat) (f : RxFrame) (s : State), live s = true → 1 ≤ typ → typ < 256 → let r := elapse dt s
    let c := frameOf typ dt f
    let d := { r with link := { r.link with rxEnd := now r, idleAt := max r.link.idleAt (now r + usTicks 112) } }
    let u := linkCount (if f.bursts = .both then 5 else 6) d
    let content := leBytes 1 typ ++ f.payload
    let real := 9 ≤ typ → lenOk typ f.payload.length = false ∨ typ = 9
    let known := slotReady r r.link.keySlot = true ∧ frameAuth r typ f.src.toNat f.ctr.toNat f.payload = f.auth
    (canRx r = false → exec c s = .next r ∧ ∀ left g, exec (.criucBurstDetected dt left g) s = .next r) ∧
    (canRx r = true → real →
      (f.bursts = .differ → exec c s = .next (linkCount 8 d)) ∧
      (f.bursts ≠ .differ →
        (lenOk typ f.payload.length = false → exec c s = .next (linkCount 9 u)) ∧
        (lenOk typ f.payload.length = true →
          (¬known → ∃ t, exec c s = .next t ∧
            t.link = { (linkCount 10 u).link with strangers := t.link.strangers } ∧
            t = { r with link := t.link, tamp := t.tamp }) ∧
          (known → freshness r f.src.toNat f.ctr.toNat content = .dup → exec c s = .next (linkCount 12 u)) ∧
          (known → freshness r f.src.toNat f.ctr.toNat content = .replay → exec c s = .next (linkCount 11 u)) ∧
          (known → freshness r f.src.toNat f.ctr.toNat content = .fresh → typ = 9 → exec c s = .next (linkCount 13 u))))) ∧
    (10 ≤ typ → lenOk typ f.payload.length = false) ∧
    (canRx r = true → ∀ left g, ∃ t, exec (.criucBurstDetected dt left g) s = .next t ∧
      (let q := r.tmr.capq[2]
       (tmrRuns r = true → q.held.length < 4 → t.tmr.capq[2] = { q with held := q.held ++ [(now r, false)] }) ∧
       (tmrRuns r = true → 4 ≤ q.held.length →
         t.tmr.capq[2].held = q.held ∧ t.tmr.capq[2].lostNow = min (q.lostNow + 1) 65535) ∧
       (tmrRuns r = false → t.tmr.capq[2] = q)) ∧
      (∀ i : Fin 4, i ≠ 2 → t.tmr.capq[i] = r.tmr.capq[i]) ∧
      t.link = { (if g = true then r.link else (linkCount 7 r).link) with rxEnd := max r.link.rxEnd (now r + left) } ∧
      t = { r with tmr := { r.tmr with capq := t.tmr.capq }, link := t.link })

/-- A frame that passed every check is accepted: its SRC and CTR go to the head of the receive table. A beacon gives a part
that is no Pole its reference, its Pole, the beacon number and the roster, and by it the membership; at the Pole a beacon of
a Pole that ranks before it makes it demote. A report is kept as its Star's, a JOIN enrols its sender, a NOTICE makes the part
a Dim Star, a LEAVE strikes its sender off the Pole's roster, a CFG block is adopted and queued, an ALARM marks its Star, a
Sprue request enters with the link's origin; a frame out of its role changes nothing but its counter (12 R281, R289, R291,
R292, R294 to R296, R300, R302, R303, R312). -/
def Obligations.AcceptedFramesAct : Prop :=
  ∀ (dt : Nat) (f : RxFrame) (s : State), live s = true → let r := elapse dt s
    let u := linkCount (if f.bursts = .both then 5 else 6)
      { r with link := { r.link with rxEnd := now r, idleAt := max r.link.idleAt (now r + usTicks 112) } }
    let src := f.src.toNat
    let p := f.payload
    let v (typ : Nat) : State := rxAccept src f.ctr.toNat (leBytes 1 typ ++ p) u
    let passes (typ : Nat) : Prop := canRx r = true ∧ f.bursts ≠ .differ ∧ lenOk typ p.length = true ∧
      slotReady r r.link.keySlot = true ∧ frameAuth r typ src f.ctr.toNat p = f.auth ∧
      freshness r src f.ctr.toNat (leBytes 1 typ ++ p) = .fresh
    (∀ typ, (v typ).link.rxTable.head? = some (src, f.ctr.toNat, leBytes 1 typ ++ p)) ∧
    (passes 1 → beaconOk f r = false → exec (.beacon dt f) s = .next (linkCount 13 u)) ∧
    (passes 1 → beaconOk f r = true → Quiet r →
      (r.link.role ≠ .pole → bcnFlag p 1 = false → bcnFlag p 2 = false → ∃ t, exec (.beacon dt f) s = .next t ∧
        t.link.heard = true ∧ t.link.poleSer = src ∧ t.link.polePrio = byteAt p 1 ∧ t.link.bn = leAt p 3 4 ∧
        t.link.refAt = some (now r - frameTicks 1 p.length) ∧ t.link.missed = 0 ∧ t.link.poleLost = false ∧
        t.link.roster = bcnRoster p ∧ t.link.split = bcnFlag p 0 ∧
        (r.link.role ≠ .listening → (bcnRoster p).contains (prm r 0x0101) = true → t.link.role = .member) ∧
        (r.link.role = .member → (bcnRoster p).contains (prm r 0x0101) = false → t.link.role = .joining) ∧
        (r.link.role = .listening → t.link.role = .listening) ∧
        r.tmr.base ≤ t.tmr.base ∧ t.tmr.base ≤ r.tmr.base + 250 ∧ t.gauge = r.gauge ∧ t.sec = r.sec ∧ t.par = r.par) ∧
      (r.link.role = .pole → ∃ t, exec (.beacon dt f) s = .next t ∧ t.link.role = .pole ∧
        (rankWord (byteAt p 1) src < ownRank r → t.link.demote = true ∧ t.link.heir = src) ∧
        (ownRank r ≤ rankWord (byteAt p 1) src → t.link = (v 1).link) ∧ t.tmr = r.tmr ∧ t.par = r.par)) ∧
    (passes 2 → reportOk f r = false → exec (.report dt f) s = .next (linkCount 13 u)) ∧
    (passes 2 → reportOk f r = true → ∃ t, exec (.report dt f) s = .next t ∧
      (starOf t src).report = some p ∧ (starOf t src).reportBn = some r.link.bn ∧ (starOf t src).missed = 0 ∧
      (∀ x, x ≠ src → starOf t x = starOf r x) ∧ t = { r with link := t.link }) ∧
    (passes 3 → r.link.role = .silent ∨ src = prm r 0x0101 ∨ src = 0 → exec (.join dt f) s = .next (linkCount 13 u)) ∧
    (passes 3 → r.link.role ≠ .silent → src ≠ prm r 0x0101 → src ≠ 0 →
      (r.link.role ≠ .pole → ∃ t, exec (.join dt f) s = .next t ∧ (starOf t src).prio = byteAt p 0 ∧
        (starOf t src).pvMin = byteAt p 1 ∧ (starOf t src).pvMax = byteAt p 2 ∧ t.link.roster = r.link.roster ∧
        t = { r with link := t.link }) ∧
      (r.link.role = .pole → r.tmr.rtcValid = true → 1 ≤ byteAt p 3 → byteAt p 1 ≤ 1 → byteAt p 2 = 2 → others r = [] →
        ownRank r ≤ rankWord (byteAt p 0) src →
        ∃ t, exec (.join dt f) s = .next t ∧ t.link.roster = src :: List.replicate 14 0 ∧ t = { r with link := t.link })) ∧
    (passes 4 → noticeOk f r = false → exec (.notice dt f) s = .next (linkCount 13 u)) ∧
    (passes 4 → noticeOk f r = true →
      exec (.notice dt f) s = .next { v 4 with link := { (v 4).link with role := .dim, joinAge := 0 } }) ∧
    (passes 5 → follows r = true → fromListed f r = true →
      (r.link.role = .pole → exec (.leave dt f) s = .next (strike src (v 5))) ∧
      (r.link.role ≠ .pole → exec (.leave dt f) s = .next (v 5))) ∧
    (passes 5 → follows r = false ∨ fromListed f r = false → exec (.leave dt f) s = .next (linkCount 13 u)) ∧
    (passes 6 → cfgOk f r = true → Quiet r → r.pwr.bow = false → r.nv.queue.length < 8 →
      ∃ t, exec (.cfg dt f) s = .next t ∧ t.link.cfg = some p ∧ t.link.gen = leAt p 0 4 ∧ t.link.cfgNeed = false ∧
        t.nv.queue = r.nv.queue ++ [⟨none, now r, .records, [⟨0x50, 0, (p.length + 3) / 4, .bytes p⟩], false, false⟩] ∧
        t.tmr = r.tmr ∧ t.sec = r.sec) ∧
    (passes 6 → cfgOk f r = false → exec (.cfg dt f) s = .next (linkCount 13 u)) ∧
    (passes 7 → ∃ t, exec (.alarm dt f) s = .next t ∧ (starOf t src).alarm = true ∧
      (∀ x, x ≠ src → starOf t x = starOf r x) ∧ t = { r with link := t.link, tamp := t.tamp }) ∧
    (passes 8 → sprueOk f r = true → exec (.sprueReq dt f) s = .next (submitRaw .link src (p.drop 8) (v 8))) ∧
    (passes 8 → sprueOk f r = false → exec (.sprueReq dt f) s = .next (linkCount 13 u))

/-! ## Register writes of the firmware and the debug port's blocks (00_scope.md R7, 16_register_parameter_map.md) -/

/-- SB_CTRL.CAPTURE latches the base, CQ_CTRL captures both tallies with one stamp at the next CBM edge, and a request while
one waits is merged into it; SNAP copies an accumulator or a tracker whole and with its bit 1 clears it, POP takes what a
queue held before this edge and leaves what arrives at it, GO starts a transfer into an open
context and otherwise sets ERR or does nothing. Without edges on the bus, under a halt or before Melt none of them acts (02
R37, R40; 06 R146; 07 R164 to R166; 08 R175, R186; 13 R320). -/
def Obligations.CapturesAndSnapshots : Prop :=
  ∀ (dt : Nat) (s : State), live s = true → let r := elapse dt s
    let sent (c : Instr) (u : State) : Prop := exec c s = .next (alarmTrack u)
    (busUp r = true → Quiet r →
      sent (.sbCtrlCapture dt) { r with tmr := { r.tmr with shadow0 := r.tmr.base } } ∧
      (∀ bits, now r < r.capAt → sent (.tallyCapture dt bits) r) ∧
      (∀ bits, r.capAt ≤ now r → let k := 16 * now r / 250 + 1
        ∃ t, exec (.tallyCapture dt bits) s = .next t ∧ t.capAt = (250 * k + 15) / 16 ∧ t.capStamp = 250 * k / 16 ∧
          t.capStampOld = r.capStamp ∧ t.cqa.cap = t.cqa.tally ∧ t.cqb.cap = t.cqb.tally ∧ t.cqa.capOld = r.cqa.cap ∧
          t.cqb.capOld = r.cqb.cap ∧ (r.cqa.modRun = false → t.cqa.tally = r.cqa.tally) ∧
          (r.cqa.modRun = true →
            t.cqa.tally = wrap48 (r.cqa.tally + bitSum (k - 16 * r.cqa.tallyAt / 250) bits.a)) ∧
          (r.cqb.modRun = true →
            t.cqb.tally = wrap48 (r.cqb.tally + bitSum (k - 16 * r.cqb.tallyAt / 250) bits.b)) ∧
          t.sar = r.sar ∧ t.tmr = r.tmr ∧ t.gauge = r.gauge) ∧
      (∀ (n : Fin 32) (v : BitVec 2),
        (v.getLsbD 0 = false → sent (.accSnap dt n v) r ∧ sent (.trkSnap dt n v) r) ∧
        (v.getLsbD 0 = true →
          sent (.accSnap dt n v) { r with sar := { r.sar with
            accSnap := vset r.sar.accSnap n r.sar.acc[n], snapStamp := vset r.sar.snapStamp n (now r)
            acc := if v.getLsbD 1 then vset r.sar.acc n Acc.empty else r.sar.acc } } ∧
          sent (.trkSnap dt n v) { r with sar := { r.sar with
            trkSnap := vset r.sar.trkSnap n r.sar.trk[n]
            trk := if v.getLsbD 1 then vset r.sar.trk n Trk.empty else r.sar.trk } })) ∧
      (∀ q : Fin 4, let x := r.tmr.capq[q]
        let kept := (x.held ++ x.late).filter fun e => decide (now r ≤ e.1)
        let old (e : Nat × Bool) : Bool := decide (e.1 < now r)
        sent (.pop dt q) { r with tmr := { r.tmr with
          capq := vset r.tmr.capq q { x with
            held := kept.take 4, late := [], lost := kept.length - 4, popped := x.held.filter old
            popLost := min 65535 (x.lost + (x.late.filter old).length) } } }) ∧
      (∀ n : Fin 6, let c := r.sec.ctx[n]
        (c.dlen = 0 ∨ dmaRuns r c = true →
          sent (.go dt n) { r with sec := { r.sec with ctx := vset r.sec.ctx n { c with err := true } } }) ∧
        (c.dlen ≠ 0 → dmaRuns r c = false → c.state = .closed → sent (.go dt n) r) ∧
        (c.dlen ≠ 0 → dmaRuns r c = false → c.state = .opened → ∃ t e, exec (.go dt n) s = .next t ∧
          t.sec.ctx[n].absorbed = (c.absorbed + c.dlen) % 2 ^ 64 ∧ t.sec.ctx[n].dmaEnd = some e ∧ now r < e ∧
          t.sec.ctx[n].state = .opened ∧ t.sec.ctx[n].slot = c.slot ∧
          (∀ i : Fin 6, i ≠ n → t.sec.ctx[i] = r.sec.ctx[i]) ∧ t.sec.keys = r.sec.keys ∧ t.tmr = r.tmr ∧ t.par = r.par))) ∧
    (busUp r = false → (∀ q, exec (.pop dt q) s = .next r) ∧ exec (.sbCtrlCapture dt) s = .next r ∧
      (∀ bits, exec (.tallyCapture dt bits) s = .next r) ∧ (∀ n, exec (.go dt n) s = .next r) ∧
      ∀ n v, exec (.accSnap dt n v) s = .next r ∧ exec (.trkSnap dt n v) s = .next r)

/-- A write of VAL or MODE of a compare channel arms it anew, one of BUF, PRE or SRC sets a countdown, one of CQ_CFG the
window and the order, PATCH_PTR the place and PATCH_DATA the word there, each in range and at the level its POKE needs; below
that level, or out of range, nothing is written. Any other register write acts on its own fields alone: 1s clear flags, the
staging window takes bytes, an address that no table defines stores nothing (06 R145; 08 R177, R179, R183; 13 R321; 15 R375;
16 R376 to R379). -/
def Obligations.RegisterWritesAct : Prop :=
  ∀ (dt : Nat) (v a : Word) (s : State), live s = true → let r := elapse dt s
    let sent (c : Instr) (u : State) : Prop := exec c s = .next (alarmTrack u)
    let n := v.toNat
    let x := a.toNat
    (busUp r = true → Quiet r →
      (r.sec.lock = .opened → 2 ≤ r.start.stage.code →
        (∀ ch : Fin 8, let c := r.tmr.cmp[ch]
          sent (.cmpRegisterWrite dt ch false v) { r with tmr := { r.tmr with
            cmp := vset r.tmr.cmp ch { c with val := n, target := cmpTarget (now r + 1) n } } } ∧
          (cmpModeOk ch (n % 256) = true → sent (.cmpRegisterWrite dt ch true v) { r with tmr := { r.tmr with
            cmp := vset r.tmr.cmp ch { c with
              mode := BitVec.ofNat 8 n, target := cmpTarget (now r + 1) c.val
              fired := c.fired && (!v.getLsbD 8 || decide (c.firedAt = now r)) } } }) ∧
          (cmpModeOk ch (n % 256) = false → exec (.cmpRegisterWrite dt ch true v) s = .next (alarmTrack r))) ∧
        (∀ k : Fin 4, let c := r.tmr.cdn[k]
          let put (d : Cdn) : State := { r with tmr := { r.tmr with cdn := vset r.tmr.cdn k d } }
          sent (.cdnRegisterWrite dt k 0 v) (put (c.set n c.n c.f c.src)) ∧
          (1 ≤ n % 65536 → cdnSetOk k (n % 65536) c.src.toNat = true →
            sent (.cdnRegisterWrite dt k 1 v) (put (c.set c.buf (n % 65536) (n / 65536 % 256) c.src))) ∧
          (n % 65536 = 0 → sent (.cdnRegisterWrite dt k 1 v) r) ∧
          (cdnSetOk k 1 (n % 256) = true → sent (.cdnRegisterWrite dt k 2 v) (put (c.set c.buf c.n c.f (BitVec.ofNat 8 n))))) ∧
        (32 ≤ n % 2 ^ 21 → n % 2 ^ 21 ≤ 1048576 →
          let q (c : Cq) : Cq := { c with win := n % 2 ^ 21, order := n / 2 ^ 24 % 4 }
          sent (.cqCfgWrite dt .a v) { r with cqa := q r.cqa, start := { r.start with poked := true } } ∧
          sent (.cqCfgWrite dt .b v) { r with cqb := q r.cqb, start := { r.start with poked := true } }) ∧
        (n % 2 ^ 21 < 32 ∨ 1048576 < n % 2 ^ 21 → ∀ b, sent (.cqCfgWrite dt b v) r) ∧
        (n ≤ 4095 → sent (.patchPtrWrite dt v) { r with nv := { r.nv with patchPtr := n, patchFull := false } }) ∧
        (4095 < n → sent (.patchPtrWrite dt v) r) ∧
        (r.nv.patchFull = false → sent (.patchDataWrite dt v) { r with nv := { r.nv with
          patch := sparseSet 0xFFFFFFFF#32 r.nv.patchPtr v r.nv.patch, patchPtr := min 4095 (r.nv.patchPtr + 1)
          patchFull := decide (r.nv.patchPtr = 4095) } }) ∧
        (r.nv.patchFull = true → sent (.patchDataWrite dt v) r)) ∧
      (blockOf x = none → sent (.registerWrite dt a v) r) ∧
      (x = 0x40020010 → sent (.registerWrite dt a v)
        { r with pwr := { r.pwr with bowSeen := r.pwr.bowSeen && !v.getLsbD 1 } }) ∧
      (x = 0x40010010 → sent (.registerWrite dt a v) { r with clk := { r.clk with
        xtalFail := r.clk.xtalFail && !v.getLsbD 2, lodeUnlock := r.clk.lodeUnlock && !v.getLsbD 3 } }) ∧
      (0x400B1000 ≤ x → x < 0x400B2000 → x % 4 = 0 → sparseWf 0 r.sec.staging = true → ∃ t, exec (.registerWrite dt a v) s = .next t ∧
        (∀ i < 4, sparseGet 0 t.sec.staging (x % 4096 + i) = (leBytes 4 n).getD i 0) ∧
        (∀ i, i < x % 4096 ∨ x % 4096 + 4 ≤ i → sparseGet 0 t.sec.staging i = sparseGet 0 r.sec.staging i) ∧
        t.sec = { r.sec with staging := t.sec.staging } ∧ t.tmr = r.tmr ∧ t.par = r.par ∧ t.nv = r.nv)) ∧
    (busUp r = false ∨ r.start.stage.code < 2 ∨ r.sec.lock = .sealed →
      (∀ ch m, exec (.cmpRegisterWrite dt ch m v) s = .next r) ∧ (∀ k g, exec (.cdnRegisterWrite dt k g v) s = .next r) ∧
      (∀ b, exec (.cqCfgWrite dt b v) s = .next r) ∧ exec (.patchPtrWrite dt v) s = .next r ∧
      exec (.patchDataWrite dt v) s = .next r) ∧
    (busUp r = false → exec (.registerWrite dt a v) s = .next r)

/-! ## The block as a whole -/

/-- A step runs the command at the front of the queue on the state with the queue's rest; on an empty queue one edge of the
base clock passes (assumption log 1). -/
def Obligations.StepRunsTheFrontCommand : Prop :=
  (∀ (c : Instr) (q : List Instr) (s : State), step { s with pending := c :: q } = exec c { s with pending := q }) ∧
    ∀ s : State, s.pending = [] → step s = .next (elapse 1 s)

/-- Every step answers a next state: no command ends in a fault or a refusal, in any state. -/
def Obligations.EveryStepIsSafe : Prop := ∀ s : State, Safe s

/-- While nothing sleeps, time moves the clocks, the timers, the residency counters and a running transmission on, may cancel
a decided entry by a timer that wakes, and changes nothing else (02 R37; 08 R173). -/
def AwakeTimeMovesTheClocks : Prop :=
  ∀ (dt : Nat) (s : State), live s = true → s.pwr.mode = .run → let r := elapse dt s
    r = { s with tmr := r.tmr, pwr := r.pwr, link := r.link } ∧
    r.pwr = { s.pwr with
      entry := r.pwr.entry, resWatch := r.pwr.resWatch, resWatchL := r.pwr.resWatchL, resDoze := r.pwr.resDoze, resRun := r.pwr.resRun
      resBurst := r.pwr.resBurst, deferred := r.pwr.deferred } ∧
    r.link = { s.link with sending := r.link.sending, txEnd := r.link.txEnd, counters := r.link.counters }

/-- While TMR runs, which it does in Run alone, the base adds 1 at every TMR edge; while TMR is stopped it counts coarse and stands, after
the AON edge that is `dt` edges on, at that edge's multiple of 250. TMR is stopped where Lode is off and in debug halt. No
time is counted while the logic is held in reset (02 R37; 08 R174). -/
def BaseCountsEdges : Prop :=
  ∀ (dt : Nat) (s : State), let r := elapse dt s
    (live s = true → s.clk.lode = .on → s.clk.halt = false → s.pwr.mode = .run → r.tmr.base = s.tmr.base + dt) ∧
    (live s = true → s.clk.lode ≠ .on ∨ s.clk.halt = true →
      r.tmr.base = max s.tmr.base ((s.tmr.base / 250 + dt) * 250)) ∧
    (live s = false → r = s)

/-- Time passes as its rules say. -/
def Obligations.TimePassesAlone : Prop := AwakeTimeMovesTheClocks ∧ BaseCountsEdges

/-- The machine right after reset: the base at 0 in Ember by power-on, Lode off on the LFRC, every OV fault asserted and so
PRTA_N driven, PRTB_N driven until the first scan, the Ember limits in force, no fault, nothing in flight, the part live (02 R43; 04 R76, R79, R82; 06 R128,
R130; 08 R173). -/
def Obligations.ResetLeavesEmber : Prop :=
  let s := State.reset
  s.pending = [] ∧ live s = true ∧ s.tmr.base = 0 ∧ s.start.stage = .ember ∧ s.start.reason = 1 ∧ s.start.fault = 0 ∧
    s.start.warmCount = 0 ∧ s.clk.lode = .off ∧ s.clk.onLfrc = true ∧ s.clk.fllLock = false ∧
    (∀ i : Fin 16, s.afe.ov[i] = true) ∧ s.afe.emberLim = true ∧ prtA s = true ∧ prtB s = true ∧ s.tmr.rtcValid = false ∧
    s.tmr.rtcSec = 0 ∧ s.pwr.mode = .run ∧ s.pol.pins = 0 ∧ s.pol.dpas = false ∧ Quiet s

/-- Every step keeps the bounds of the stores and the canonical form of the buffers, from every state that has them. -/
def Obligations.StepKeepsBounds : Prop := ∀ s t : State, Bounded s → step s = .next t → Bounded t

/-- The machine right after reset has them. -/
def Obligations.ResetIsBounded : Prop := Bounded State.reset
end

