-- ==== Sys2Proof/Laws/Settle.lean ====
section
/-! SUPPORT. What the sequencer does when nothing is in flight: the state settles at once, and only the alarm bits of the
host port are judged anew. -/

namespace Sys2Proof.Machine

theorem ops_eq_nil {s : State} (h : ∀ i : Fin 8, s.sprue.slots[i] = none) : ops s = [] := by
  unfold ops
  rw [List.filterMap_eq_nil_iff]
  intro x hx
  rw [Vector.mem_toList_iff, Vector.mem_iff_getElem] at hx
  obtain ⟨i, hi, rfl⟩ := hx
  exact h ⟨i, hi⟩

/-- Judging the alarm bits changes the host port alone. -/
theorem alarmTrack_eq (s : State) : alarmTrack s = { s with host := (alarmTrack s).host } := by
  unfold alarmTrack fullTrack; dsimp only; split_ifs <;> rfl

/-- Of the host port it changes the charge flags, the alarm bits and the causes they raise. -/
theorem alarmTrack_host (s : State) :
    (alarmTrack s).host = { s.host with
      fullChg := (alarmTrack s).host.fullChg
      fullDsg := (alarmTrack s).host.fullDsg
      alarms := (alarmTrack s).host.alarms
      alerts := (alarmTrack s).host.alerts
      notifies := (alarmTrack s).host.notifies } := by
  unfold alarmTrack fullTrack; dsimp only; split_ifs <;> rfl

/-- No reply leaves while no operation and no early reply is there. -/
theorem deliverAll_nil {s : State} (ho : ops s = []) (he : s.sprue.early = []) (n : Nat) : deliverAll n s = s := by
  cases n with
  | zero => rfl
  | succ n =>
    have h (p : Port) : deliver p s = none := by simp [deliver, firstEarly, firstOwing, ho, he]
    simp [deliverAll, h]

/-- Without an operation in flight none hands over its reply. -/
theorem releaseAll_nil {s : State} (ho : ops s = []) : releaseAll s = s := by simp [releaseAll, ho]

/-- The sequencer has nothing to do while nothing is in flight. -/
theorem pump_nil {s : State} (ho : ops s = []) (he : s.sprue.early = []) (hh : s.sprue.held = []) (n : Nat) :
    pump n s = s := by
  cases n with
  | zero => rfl
  | succ n => simp [pump, deliverAll_nil ho he, releaseAll_nil ho, storeAll, takeHeld, nextStart, ho, hh]

theorem runDeferred_nil {s : State} (h : s.pwr.deferred = []) (n : Nat) : runDeferred n s = s := by
  cases n <;> simp [runDeferred, h, takeLeft]

/-- With nothing in flight, settling only judges the alarm bits. -/
theorem settle_quiet {s : State} (h : Quiet s) : settle s = alarmTrack s := by
  have he := alarmTrack_eq s
  have ho : ops (alarmTrack s) = [] := by rw [he]; exact ops_eq_nil h.slots
  have h1 : (alarmTrack s).sprue.early = [] := by rw [he]; exact h.early
  have h2 : (alarmTrack s).sprue.held = [] := by rw [he]; exact h.held
  have h3 : (alarmTrack s).pwr.deferred = [] := by rw [he]; exact h.deferred
  simp [settle, ho, pump_nil ho h1 h2, runDeferred_nil h3]

end Sys2Proof.Machine
end

