-- ==== Sys2Proof/Laws/Slots.lean ====
section
/-! SUPPORT. The slots of the command sequencer: what changing, freeing and taking a slot does to the operations in
flight. -/

namespace Sys2Proof.Machine

theorem ops_mapOps (f : Oper → Oper) (s : State) : ops (mapOps f s) = (ops s).map f := by
  simp only [ops, mapOps, Vector.toList_map, List.filterMap_map, List.map_filterMap]
  congr 1

theorem ops_freeOp (i : Nat) (s : State) : ops (freeOp i s) = (ops s).filter fun o => o.id != i := by
  simp only [ops, freeOp, Vector.toList_map, List.filterMap_map, List.filter_filterMap]
  congr 1; funext x
  cases x with
  | none => rfl
  | some o => by_cases h : o.id = i <;> simp [Function.comp, Option.filter, h]

theorem mapOps_eq (f : Oper → Oper) (s : State) :
    mapOps f s = { s with sprue := { s.sprue with slots := (mapOps f s).sprue.slots } } := rfl

theorem modOp_eq (i : Nat) (f : Oper → Oper) (s : State) :
    modOp i f s = { s with sprue := { s.sprue with slots := (modOp i f s).sprue.slots } } := rfl

theorem setFinal_eq (i : Nat) (st : Byte) (b : List Byte) (s : State) :
    setFinal i st b s = { s with sprue := { s.sprue with slots := (setFinal i st b s).sprue.slots } } := rfl

theorem freeOp_eq (i : Nat) (s : State) :
    freeOp i s = { s with sprue := { s.sprue with slots := (freeOp i s).sprue.slots } } := rfl

end Sys2Proof.Machine
end

