-- ==== Sys2Proof/Laws/Request.lean ====
section
/-! SUPPORT. A request that arrives with nothing in flight, is admitted, passes its checks and ends at once: its reply
leaves at once and its slot is free again (03_sprue_commands.md R54, R57, R63). -/

namespace Sys2Proof.Machine

/-! The fields of that operation. -/

@[simp] theorem opFor_id (op : Op) (p : Pkt) (r : State) : (opFor op p r).id = r.sprue.nextId := rfl

@[simp] theorem opFor_op (op : Op) (p : Pkt) (r : State) : (opFor op p r).op = op := rfl

@[simp] theorem opFor_origin (op : Op) (p : Pkt) (r : State) : (opFor op p r).origin = p.origin := rfl

@[simp] theorem opFor_tag (op : Op) (p : Pkt) (r : State) : (opFor op p r).tag = p.tag := rfl

@[simp] theorem opFor_flg (op : Op) (p : Pkt) (r : State) : (opFor op p r).flg = p.flg := rfl

@[simp] theorem opFor_arg (op : Op) (p : Pkt) (r : State) : (opFor op p r).arg = p.arg := rfl

@[simp] theorem opFor_payload (op : Op) (p : Pkt) (r : State) : (opFor op p r).payload = p.payload := rfl

@[simp] theorem opFor_stamp (op : Op) (p : Pkt) (r : State) : (opFor op p r).stamp = now r := rfl

@[simp] theorem opFor_argN (op : Op) (p : Pkt) (r : State) : (opFor op p r).argN = p.arg.toNat := rfl

/-- Steps 6 to 14 refuse nothing where each of them passes. -/
theorem opRefusal_none {s : State} {o : Oper} (h6 : atLeast s (firstStage o) = true) (h7 : quenchHit s o = false)
    (h8 : lockoutHit s o = none) (h9 : levelOk s o = true) (h10 : lengthOk s o = true) (h11 : argOk s o = true)
    (h12 : rangeOk s o = true) (hr : remoteHit s o = false) (h13 : conflictAt s o = none)
    (h14 : resourceFree s o = true) : opRefusal s o = none := by
  simp [opRefusal, h6, h7, h8, h9, h10, h11, h12, hr, h13, h14]

/-- An operation without targets meets no window. -/
theorem conflictAt_nil {s : State} {o : Oper} (h : targetsOf s o = []) : conflictAt s o = none := by
  unfold conflictAt; split_ifs
  · rfl
  · rw [h]; rfl

/-- The state in which the checks of a request are made: its operation stands in the port's own slot. -/
def startState (op : Op) (p : Pkt) (r : State) : State :=
  let t := alarmTrack { arrive p.origin r with sprue := { r.sprue with
    nextId := r.sprue.nextId + 1
    slots := vset r.sprue.slots (portSlot (originPort p.origin)) (some (opFor op p r)) } }
  modOp r.sprue.nextId (fun x => { x with waiting := false }) t

theorem entryTouch_eq (o : Origin) (s : State) :
    entryTouch o s = { s with pwr := { s.pwr with entry := (entryTouch o s).pwr.entry } } := by
  unfold entryTouch cancelEntry; split <;> (try split_ifs) <;> rfl

theorem arrive_eq (o : Origin) (s : State) :
    arrive o s = { s with pwr := { s.pwr with
      entry := (arrive o s).pwr.entry
      idleSince := (arrive o s).pwr.idleSince } } := by
  unfold arrive; rw [entryTouch_eq]; dsimp only; split_ifs <;> rfl

theorem entryTouch_none {o : Origin} {s : State} (h : s.pwr.entry = none) : entryTouch o s = s := by
  unfold entryTouch cancelEntry
  split <;> (try split_ifs) <;> (try rfl)
  cases s with | mk _ _ p => cases p; simp_all

theorem vget_quiet {r : State} (h : Quiet r) (i : Nat) : vget r.sprue.slots i none = none := by
  unfold vget
  by_cases hi : i < 8
  · have := h.slots ⟨i, hi⟩
    simpa [Vector.getD, hi] using this
  · simp [Vector.getD, hi]

theorem freeSlot_quiet {r : State} (h : Quiet r) (q : Port) : freeSlot r q = some (portSlot q) := by
  simp [freeSlot, vget_quiet h]

theorem portSlot_lt (q : Port) : portSlot q < 8 := by cases q <;> decide

/-- One slot taken in a state with every slot free. -/
theorem ops_vset {r t : State} (h : Quiet r) {i : Nat} (hi : i < 8) (o : Oper)
    (ht : t.sprue.slots = vset r.sprue.slots i (some o)) : ops t = [o] := by
  have e : r.sprue.slots = Vector.replicate 8 none := by
    apply Vector.ext; intro j hj
    have := h.slots ⟨j, hj⟩
    simpa using this
  rw [ops, ht, e]
  have : i = 0 ∨ i = 1 ∨ i = 2 ∨ i = 3 ∨ i = 4 ∨ i = 5 ∨ i = 6 ∨ i = 7 := by omega
  rcases this with rfl | rfl | rfl | rfl | rfl | rfl | rfl | rfl <;> rfl

/-- Where the only operation in flight awaits its start, nothing leaves yet. -/
theorem deliverAll_waits {s : State} {o : Oper} (ho : ops s = [o]) (he : s.sprue.early = [])
    (hi : o.interim = none) (hf : o.final = none) (n : Nat) : deliverAll n s = s := by
  cases n with
  | zero => rfl
  | succ n =>
    have h (p : Port) : deliver p s = none := by
      have h1 : firstEarly s p = none := by simp [firstEarly, he]
      by_cases hc : (originPort o.origin == p && !o.replied) = true
      · have h2 : firstOwing s p = some o := by simp [firstOwing, ho, List.filter, hc]
        simp [deliver, h1, h2, hi, hf]
      · have h2 : firstOwing s p = none := by simp [firstOwing, ho, List.filter, hc]
        simp [deliver, h1, h2]
    simp [deliverAll, h]

/-- Where the only operation in flight has its final status, its reply leaves and its slot is free. -/
theorem deliverAll_final {s : State} {o : Oper} {f : Byte × List Byte} (ho : ops s = [o]) (he : s.sprue.early = [])
    (hi : o.interim = none) (hf : o.final = some f) (hr : o.replied = false)
    (hn : o.origin ≠ .internal ∨ f.1 = stOk)
    (hq : (suppressed o.flg f.1 || hasRoom s o.origin) = true) (n : Nat) :
    deliverAll (n + 1) s =
      deliverAll n (freeOp o.id (emit o.origin o.peer (suppressed o.flg f.1) (opReply o f.1 f.2) s)) := by
  have h1 (p : Port) : firstEarly s p = none := by simp [firstEarly, he]
  have h2 (p : Port) (hp : p ≠ originPort o.origin) : deliver p s = none := by
    have : (originPort o.origin == p && !o.replied) = false := by
      simp; intro h; exact absurd h.symm hp
    have h3 : firstOwing s p = none := by simp [firstOwing, ho, List.filter, this]
    simp [deliver, h1, h3]
  have h4 : deliver (originPort o.origin) s =
      some (freeOp o.id (emit o.origin o.peer (suppressed o.flg f.1) (opReply o f.1 f.2) s)) := by
    have h3 : firstOwing s (originPort o.origin) = some o := by simp [firstOwing, ho, List.filter, hr]
    have h5 : logInternal o f.1 s = s := by rcases hn with hn | hn <;> simp [logInternal, hn]
    simp only [deliver, h1, h3, hi, hf, h5, hq, if_true]
  have h6 : [Port.internal, .host, .field, .link].findSome? (fun p => deliver p s) =
      some (freeOp o.id (emit o.origin o.peer (suppressed o.flg f.1) (opReply o f.1 f.2) s)) := by
    rcases hp : originPort o.origin with _ | _ | _ | _ <;> rw [hp] at h2 h4 <;>
      simp [List.findSome?, h2, h4]
  simp [deliverAll, h6]

/-! ## What a reply changes -/

theorem modDeferred_nil {i : Nat} {f : Deferred → Deferred} {s : State} (h : s.pwr.deferred = []) :
    modDeferred i f s = s := by
  cases s with | mk _ _ p => cases p; simp_all [modDeferred]

theorem replySent_pwr (i t : Nat) {s : State} (h : s.pwr.deferred = []) : (replySent i t s).pwr = s.pwr :=
  congrArg State.pwr (modDeferred_nil h)

theorem before_irrefl (o : Oper) : before o o = false := by simp [before]

/-- An SDI-12 response changes the field port, and marks what waits for its reply. -/
theorem sdiAnswer_eq (s : State) : sdiAnswer s = { s with pwr := (sdiAnswer s).pwr, field := (sdiAnswer s).field } := by
  unfold sdiAnswer sdiFetch sdiLapse sdiSend sdiSendAt
  dsimp only
  split_ifs <;> (repeat' split) <;> rfl

theorem sdiAnswer_pwr {s : State} (h : s.pwr.deferred = []) : (sdiAnswer s).pwr = s.pwr := by
  unfold sdiAnswer sdiFetch sdiLapse sdiSend sdiSendAt
  dsimp only
  split_ifs <;> (repeat' split) <;> first | rfl | exact replySent_pwr _ _ h

/-- Of the field port it changes the response on the line. -/
theorem sdiAnswer_field (s : State) : (sdiAnswer s).field = { s.field with
    sdiReply := (sdiAnswer s).field.sdiReply, sdiOut := (sdiAnswer s).field.sdiOut
    sdiFrom := (sdiAnswer s).field.sdiFrom, sdiTo := (sdiAnswer s).field.sdiTo
    sdiWait := (sdiAnswer s).field.sdiWait, sdiLast := (sdiAnswer s).field.sdiLast } := by
  unfold sdiAnswer sdiFetch sdiLapse sdiSend sdiSendAt
  dsimp only
  split_ifs <;> (repeat' split) <;> rfl

theorem sdiAnswer_now (v : State) (f : FieldPort) : now { sdiAnswer v with field := f } = now v := by
  rw [sdiAnswer_eq v]; rfl

/-- The response depends on the field port, the instant and the address in force. -/
theorem sdiAnswer_congr {a b : State} (hf : a.field = b.field) (hn : now a = now b) (ha : sdiAddr a = sdiAddr b) :
    (sdiAnswer a).field = (sdiAnswer b).field := by
  have h (t : Nat) (l : List Byte) : (sdiSendAt t l a).field = (sdiSendAt t l b).field := by
    simp only [sdiSendAt, hf]
  have hl : (sdiLapse a).field = (sdiLapse b).field := by
    unfold sdiLapse; rw [hf, hn, ha]; split <;> (try split_ifs) <;> first | exact h _ _ | exact hf
  have hx : (sdiFetch a).field = (sdiFetch b).field := by
    unfold sdiFetch sdiSend sdiSendAt
    dsimp only
    have hn' (x : FieldPort) : now { a with field := x } = now { b with field := x } := hn
    simp only [hf, hn, ha, hn']
    split
    · rfl
    · split
      · split_ifs <;> rfl
      · rfl
  unfold sdiAnswer
  rw [hl, hf]
  split_ifs <;> assumption

/-- A reply changes neither the slots nor what waits for a turn. -/
theorem emit_sprue (g : Origin) (peer : Nat) (q : Bool) (x : Reply) (s : State) :
    (emit g peer q x s).sprue = { s.sprue with answer := (emit g peer q x s).sprue.answer } := by
  cases g <;> simp only [emit, queueFrame] <;> (try split_ifs) <;> first | rfl | (rw [sdiAnswer_eq])

/-- It changes the supply block only where an action waits for it. -/
theorem emit_pwr (g : Origin) (peer : Nat) (q : Bool) (x : Reply) {s : State} (h : s.pwr.deferred = []) :
    (emit g peer q x s).pwr = s.pwr := by
  cases g <;> simp only [emit, queueFrame] <;> (try split_ifs) <;> first | rfl | exact sdiAnswer_pwr h

theorem ops_congr {s t : State} (h : s.sprue.slots = t.sprue.slots) : ops s = ops t := by simp [ops, h]

/-- The sequencer with one operation in flight whose final status is known. -/
theorem pump_final {s : State} {o : Oper} {f : Byte × List Byte} (ho : ops s = [o]) (he : s.sprue.early = [])
    (hh : s.sprue.held = []) (hi : o.interim = none) (hf : o.final = some f) (hr : o.replied = false)
    (hn : o.origin ≠ .internal ∨ f.1 = stOk) (hq : (suppressed o.flg f.1 || hasRoom s o.origin) = true) (n : Nat) :
    pump (n + 1) s = freeOp o.id (emit o.origin o.peer (suppressed o.flg f.1) (opReply o f.1 f.2) s) := by
  have hd := deliverAll_final ho he hi hf hr hn hq 15
  have hs := emit_sprue o.origin o.peer (suppressed o.flg f.1) (opReply o f.1 f.2) s
  generalize hu : freeOp o.id (emit o.origin o.peer (suppressed o.flg f.1) (opReply o f.1 f.2) s) = u at hd
  have u1 : ops u = [] := by
    rw [← hu, ops_freeOp, ops_congr (t := s) (by rw [hs]), ho]; simp
  have u2 : u.sprue.early = [] := by rw [← hu, freeOp_eq]; show (emit _ _ _ _ _).sprue.early = _; rw [hs]; exact he
  have u3 : u.sprue.held = [] := by rw [← hu, freeOp_eq]; show (emit _ _ _ _ _).sprue.held = _; rw [hs]; exact hh
  rw [deliverAll_nil u1 u2] at hd
  show pump (n + 1) s = u
  simp [pump, hd, releaseAll_nil u1, storeAll, takeHeld, nextStart, u1, u3]

/-- Settling with one operation in flight that has yet to start. -/
theorem settle_start {t : State} {o : Oper} (ho : ops t = [o]) (he : t.sprue.early = []) (hh : t.sprue.held = [])
    (hw : o.waiting = true) (hi : o.interim = none) (hf : o.final = none) (hl : t.clk.halt = false) :
    settle t = runDeferred 8 (pump 31 (startOp o (alarmTrack t))) := by
  have e := alarmTrack_eq t
  have h1 : ops (alarmTrack t) = [o] := by rw [e]; exact ho
  have h2 : (alarmTrack t).sprue.early = [] := by rw [e]; exact he
  have h3 : (alarmTrack t).sprue.held = [] := by rw [e]; exact hh
  have h4 : (alarmTrack t).clk.halt = false := by rw [e]; exact hl
  have h5 : authSettle (alarmTrack t) o = alarmTrack t := by simp [authSettle, hw]
  have h6 : markSettle (alarmTrack t) o = alarmTrack t := by simp [markSettle, hw]
  have h7 : deliverAll 16 (alarmTrack t) = alarmTrack t := deliverAll_waits h1 h2 hi hf 16
  have h8 : storeAll (alarmTrack t) = alarmTrack t := by simp [storeAll, h1, hf]
  have h12 : releaseAll (alarmTrack t) = alarmTrack t := by simp [releaseAll, release, h1, hi, hf]
  have h9 : takeHeld (alarmTrack t) = alarmTrack t := by simp [takeHeld, h3]
  have h10 : startable (alarmTrack t) o = true := by simp [startable, hw, hf, h1, before_irrefl]
  have h11 : nextStart (alarmTrack t) = some o := by simp [nextStart, h4, h1, List.filter, h10]
  simp [settle, h1, h5, h6, pump, h7, h12, h8, h9, h11]

/-- Where no packet that starts before it still comes at this edge, the sequencer goes on with a request at once. -/
theorem submit_now {op : Op} {p : Pkt} {r : State} (hx : earlierComes r p.origin = false) :
    submit op p r = submitNow op p r := by
  have h (t : State) (h : t.pending = r.pending) : closeEdge p.origin t = settle t := by
    have : earlierComes t p.origin = false := by unfold earlierComes at hx ⊢; rw [h]; exact hx
    simp [closeEdge, this]
  have ha := arrive_eq p.origin r
  simp only [submit, submitNow]
  split_ifs
  · apply h
    unfold arriveOp
    dsimp only
    split_ifs
    · unfold dropRequest; split_ifs <;> rw [ha]
    · unfold enter refuse
      dsimp only
      split
      · rw [ha]
      · split <;> rw [ha]
  · rfl

/-- An admitted request with nothing else in flight is started in the state `startState` describes. -/
theorem submitNow_start {op : Op} {p : Pkt} {r : State} (hq : Quiet r) (hp : portOpen p.origin r = true)
    (hr : queueShut p.origin r = false) (hl : r.clk.halt = false) (ht : tagBusy r p.origin p.tag = false) :
    submitNow op p r = runDeferred 8 (pump 31 (startOp (opFor op p r)
      (alarmTrack { arrive p.origin r with sprue := { r.sprue with
        nextId := r.sprue.nextId + 1
        slots := vset r.sprue.slots (portSlot (originPort p.origin)) (some (opFor op p r)) } }))) := by
  have ha := arrive_eq p.origin r
  have hs : (arrive p.origin r).sprue = r.sprue := by rw [ha]
  have hh : (arrive p.origin r).host = r.host := by rw [ha]
  have hn : now (arrive p.origin r) = now r := by rw [ha]; rfl
  have hc : (arrive p.origin r).clk = r.clk := by rw [ha]
  have h1 : queueShut p.origin (arrive p.origin r) = false := by
    simpa [queueShut, hostRdy, hh] using hr
  have qa : Quiet (arrive p.origin r) :=
    ⟨by rw [hs]; exact hq.slots, by rw [hs]; exact hq.held, by rw [hs]; exact hq.early, by rw [ha]; exact hq.deferred⟩
  have h2 : tagBusy (arrive p.origin r) p.origin p.tag = false := by
    have o1 := ops_eq_nil hq.slots
    have o2 := ops_eq_nil qa.slots
    simp only [tagBusy, o1, o2, hs, resultsOf] at ht ⊢
    exact ht
  have h3 : admission (arrive p.origin r) p.origin p.tag = none := by simp [admission, freeSlot_quiet qa, h2]
  have h4 : enter op p 0 (arrive p.origin r) = { arrive p.origin r with sprue := { r.sprue with
        nextId := r.sprue.nextId + 1
        slots := vset r.sprue.slots (portSlot (originPort p.origin)) (some (opFor op p r)) } } := by
    simp only [enter, h3]
    have q2 : Quiet { arrive p.origin r with
        sprue := { (arrive p.origin r).sprue with nextId := (arrive p.origin r).sprue.nextId + 1 } } :=
      ⟨qa.slots, qa.held, qa.early, qa.deferred⟩
    rw [freeSlot_quiet q2]
    simp only [hs, hn, opFor]
  simp only [submitNow, arriveOp, hp, h1, h4, Bool.false_eq_true, if_false, if_true]
  rw [settle_start (o := opFor op p r)]
  · exact ops_vset hq (portSlot_lt _) _ rfl
  · exact hq.early
  · exact hq.held
  · rfl
  · rfl
  · rfl
  · rw [show _ = (arrive p.origin r).clk.halt from rfl, hc]; exact hl

/-- The state in which a started operation runs: a lock class U packet has renewed LOCK_TIMEOUT (13 R333). -/
def runState (op : Op) (p : Pkt) (r : State) : State :=
  let s := startState op p r
  if lockU op then { s with sec := { s.sec with lockAt := now s } } else s

/-- What an operation that ran leaves: its final status, and the windows of what it wrote (R71). -/
def ranState (op : Op) (p : Pkt) (r : State) (st : Byte) (b : List Byte) (s : State) : State :=
  let t := setFinal r.sprue.nextId st b s
  if st == stOk then
    pruneWindows { t with sprue := { t.sprue with
      windows := t.sprue.windows ++ openWindows (startState op p r) (opFor op p r) } }
  else t

theorem pruneWindows_slots (s : State) : (pruneWindows s).sprue.slots = s.sprue.slots := rfl

theorem ranState_eq (op : Op) (p : Pkt) (r : State) (st : Byte) (b : List Byte) (s : State) :
    ranState op p r st b s = { s with sprue := { s.sprue with
      slots := (setFinal r.sprue.nextId st b s).sprue.slots
      windows := (ranState op p r st b s).sprue.windows } } := by
  unfold ranState; dsimp only; split_ifs <;> rfl

/-- A request that is refused by steps 6 to 14: its reply, and nothing else. -/
theorem submitNow_refused {op : Op} {p : Pkt} {r : State} {st : Byte} {b : List Byte} (hq : Quiet r)
    (hp : portOpen p.origin r = true) (hr : queueShut p.origin r = false) (hl : r.clk.halt = false)
    (ht : tagBusy r p.origin p.tag = false)
    (hn : p.origin ≠ .internal ∨ st = stOk) (hc : opRefusal (startState op p r) (opFor op p r) = some (st, b)) :
    submitNow op p r = freeOp r.sprue.nextId (emit p.origin 0 (suppressed p.flg st) (opReply (opFor op p r) st b)
      (setFinal r.sprue.nextId st b (startState op p r))) := by
  rw [submitNow_start hq hp hr hl ht]
  have ha := arrive_eq p.origin r
  have hh : (arrive p.origin r).host.queue = r.host.queue := by rw [ha]
  have hd : (arrive p.origin r).pwr.deferred = [] := by rw [ha]; exact hq.deferred
  generalize ht0 : { arrive p.origin r with sprue := { r.sprue with
        nextId := r.sprue.nextId + 1
        slots := vset r.sprue.slots (portSlot (originPort p.origin)) (some (opFor op p r)) } } = t0
  have hS : startState op p r = modOp r.sprue.nextId (fun x => { x with waiting := false }) (alarmTrack t0) := by
    rw [← ht0]; rfl
  have e := alarmTrack_eq t0
  have q0 : (alarmTrack t0).host.queue = r.host.queue := by rw [alarmTrack_host, ← ht0]; exact hh
  have o0 : ops (alarmTrack t0) = [opFor op p r] := by
    rw [e]; exact ops_vset hq (portSlot_lt _) _ (by rw [← ht0])
  have o1 : ops (startState op p r) = [{ opFor op p r with waiting := false }] := by
    rw [hS, modOp, ops_mapOps, o0]; simp [opFor]
  have o2 : ops (setFinal r.sprue.nextId st b (startState op p r)) =
      [{ opFor op p r with waiting := false, final := some (st, b), ponr := true }] := by
    rw [setFinal, modOp, ops_mapOps, o1]; simp [opFor]
  have hst : startOp (opFor op p r) (alarmTrack t0) = setFinal r.sprue.nextId st b (startState op p r) := by
    simp only [startOp, show (opFor op p r).id = r.sprue.nextId from rfl, ← hS, hc]
  have hh2 : (setFinal r.sprue.nextId st b (startState op p r)).host.queue = r.host.queue := by
    rw [setFinal_eq, hS]; exact q0
  have hroom : hasRoom (setFinal r.sprue.nextId st b (startState op p r)) p.origin = true := by
    simp only [hasRoom, hostRdy, hh2]
    simpa [queueShut, hostRdy, imp_iff_not_or] using hr
  rw [hst, pump_final o2 _ _ rfl rfl rfl hn (by simp [hroom, opFor])]
  · rw [runDeferred_nil]; · rfl
    have hd2 : (setFinal r.sprue.nextId st b (startState op p r)).pwr.deferred = [] := by
      rw [setFinal_eq, hS, modOp_eq, e, ← ht0]; exact hd
    rw [freeOp_eq]
    show (emit _ _ _ _ _).pwr.deferred = []
    rw [emit_pwr _ _ _ _ hd2]; exact hd2
  · rw [setFinal_eq, hS, modOp_eq, e, ← ht0]; exact hq.early
  · rw [setFinal_eq, hS, modOp_eq, e, ← ht0]; exact hq.held

/-- A request that passes its checks and ends at once. -/
theorem submitNow_done {op : Op} {p : Pkt} {r s2 : State} {st : Byte} {b : List Byte} {k : Bool} (hq : Quiet r)
    (hp : portOpen p.origin r = true) (hr : queueShut p.origin r = false) (hl : r.clk.halt = false)
    (ht : tagBusy r p.origin p.tag = false)
    (hn : p.origin ≠ .internal ∨ st = stOk) (hc : opRefusal (startState op p r) (opFor op p r) = none)
    (hrun : runOp (opFor op p r) (runState op p r) = (.done st b, s2))
    (ho : ops s2 = [{ opFor op p r with waiting := false, ponr := k }]) (he : s2.sprue.early = [])
    (hh : s2.sprue.held = []) (hroom : hasRoom s2 p.origin = true) :
    submitNow op p r = runDeferred 8 (freeOp r.sprue.nextId (emit p.origin 0 (suppressed p.flg st)
      (opReply (opFor op p r) st b) (ranState op p r st b s2))) := by
  rw [submitNow_start hq hp hr hl ht]
  generalize ht0 : { arrive p.origin r with sprue := { r.sprue with
        nextId := r.sprue.nextId + 1
        slots := vset r.sprue.slots (portSlot (originPort p.origin)) (some (opFor op p r)) } } = t0
  have hS : startState op p r = modOp r.sprue.nextId (fun x => { x with waiting := false }) (alarmTrack t0) := by
    rw [← ht0]; rfl
  have hst : startOp (opFor op p r) (alarmTrack t0) = ranState op p r st b s2 := by
    have e1 : runOp (opFor op p r) (if lockU op then
        { startState op p r with sec := { (startState op p r).sec with lockAt := now (startState op p r) } }
        else startState op p r) = (.done st b, s2) := hrun
    simp only [startOp, show (opFor op p r).id = r.sprue.nextId from rfl, ← hS, hc, show (opFor op p r).op = op from rfl,
      e1, standAnswer, wrote, ranState]
  have e := ranState_eq op p r st b s2
  have o2 : ops (ranState op p r st b s2) =
      [{ opFor op p r with waiting := false, final := some (st, b), ponr := true }] := by
    rw [ops_congr (t := setFinal r.sprue.nextId st b s2) (by rw [e]), setFinal, modOp, ops_mapOps, ho]; simp [opFor]
  have h1 : (ranState op p r st b s2).sprue.early = [] := by rw [e]; exact he
  have h2 : (ranState op p r st b s2).sprue.held = [] := by rw [e]; exact hh
  have h3 : hasRoom (ranState op p r st b s2) p.origin = true := by rw [e]; exact hroom
  rw [hst, pump_final o2 h1 h2 rfl rfl rfl hn (by simp [h3, opFor])]
  rfl

theorem portOpen_serving {r : State} (h : Serving r) (g : Origin) : portOpen g r = true := by
  have h1 := h.stage
  cases hs : r.start.stage <;> simp [hs, Stage.code] at h1 <;>
    simp [portOpen, lodeOn, lowPower, h.lode, h.mode, h.vddio, atLeast, Stage.code, hs]

theorem queueShut_room {r : State} {g : Origin} (h : g = .hostNative → r.host.queue.length < 4) :
    queueShut g r = false := by
  by_cases hg : g = .hostNative
  · simp [queueShut, hostRdy, hg, h hg]
  · simp [queueShut, hg]

theorem tagBusy_free {r : State} (hq : Quiet r) {g : Origin} {tag : Byte}
    (h : builtOrigin g = true ∨ ∀ x ∈ resultsOf r (originPort g), x.tag ≠ tag) : tagBusy r g tag = false := by
  rcases h with h | h
  · simp [tagBusy, h]
  · simp [tagBusy, ops_eq_nil hq.slots, hq.held]
    exact fun _ x hx => h x hx

/-- The parts of the state that the arrival of a request changes. -/
theorem startState_eq (op : Op) (p : Pkt) (r : State) :
    startState op p r = { r with
      pwr := { r.pwr with entry := (startState op p r).pwr.entry, idleSince := (startState op p r).pwr.idleSince }
      host := { r.host with
        fullChg := (startState op p r).host.fullChg
        fullDsg := (startState op p r).host.fullDsg
        alarms := (startState op p r).host.alarms
        alerts := (startState op p r).host.alerts
        notifies := (startState op p r).host.notifies }
      sprue := { r.sprue with nextId := r.sprue.nextId + 1, slots := (startState op p r).sprue.slots } } := by
  unfold startState
  rw [modOp_eq]
  generalize ht : ({ arrive p.origin r with sprue := { r.sprue with
        nextId := r.sprue.nextId + 1
        slots := vset r.sprue.slots (portSlot (originPort p.origin)) (some (opFor op p r)) } } : State) = t
  have e := alarmTrack_eq t
  have f := alarmTrack_host t
  have a := arrive_eq p.origin r
  have hh : t.host = r.host := by rw [← ht]; show (arrive p.origin r).host = _; rw [a]
  rw [hh] at f
  generalize alarmTrack t = u at *
  rw [e, f, ← ht, a]

/-! The arrival of a request leaves these parts alone. -/

@[simp] theorem startState_clk (op : Op) (p : Pkt) (r : State) : (startState op p r).clk = r.clk := by
  rw [startState_eq]

@[simp] theorem startState_start (op : Op) (p : Pkt) (r : State) : (startState op p r).start = r.start := by
  rw [startState_eq]

@[simp] theorem startState_tmr (op : Op) (p : Pkt) (r : State) : (startState op p r).tmr = r.tmr := by
  rw [startState_eq]

@[simp] theorem startState_afe (op : Op) (p : Pkt) (r : State) : (startState op p r).afe = r.afe := by
  rw [startState_eq]

@[simp] theorem startState_cqa (op : Op) (p : Pkt) (r : State) : (startState op p r).cqa = r.cqa := by
  rw [startState_eq]

@[simp] theorem startState_cqb (op : Op) (p : Pkt) (r : State) : (startState op p r).cqb = r.cqb := by
  rw [startState_eq]

@[simp] theorem startState_capStamp (op : Op) (p : Pkt) (r : State) : (startState op p r).capStamp = r.capStamp := by
  rw [startState_eq]

@[simp] theorem startState_capStampOld (op : Op) (p : Pkt) (r : State) : (startState op p r).capStampOld = r.capStampOld := by
  rw [startState_eq]

@[simp] theorem startState_capAt (op : Op) (p : Pkt) (r : State) : (startState op p r).capAt = r.capAt := by
  rw [startState_eq]

@[simp] theorem startState_sar (op : Op) (p : Pkt) (r : State) : (startState op p r).sar = r.sar := by
  rw [startState_eq]

@[simp] theorem startState_gauge (op : Op) (p : Pkt) (r : State) : (startState op p r).gauge = r.gauge := by
  rw [startState_eq]

@[simp] theorem startState_glint (op : Op) (p : Pkt) (r : State) : (startState op p r).glint = r.glint := by
  rw [startState_eq]

@[simp] theorem startState_alm (op : Op) (p : Pkt) (r : State) : (startState op p r).alm = r.alm := by
  rw [startState_eq]

@[simp] theorem startState_anneal (op : Op) (p : Pkt) (r : State) : (startState op p r).anneal = r.anneal := by
  rw [startState_eq]

@[simp] theorem startState_pol (op : Op) (p : Pkt) (r : State) : (startState op p r).pol = r.pol := by
  rw [startState_eq]

@[simp] theorem startState_par (op : Op) (p : Pkt) (r : State) : (startState op p r).par = r.par := by
  rw [startState_eq]

@[simp] theorem startState_field (op : Op) (p : Pkt) (r : State) : (startState op p r).field = r.field := by
  rw [startState_eq]

@[simp] theorem startState_link (op : Op) (p : Pkt) (r : State) : (startState op p r).link = r.link := by
  rw [startState_eq]

@[simp] theorem startState_sec (op : Op) (p : Pkt) (r : State) : (startState op p r).sec = r.sec := by
  rw [startState_eq]

@[simp] theorem startState_tamp (op : Op) (p : Pkt) (r : State) : (startState op p r).tamp = r.tamp := by
  rw [startState_eq]

@[simp] theorem startState_nv (op : Op) (p : Pkt) (r : State) : (startState op p r).nv = r.nv := by
  rw [startState_eq]

@[simp] theorem startState_drawn (op : Op) (p : Pkt) (r : State) : (startState op p r).drawn = r.drawn := by
  rw [startState_eq]

@[simp] theorem startState_pending (op : Op) (p : Pkt) (r : State) : (startState op p r).pending = r.pending := by
  rw [startState_eq]

@[simp] theorem startState_prm (op : Op) (p : Pkt) (r : State) (id : Nat) : prm (startState op p r) id = prm r id := by
  rw [startState_eq]; rfl

@[simp] theorem startState_now (op : Op) (p : Pkt) (r : State) : now (startState op p r) = now r := by
  rw [startState_eq]; rfl

theorem startState_stage {op : Op} {p : Pkt} {r : State} (A : Admits p r) {g : Stage} (h : g.code ≤ 2) :
    atLeast (startState op p r) g = true := by
  have := A.serving.stage
  simp [atLeast]; omega

theorem ops_startState {op : Op} {p : Pkt} {r : State} (hq : Quiet r) :
    ops (startState op p r) = [{ opFor op p r with waiting := false }] := by
  unfold startState
  rw [modOp, ops_mapOps, alarmTrack_eq]
  rw [show ∀ (t : State) (h : HostPort), ops { t with host := h } = ops t from fun _ _ => rfl]
  rw [ops_vset hq (portSlot_lt (originPort p.origin)) (opFor op p r) rfl]; simp [opFor]

theorem ackLate_ack (x : Reply) (t : Nat) {g h : HostPort} (ha : g.ack = h.ack) (hw : g.ackWait = h.ackWait) :
    (ackLate x g t).ack = (ackLate x h t).ack := by
  simp only [ackLate, hw]; split <;> (try split_ifs) <;> first | rfl | exact ha

theorem ackLate_eq (x : Reply) (h : HostPort) (t : Nat) :
    ackLate x h t = { h with ack := (ackLate x h t).ack, ackWait := (ackLate x h t).ackWait } := by
  unfold ackLate; split <;> (try split_ifs) <;> rfl

theorem mbAnswer_eq (x : Reply) (f : FieldPort) : mbAnswer x f = { f with mbWait := (mbAnswer x f).mbWait } := by
  unfold mbAnswer; split <;> (try split_ifs) <;> rfl

/-- A reply goes to its port. -/
theorem emit_replied {op : Op} {p : Pkt} {r u : State} {st : Byte} {b : List Byte} (hn : now u = now r)
    (h1 : u.host.queue = r.host.queue ∧ u.host.ack = r.host.ack ∧ u.host.ackWait = r.host.ackWait)
    (h2 : u.field = r.field) (h4 : u.link.txq = r.link.txq) :
    Replied p r (emit p.origin 0 (suppressed p.flg st) (opReply (opFor op p r) st b) u) (answerOf op p r st b) := by
  have hr : ({ opReply (opFor op p r) st b with ready := now u } : Reply) = answerOf op p r st b := by
    simp [opReply, opFor, answerOf, hn]
  obtain ⟨ha, hb, hc⟩ := h1
  cases hp : p.origin <;> simp only [Replied, hp, emit, hr, queueFrame]
  case sdi =>
    rw [h2]
    by_cases h : r.field.sdiOp = some (answerOf op p r st b).opId
    · have h' : r.field.sdiOp = some (opReply (opFor op p r) st b).opId := h
      rw [if_pos h, if_pos h']
      apply sdiAnswer_congr
      · rfl
      · exact (sdiAnswer_now _ _).symm
      · conv_rhs => rw [sdiAnswer_eq]
        rfl
    · have h' : r.field.sdiOp ≠ some (opReply (opFor op p r) st b).opId := h
      rw [if_neg h, if_neg h']
  case gen1 => exact ⟨trivial, by rw [hn]; exact ackLate_ack _ _ hb hc⟩
  case gen2 => exact ⟨trivial, by rw [hn]; exact ackLate_ack _ _ hb hc⟩
  all_goals
    first
      | exact ⟨rfl, by rw [← h2]; rfl⟩
      | (cases hs : suppressed p.flg st <;> simp_all [answerOf, opReply, opFor, newFrame, lastStatus])
      | trivial

/-! The parts of the state that a reply changes. -/

theorem emit_parts (g : Origin) (peer : Nat) (q : Bool) (x : Reply) (s : State) :
    emit g peer q x s = { s with
      pwr := (emit g peer q x s).pwr, host := (emit g peer q x s).host, field := (emit g peer q x s).field
      link := (emit g peer q x s).link, sprue := (emit g peer q x s).sprue } := by
  have h (f : FieldPort) (u : State) (e : u = { ({ s with field := f } : State) with pwr := u.pwr, field := u.field }) :
      u = { s with pwr := u.pwr, host := u.host, field := u.field, link := u.link, sprue := u.sprue } := by rw [e]
  cases g <;> simp only [emit, queueFrame] <;> (try split_ifs) <;> first | rfl | exact h _ _ (sdiAnswer_eq _)

theorem emit_host (g : Origin) (peer : Nat) (q : Bool) (x : Reply) (s : State) :
    (emit g peer q x s).host = { s.host with
      queue := (emit g peer q x s).host.queue
      legRej := (emit g peer q x s).host.legRej
      errCode := (emit g peer q x s).host.errCode
      ack := (emit g peer q x s).host.ack
      ackWait := (emit g peer q x s).host.ackWait } := by
  cases g <;> simp only [emit, queueFrame] <;> (try split_ifs) <;>
    first
      | rfl
      | (unfold ackLate; split <;> (try split_ifs) <;> rfl)
      | (rw [sdiAnswer_eq])

theorem emit_field (g : Origin) (peer : Nat) (q : Bool) (x : Reply) (s : State) :
    (emit g peer q x s).field = { s.field with
      queue := (emit g peer q x s).field.queue
      lastStatus := (emit g peer q x s).field.lastStatus
      mbWait := (emit g peer q x s).field.mbWait
      sdiReply := (emit g peer q x s).field.sdiReply
      sdiOp := (emit g peer q x s).field.sdiOp
      sdiOut := (emit g peer q x s).field.sdiOut
      sdiFrom := (emit g peer q x s).field.sdiFrom
      sdiTo := (emit g peer q x s).field.sdiTo
      sdiWait := (emit g peer q x s).field.sdiWait
      sdiLast := (emit g peer q x s).field.sdiLast } := by
  have h (a b : Byte) (c : Option (List Byte)) (u : FieldPort)
      (e : u = { lastStatus a b { s.field with sdiReply := c, sdiOp := none } with
        sdiReply := u.sdiReply, sdiOut := u.sdiOut, sdiFrom := u.sdiFrom, sdiTo := u.sdiTo, sdiWait := u.sdiWait
        sdiLast := u.sdiLast }) :
      u = { s.field with
        queue := u.queue, lastStatus := u.lastStatus, mbWait := u.mbWait, sdiReply := u.sdiReply, sdiOp := u.sdiOp
        sdiOut := u.sdiOut, sdiFrom := u.sdiFrom, sdiTo := u.sdiTo, sdiWait := u.sdiWait, sdiLast := u.sdiLast } := by
    rw [e]; rfl
  cases g <;> simp only [emit, queueFrame] <;> (try split_ifs) <;>
    first
      | rfl
      | (unfold mbAnswer lastStatus; split <;> (try split_ifs) <;> rfl)
      | exact h _ _ _ _ (sdiAnswer_field _)

theorem emit_link (g : Origin) (peer : Nat) (q : Bool) (x : Reply) (s : State) :
    (emit g peer q x s).link = { s.link with txq := (emit g peer q x s).link.txq } := by
  cases g <;> simp only [emit, queueFrame] <;> (try split_ifs) <;> first | rfl | (rw [sdiAnswer_eq])

/-- All of them together, where no action waits for a reply. -/
theorem emit_eq (g : Origin) (peer : Nat) (q : Bool) (x : Reply) {s : State} (hd : s.pwr.deferred = []) :
    emit g peer q x s = { s with
      host := { s.host with
        queue := (emit g peer q x s).host.queue
        legRej := (emit g peer q x s).host.legRej
        errCode := (emit g peer q x s).host.errCode
        ack := (emit g peer q x s).host.ack
        ackWait := (emit g peer q x s).host.ackWait }
      field := { s.field with
        queue := (emit g peer q x s).field.queue
        lastStatus := (emit g peer q x s).field.lastStatus
        mbWait := (emit g peer q x s).field.mbWait
        sdiReply := (emit g peer q x s).field.sdiReply
        sdiOp := (emit g peer q x s).field.sdiOp
        sdiOut := (emit g peer q x s).field.sdiOut
        sdiFrom := (emit g peer q x s).field.sdiFrom
        sdiTo := (emit g peer q x s).field.sdiTo
        sdiWait := (emit g peer q x s).field.sdiWait
        sdiLast := (emit g peer q x s).field.sdiLast }
      link := { s.link with txq := (emit g peer q x s).link.txq }
      sprue := { s.sprue with answer := (emit g peer q x s).sprue.answer } } := by
  have h1 := emit_parts g peer q x s
  have h2 := emit_host g peer q x s
  have h3 := emit_field g peer q x s
  have h4 := emit_link g peer q x s
  have h5 := emit_sprue g peer q x s
  have h6 := emit_pwr g peer q x hd
  generalize emit g peer q x s = u at *
  rw [← h2, ← h3, ← h4, ← h5, ← h6]
  exact h1

/-- A request that passes its checks, runs to `s2` without touching its port or the sequencer, and ends at once: the
reply has gone to its port, the ports and the sequencer have changed as by any request, and everything else stands as
the operation left it. -/
theorem submitNow_result {op : Op} {p : Pkt} {r s2 : State} {st : Byte} {b : List Byte} (A : AdmitsNow p r)
    (hn : p.origin ≠ .internal ∨ st = stOk)
    (hc : opRefusal (startState op p r) (opFor op p r) = none)
    (hrun : runOp (opFor op p r) (runState op p r) = (.done st b, s2))
    (hpwr : s2.pwr = (startState op p r).pwr) (hhost : s2.host = (startState op p r).host)
    (hfield : s2.field = r.field) (hlink : s2.link = r.link) (hsprue : s2.sprue = (startState op p r).sprue)
    (hnow : now s2 = now r) :
    Replied p r (submitNow op p r) (answerOf op p r st b) ∧ Quiet (submitNow op p r) ∧ PortsOnly r (submitNow op p r) ∧
      submitNow op p r = { s2 with
        pwr := (submitNow op p r).pwr
        host := (submitNow op p r).host
        field := (submitNow op p r).field
        link := (submitNow op p r).link
        sprue := (submitNow op p r).sprue } := by
  have e0 := startState_eq op p r
  have hq := A.quiet
  have ho : ops s2 = [{ opFor op p r with waiting := false, ponr := false }] := by
    rw [ops_congr (t := startState op p r) (by rw [hsprue])]; exact ops_startState hq
  have he : s2.sprue.early = [] := by rw [hsprue, e0]; exact hq.early
  have hh : s2.sprue.held = [] := by rw [hsprue, e0]; exact hq.held
  have hqueue : s2.host.queue = r.host.queue := by rw [hhost, e0]
  have hack : s2.host.ack = r.host.ack ∧ s2.host.ackWait = r.host.ackWait := by rw [hhost, e0]; exact ⟨rfl, rfl⟩
  have hroom : hasRoom s2 p.origin = true := by
    simp only [hasRoom, hostRdy, hqueue]; simpa [imp_iff_not_or] using A.room
  have hd : s2.pwr.deferred = [] := by rw [hpwr, e0]; exact hq.deferred
  have key := submitNow_done hq (portOpen_serving A.serving _) (queueShut_room A.room) A.serving.halt
    (tagBusy_free hq A.tag) hn hc hrun ho he hh hroom
  have er := ranState_eq op p r st b s2
  have ee := emit_eq p.origin 0 (suppressed p.flg st) (opReply (opFor op p r) st b) (s := ranState op p r st b s2)
    (by rw [er]; exact hd)
  have rep : Replied p r (emit p.origin 0 (suppressed p.flg st) (opReply (opFor op p r) st b) (ranState op p r st b s2))
      (answerOf op p r st b) := by
    apply emit_replied
    · rw [er]; exact hnow
    · rw [er]; exact ⟨hqueue, hack⟩
    · rw [er]; exact hfield
    · rw [er]; show s2.link.txq = _; rw [hlink]
  generalize hu : emit p.origin 0 (suppressed p.flg st) (opReply (opFor op p r) st b) (ranState op p r st b s2) = u
    at key ee rep
  rw [runDeferred_nil (by rw [freeOp_eq]; show u.pwr.deferred = []; rw [ee, er]; exact hd)] at key
  have ef := freeOp_eq r.sprue.nextId u
  have ou : ops (freeOp r.sprue.nextId u) = [] := by
    rw [ops_freeOp, ops_congr (t := ranState op p r st b s2) (by rw [ee]),
      ops_congr (t := setFinal r.sprue.nextId st b s2) (by rw [er]), setFinal, modOp, ops_mapOps, ho]
    simp [opFor]
  rw [key]
  refine ⟨?_, ?_, ⟨?_, ?_, ?_, ?_, ?_⟩, ?_⟩
  · cases hp : p.origin <;> simp only [Replied, hp] at rep ⊢ <;> first | exact rep | skip
    by_cases hs : r.field.sdiOp = some (answerOf op p r st b).opId
    · rw [if_pos hs] at rep ⊢; exact rep.trans (sdiAnswer_congr rfl rfl rfl)
    · rw [if_neg hs] at rep ⊢; exact rep
  · refine ⟨?_, ?_, ?_, ?_⟩
    · intro i
      by_contra hne
      obtain ⟨o, ho'⟩ := Option.ne_none_iff_exists'.mp hne
      have : o ∈ ops (freeOp r.sprue.nextId u) := by
        rw [ops, List.mem_filterMap]
        exact ⟨some o, by rw [Vector.mem_toList_iff]; exact ho' ▸ Vector.getElem_mem i.2, rfl⟩
      rw [ou] at this; cases this
    · rw [ef]; show u.sprue.held = []; rw [ee, er]; exact hh
    · rw [ef]; show u.sprue.early = []; rw [ee, er]; exact he
    · rw [ef]; show u.pwr.deferred = []; rw [ee, er]; exact hd
  · have : (freeOp r.sprue.nextId u).pwr = s2.pwr := by rw [ef]; show u.pwr = _; rw [ee, er]
    rw [this, hpwr]; conv_lhs => rw [e0]
  · have : (freeOp r.sprue.nextId u).host = u.host := rfl
    rw [this]
    have h2 : u.host = { r.host with
        queue := u.host.queue, legRej := u.host.legRej, errCode := u.host.errCode, ack := u.host.ack
        ackWait := u.host.ackWait, fullChg := s2.host.fullChg
        fullDsg := s2.host.fullDsg, alarms := s2.host.alarms, alerts := s2.host.alerts, notifies := s2.host.notifies } := by
      conv_lhs => rw [ee, er]
      simp only [hhost]; rw [e0]
    rw [h2]
  · have : (freeOp r.sprue.nextId u).field = u.field := rfl
    rw [this]; conv_lhs => rw [ee, er]
    simp only [hfield]
  · have : (freeOp r.sprue.nextId u).link = u.link := rfl
    rw [this]; conv_lhs => rw [ee, er]
    simp only [hlink]
  · rw [ef, ee, er]; simp only [hsprue]; rw [e0]
  · rw [ef, ee, er]

/-- What the checks pass when the request arrives they pass in the state of its start. -/
theorem opRefusal_startState {op : Op} {p : Pkt} {r : State} (hq : Quiet r) (hp : Passes op p r) :
    opRefusal (startState op p r) (opFor op p r) = none := by
  have ho := ops_startState (op := op) (p := p) hq
  have hr := ops_eq_nil hq.slots
  have e := startState_eq op p r
  have h6 (g : Stage) : atLeast (startState op p r) g = atLeast r g := by rw [e]; rfl
  have h7 : quenchHit (startState op p r) (opFor op p r) = quenchHit r (opFor op p r) := by rw [e]; rfl
  have h8 : lockoutHit (startState op p r) (opFor op p r) = lockoutHit r (opFor op p r) := by rw [e]; rfl
  have h9 : levelOk (startState op p r) (opFor op p r) = levelOk r (opFor op p r) := by rw [e]; rfl
  have h10 : lengthOk (startState op p r) (opFor op p r) = lengthOk r (opFor op p r) := by rw [e]; rfl
  have h11 : argOk (startState op p r) (opFor op p r) = argOk r (opFor op p r) := by rw [e]; rfl
  have h12 : rangeOk (startState op p r) (opFor op p r) = rangeOk r (opFor op p r) := by rw [e]; rfl
  have hm : remoteHit (startState op p r) (opFor op p r) = remoteHit r (opFor op p r) := by rw [e]; rfl
  have h13 : conflictAt (startState op p r) (opFor op p r) = conflictAt r (opFor op p r) := by rw [e]; rfl
  have h14 : resourceFree (startState op p r) (opFor op p r) = resourceFree r (opFor op p r) := by
    have e2 : (startState op p r).par = r.par := by simp
    cases op <;> simp only [resourceFree, opFor_op, opFor_id] <;>
      first
        | (rw [e]; rfl)
        | (simp [calBusy, ctxBusy, ho, hr, opFor]; try rw [e]; rfl)
  unfold Passes opRefusal at hp
  unfold opRefusal
  rw [h6, h7, h8, h9, h10, h11, h12, hm, h13, h14]
  generalize atLeast r (firstStage (opFor op p r)) = c6 at *
  generalize quenchHit r (opFor op p r) = c7 at *
  generalize lockoutHit r (opFor op p r) = c8 at *
  generalize levelOk r (opFor op p r) = c9 at *
  generalize lengthOk r (opFor op p r) = c10 at *
  generalize argOk r (opFor op p r) = c11 at *
  generalize rangeOk r (opFor op p r) = c12 at *
  generalize remoteHit r (opFor op p r) = cr at *
  generalize conflictAt r (opFor op p r) = c13 at *
  generalize resourceFree r (opFor op p r) = c14 at *
  cases c6 <;> cases c7 <;> cases c8 <;> cases c9 <;> cases c10 <;> cases c11 <;> cases c12 <;> cases cr <;>
    cases c13 <;> cases c14 <;> first | rfl | cases hp

/-- A command that submits a request which passes its checks, runs to `s2` and ends at once. -/
theorem answers_of_run {c : Instr} {op : Op} {dt : Nat} {p : Pkt} {s s2 : State} {st : Byte} {b : List Byte}
    (hx : exec c s = act dt (submit op p) s) (A : Asked dt p s) (hn : p.origin ≠ .internal ∨ st = stOk)
    (hc : Passes op p (elapse dt s))
    (hrun : runOp (opFor op p (elapse dt s)) (runState op p (elapse dt s)) = (.done st b, s2))
    (hpwr : s2.pwr = (startState op p (elapse dt s)).pwr) (hhost : s2.host = (startState op p (elapse dt s)).host)
    (hfield : s2.field = (elapse dt s).field) (hlink : s2.link = (elapse dt s).link)
    (hsprue : s2.sprue = (startState op p (elapse dt s)).sprue) (hnow : now s2 = now (elapse dt s)) :
    Answers c op dt p s s2 st b := by
  obtain ⟨h1, h2, h3, h4⟩ :=
    submitNow_result A.2.toAdmitsNow hn (opRefusal_startState A.2.quiet hc) hrun hpwr hhost hfield hlink hsprue hnow
  exact ⟨_, by rw [hx, act, if_pos A.1, submit_now A.2.alone], h1, h2, h3, h4⟩

/-- `answers_of_run` for a request that only reads, without lock class U. -/
theorem answers_of_read {c : Instr} {op : Op} {dt : Nat} {p : Pkt} {s : State} {st : Byte} {b : List Byte}
    (hx : exec c s = act dt (submit op p) s) (A : Asked dt p s) (hn : p.origin ≠ .internal ∨ st = stOk)
    (hl : lockU op = false) (hc : Passes op p (elapse dt s))
    (hrun : runOp (opFor op p (elapse dt s)) (startState op p (elapse dt s)) =
      (.done st b, startState op p (elapse dt s))) :
    Answers c op dt p s (elapse dt s) st b := by
  obtain ⟨t, h1, h2, h3, h4, h5⟩ := answers_of_run (s2 := startState op p (elapse dt s)) hx A hn hc
    (by simpa [runState, hl] using hrun) rfl rfl (by simp) (by simp) rfl (by simp)
  exact ⟨t, h1, h2, h3, h4, by rw [h5, startState_eq]⟩

/-! ## Operations that are accepted -/

/-- Where the only operation in flight has an interim status that its port has not heard, that reply leaves. -/
theorem pump_interim {s : State} {o : Oper} {st : Byte} (ho : ops s = [o]) (he : s.sprue.early = [])
    (hh : s.sprue.held = []) (hi : o.interim = some st) (hf : o.final = none) (hr : o.replied = false)
    (hw : o.waiting = false) (hq : (suppressed o.flg st || hasRoom s o.origin) = true) (n : Nat) :
    pump (n + 1) s = emit o.origin o.peer (suppressed o.flg st) (opReply o st [])
      (modOp o.id (fun x => { x with replied := true }) s) := by
  generalize hu : emit o.origin o.peer (suppressed o.flg st) (opReply o st [])
      (modOp o.id (fun x => { x with replied := true }) s) = u
  have hs := emit_sprue o.origin o.peer (suppressed o.flg st) (opReply o st [])
    (modOp o.id (fun x => { x with replied := true }) s)
  rw [hu] at hs
  have u1 : ops u = [{ o with replied := true }] := by
    rw [ops_congr (t := modOp o.id (fun x => { x with replied := true }) s) (by rw [hs]), modOp, ops_mapOps, ho]; simp
  have u2 : u.sprue.early = [] := by rw [hs]; exact he
  have u3 : u.sprue.held = [] := by rw [hs]; exact hh
  have h1 (p : Port) : firstEarly s p = none := by simp [firstEarly, he]
  have h2 (p : Port) (hp : p ≠ originPort o.origin) : deliver p s = none := by
    have : (originPort o.origin == p && !o.replied) = false := by
      simp; intro h; exact absurd h.symm hp
    have h3 : firstOwing s p = none := by simp [firstOwing, ho, List.filter, this]
    simp [deliver, h1, h3]
  have h4 : deliver (originPort o.origin) s = some u := by
    have h3 : firstOwing s (originPort o.origin) = some o := by simp [firstOwing, ho, List.filter, hr]
    simp only [deliver, h1, h3, hi, hq, if_true, hu]
  have h6 : [Port.internal, .host, .field, .link].findSome? (fun p => deliver p s) = some u := by
    rcases hp : originPort o.origin with _ | _ | _ | _ <;> rw [hp] at h2 h4 <;>
      simp [List.findSome?, h2, h4]
  have h7 (p : Port) : deliver p u = none := by
    have h3 : firstOwing u p = none := by simp [firstOwing, u1, List.filter]
    have h4 : firstEarly u p = none := by simp [firstEarly, u2]
    simp [deliver, h3, h4]
  have h8 : deliverAll 16 s = u := by
    rw [show (16 : Nat) = 14 + 1 + 1 from rfl, deliverAll, h6]
    dsimp only
    simp [deliverAll, h7]
  have h11 : releaseAll u = u := by simp [releaseAll, release, u1]
  have h9 : storeAll u = u := by simp [storeAll, u1, hf]
  have h10 : nextStart u = none := by simp [nextStart, u1, List.filter, startable, hw]
  simp [pump, h8, h11, h9, takeHeld, u3, h10]

/-- What an operation that is accepted leaves before its reply: its interim status and the windows of its targets. -/
def acceptedState (op : Op) (p : Pkt) (r s : State) : State :=
  let t := modOp r.sprue.nextId (fun x => { x with interim := some (x.interim.getD stAccepted) }) s
  pruneWindows { t with sprue := { t.sprue with
    windows := t.sprue.windows ++ openWindows (startState op p r) (opFor op p r) } }

/-- A command that submits a request which passes its checks and is accepted: `x` is the interim status its run has
already given it. -/
theorem accepts_of_run {c : Instr} {op : Op} {dt : Nat} {p : Pkt} {s s2 : State} {x : Option Byte} {k : Bool}
    (hx : exec c s = act dt (submit op p) s) (A : Asked dt p s) (hc : Passes op p (elapse dt s))
    (hrun : runOp (opFor op p (elapse dt s)) (runState op p (elapse dt s)) = (.accepted, s2))
    (ho : ops s2 = [{ opFor op p (elapse dt s) with waiting := false, interim := x, ponr := k }])
    (hpwr : s2.pwr = (startState op p (elapse dt s)).pwr) (hhost : s2.host = (startState op p (elapse dt s)).host)
    (hfield : s2.field = (elapse dt s).field) (hlink : s2.link = (elapse dt s).link)
    (hsprue : s2.sprue = { (startState op p (elapse dt s)).sprue with slots := s2.sprue.slots })
    (hnow : now s2 = now (elapse dt s)) :
    Accepts c op dt p s s2 (x.getD stAccepted) := by
  unfold Accepts
  generalize hr : elapse dt s = r at *
  have A2 : Admits p r := by rw [← hr]; exact A.2
  have hq := A2.quiet
  have e0 := startState_eq op p r
  have he : s2.sprue.early = [] := by rw [hsprue, e0]; exact hq.early
  have hh : s2.sprue.held = [] := by rw [hsprue, e0]; exact hq.held
  have hqueue : s2.host.queue = r.host.queue := by rw [hhost, e0]
  have hack : s2.host.ack = r.host.ack ∧ s2.host.ackWait = r.host.ackWait := by rw [hhost, e0]; exact ⟨rfl, rfl⟩
  have hd : s2.pwr.deferred = [] := by rw [hpwr, e0]; exact hq.deferred
  have er : acceptedState op p r s2 = { s2 with sprue := { s2.sprue with
      slots := (acceptedState op p r s2).sprue.slots
      windows := (acceptedState op p r s2).sprue.windows } } := rfl
  have o2 : ops (acceptedState op p r s2) =
      [{ opFor op p r with waiting := false, interim := some (x.getD stAccepted), ponr := k }] := by
    rw [show ops (acceptedState op p r s2) =
      ops (mapOps (fun y => if y.id = r.sprue.nextId then { y with interim := some (y.interim.getD stAccepted) } else y) s2)
      from rfl, ops_mapOps, ho]; simp [opFor]
  generalize ht0 : { arrive p.origin r with sprue := { r.sprue with
        nextId := r.sprue.nextId + 1
        slots := vset r.sprue.slots (portSlot (originPort p.origin)) (some (opFor op p r)) } } = t0
  have hS : startState op p r = modOp r.sprue.nextId (fun x => { x with waiting := false }) (alarmTrack t0) := by
    rw [← ht0]; rfl
  have hst : startOp (opFor op p r) (alarmTrack t0) = acceptedState op p r s2 := by
    have e1 : runOp (opFor op p r) (if lockU op then
        { startState op p r with sec := { (startState op p r).sec with lockAt := now (startState op p r) } }
        else startState op p r) = (.accepted, s2) := hrun
    have e2 := opRefusal_startState hq hc
    simp only [startOp, show (opFor op p r).id = r.sprue.nextId from rfl, ← hS, e2,
      show (opFor op p r).op = op from rfl, e1, standAnswer, wrote, acceptedState]
    rfl
  have hroom : hasRoom (acceptedState op p r s2) p.origin = true := by
    rw [er]; simp only [hasRoom, hostRdy, hqueue]; simpa [imp_iff_not_or] using A2.room
  have key := submitNow_start (op := op) hq (portOpen_serving A2.serving p.origin) (queueShut_room A2.room) A2.serving.halt
    (tagBusy_free hq A2.tag)
  rw [ht0, hst, pump_interim o2 (by rw [er]; exact he) (by rw [er]; exact hh) rfl rfl rfl rfl (by simp [hroom, opFor])]
    at key
  generalize hv : modOp r.sprue.nextId (fun x => { x with replied := true }) (acceptedState op p r s2) = v
  have ev : v = { s2 with sprue := { s2.sprue with slots := v.sprue.slots, windows := v.sprue.windows } } := by
    rw [← hv]; rfl
  have key2 : submitNow op p r = runDeferred 8 (emit p.origin 0 (suppressed p.flg (x.getD stAccepted))
      (opReply (opFor op p r) (x.getD stAccepted) []) v) := by rw [← hv]; exact key
  have ee := emit_eq p.origin 0 (suppressed p.flg (x.getD stAccepted)) (opReply (opFor op p r) (x.getD stAccepted) [])
    (s := v) (by rw [ev]; exact hd)
  have rep : Replied p r (emit p.origin 0 (suppressed p.flg (x.getD stAccepted))
      (opReply (opFor op p r) (x.getD stAccepted) []) v) (answerOf op p r (x.getD stAccepted) []) := by
    apply emit_replied
    · rw [ev]; exact hnow
    · rw [ev]; exact ⟨hqueue, hack⟩
    · rw [ev]; exact hfield
    · rw [ev]; show s2.link.txq = _; rw [hlink]
  have ov : ops v = [{ opFor op p r with waiting := false, replied := true, interim := some (x.getD stAccepted), ponr := k }] := by
    rw [← hv, modOp, ops_mapOps, o2]; simp [opFor]
  generalize hu : emit p.origin 0 (suppressed p.flg (x.getD stAccepted))
      (opReply (opFor op p r) (x.getD stAccepted) []) v = u at key2 ee rep
  rw [runDeferred_nil (by show u.pwr.deferred = []; rw [ee, ev]; exact hd)] at key2
  refine ⟨u, k, by rw [hx, act, if_pos A.1, hr, submit_now A2.alone, key2], rep, ?_, ⟨?_, ?_, ?_, ?_, ?_⟩, ?_⟩
  · rw [ops_congr (t := v) (by rw [ee]), ov]
  · have : u.pwr = s2.pwr := by rw [ee, ev]
    rw [this, hpwr]; conv_lhs => rw [e0]
  · have h2 : u.host = { r.host with
        queue := u.host.queue, legRej := u.host.legRej, errCode := u.host.errCode, ack := u.host.ack
        ackWait := u.host.ackWait, fullChg := s2.host.fullChg
        fullDsg := s2.host.fullDsg, alarms := s2.host.alarms, alerts := s2.host.alerts, notifies := s2.host.notifies } := by
      conv_lhs => rw [ee, ev]
      simp only [hhost]; rw [e0]
    rw [h2]
  · conv_lhs => rw [ee, ev]
    simp only [hfield]
  · conv_lhs => rw [ee, ev]
    simp only [hlink]
  · rw [ee, ev]; simp only []; rw [hsprue, e0]
  · rw [ee, ev]

/-! ## From the effect of an operation to its statement -/

/-- What an operation sees when it runs: `r` with the changes the arrival has made to its port, the supply block and the
sequencer, and with LOCK_TIMEOUT renewed for lock class U. -/
def seen (op : Op) (r : State) (e : Option Entry) (i : Nat) (h : HostPort) (v : Vector (Option Oper) 8) : State :=
  { r with
    pwr := { r.pwr with entry := e, idleSince := i }
    host := h
    sprue := { r.sprue with nextId := r.sprue.nextId + 1, slots := v }
    sec := if lockU op then { r.sec with lockAt := now r } else r.sec }

theorem runState_seen (op : Op) (p : Pkt) (r : State) :
    runState op p r = seen op r (startState op p r).pwr.entry (startState op p r).pwr.idleSince
      (startState op p r).host (startState op p r).sprue.slots := by
  unfold runState seen
  have e0 := startState_eq op p r
  have hn := startState_now op p r
  generalize startState op p r = x at e0 hn
  cases lockU op
  · simp only [Bool.false_eq_true, if_false]
    conv_lhs => rw [e0]
    conv_rhs => rw [e0]
  · simp only [if_true, hn]
    conv_lhs => rw [e0]
    conv_rhs => rw [e0]

/-- An operation that ends at once and touches neither its port nor the sequencer: its effect on the rest is `u`. -/
theorem answers_of_effect {c : Instr} {op : Op} {dt : Nat} {p : Pkt} {s u : State} {st : Byte} {b : List Byte}
    (hx : exec c s = act dt (submit op p) s) (A : Asked dt p s) (hn : p.origin ≠ .internal ∨ st = stOk)
    (hc : Passes op p (elapse dt s))
    (hrun : ∀ e i h v, runOp (opFor op p (elapse dt s)) (seen op (elapse dt s) e i h v) =
      (.done st b, { u with
        pwr := { (elapse dt s).pwr with entry := e, idleSince := i }
        host := h
        sprue := { (elapse dt s).sprue with nextId := (elapse dt s).sprue.nextId + 1, slots := v } }))
    (hfield : u.field = (elapse dt s).field) (hlink : u.link = (elapse dt s).link)
    (hnow : now u = now (elapse dt s)) : Answers c op dt p s u st b := by
  have e0 := startState_eq op p (elapse dt s)
  have key := hrun (startState op p (elapse dt s)).pwr.entry (startState op p (elapse dt s)).pwr.idleSince
    (startState op p (elapse dt s)).host (startState op p (elapse dt s)).sprue.slots
  rw [← runState_seen] at key
  obtain ⟨t, h1, h2, h3, h4, h5⟩ := answers_of_run hx A hn hc key
    (by conv_rhs => rw [e0]) rfl hfield hlink (by conv_rhs => rw [e0]) hnow
  exact ⟨t, h1, h2, h3, h4, h5⟩

/-- An operation that is accepted and touches neither its port nor the sequencer. -/
theorem accepts_of_effect {c : Instr} {op : Op} {dt : Nat} {p : Pkt} {s u : State}
    (hx : exec c s = act dt (submit op p) s) (A : Asked dt p s) (hc : Passes op p (elapse dt s))
    (hrun : ∀ e i h v, runOp (opFor op p (elapse dt s)) (seen op (elapse dt s) e i h v) =
      (.accepted, { u with
        pwr := { (elapse dt s).pwr with entry := e, idleSince := i }
        host := h
        sprue := { (elapse dt s).sprue with nextId := (elapse dt s).sprue.nextId + 1, slots := v } }))
    (hfield : u.field = (elapse dt s).field) (hlink : u.link = (elapse dt s).link)
    (hnow : now u = now (elapse dt s)) : Accepts c op dt p s u stAccepted := by
  have e0 := startState_eq op p (elapse dt s)
  have key := hrun (startState op p (elapse dt s)).pwr.entry (startState op p (elapse dt s)).pwr.idleSince
    (startState op p (elapse dt s)).host (startState op p (elapse dt s)).sprue.slots
  rw [← runState_seen] at key
  obtain ⟨t, k, h1, h2, h3, h4, h5⟩ := accepts_of_run (x := none) (k := false) hx A hc key
    (by have := ops_startState (op := op) (p := p) A.2.quiet; exact this)
    (by conv_rhs => rw [e0]) rfl hfield hlink (by conv_rhs => rw [e0]) hnow
  exact ⟨t, k, h1, h2, h3, h4, h5⟩

end Sys2Proof.Machine
end

