-- ==== Sys2Proof/Laws/Sparse.lean ====
section
/-! SUPPORT. Sparse lists (the digest staging window, the patch array, committed parameters): a read after a write, and
the canonical form, which every write keeps. -/

namespace Sys2Proof.Machine

variable {α : Type} [DecidableEq α]

theorem sparseWfFrom_weaken (d : α) {lo lo' : Option Nat} {l : List (Nat × α)}
    (h : sparseWfFrom d lo l = true) (hlo : ∀ b, lo' = some b → ∃ a, lo = some a ∧ b ≤ a) :
    sparseWfFrom d lo' l = true := by
  cases l with
  | nil => rfl
  | cons x r =>
    obtain ⟨i, v⟩ := x
    simp only [sparseWfFrom, Bool.and_eq_true] at h ⊢
    refine ⟨⟨?_, h.1.2⟩, h.2⟩
    cases lo' with
    | none => rfl
    | some b =>
      obtain ⟨a, rfl, hab⟩ := hlo b rfl
      have := of_decide_eq_true h.1.1
      exact decide_eq_true (by omega)

theorem sparseWfFrom_none (d : α) {lo : Option Nat} {l : List (Nat × α)} (h : sparseWfFrom d lo l = true) :
    sparseWfFrom d none l = true := sparseWfFrom_weaken d h (by simp)

/-- A key below every listed one reads as an unlisted key. -/
theorem sparseGet_below (d : α) {lo k : Nat} {l : List (Nat × α)} (h : sparseWfFrom d (some lo) l = true) (hk : k ≤ lo) :
    sparseGet d l k = d := by
  induction l generalizing lo with
  | nil => rfl
  | cons x r ih =>
    obtain ⟨i, v⟩ := x
    simp only [sparseWfFrom, Bool.and_eq_true, decide_eq_true_eq] at h
    have : i ≠ k := by omega
    simp only [sparseGet, this, if_false]
    exact ih h.2 (by omega)

theorem sparseWfFrom_cons {d : α} {lo : Option Nat} {i : Nat} {v : α} {r : List (Nat × α)} :
    sparseWfFrom d lo ((i, v) :: r) = true ↔ (∀ a, lo = some a → a < i) ∧ v ≠ d ∧ sparseWfFrom d (some i) r = true := by
  cases lo <;> simp [sparseWfFrom, and_assoc]

theorem sparseSet_wfFrom (d : α) (lo : Option Nat) (k : Nat) (x : α) (l : List (Nat × α))
    (hk : ∀ a, lo = some a → a < k) (h : sparseWfFrom d lo l = true) :
    sparseWfFrom d lo (sparseSet d k x l) = true := by
  induction l generalizing lo with
  | nil =>
    unfold sparseSet
    split
    · rfl
    · exact sparseWfFrom_cons.2 ⟨hk, ‹_›, rfl⟩
  | cons y r ih =>
    obtain ⟨i, v⟩ := y
    obtain ⟨hi, hv, hr⟩ := sparseWfFrom_cons.1 h
    unfold sparseSet
    split
    · split
      · exact h
      · refine sparseWfFrom_cons.2 ⟨hk, ‹_›, sparseWfFrom_cons.2 ⟨?_, hv, hr⟩⟩
        intro a ha; cases ha; assumption
    · split
      · subst i
        split
        · exact sparseWfFrom_weaken d hr (fun b hb => ⟨k, rfl, Nat.le_of_lt (hk b hb)⟩)
        · exact sparseWfFrom_cons.2 ⟨hk, ‹_›, hr⟩
      · refine sparseWfFrom_cons.2 ⟨hi, hv, ih (some i) ?_ hr⟩
        intro a ha; cases ha; omega

/-- A write keeps the canonical form. -/
theorem sparseSet_wf (d : α) (k : Nat) (x : α) (l : List (Nat × α)) (h : sparseWf d l = true) :
    sparseWf d (sparseSet d k x l) = true :=
  sparseSet_wfFrom d none k x l (by simp) h

/-- A read after a write to the same key gives the value written. -/
theorem sparseGet_set (d : α) (k : Nat) (x : α) (l : List (Nat × α)) (h : sparseWf d l = true) :
    sparseGet d (sparseSet d k x l) k = x := by
  unfold sparseWf at h
  induction l with
  | nil => by_cases hx : x = d <;> simp [sparseSet, sparseGet, hx]
  | cons y r ih =>
    obtain ⟨i, v⟩ := y
    have h' := h
    simp only [sparseWfFrom, Bool.and_eq_true] at h
    unfold sparseSet
    by_cases h1 : k < i
    · by_cases hx : x = d
      · have hi : i ≠ k := by omega
        simp only [h1, if_true, hx, sparseGet, hi, if_false]
        exact sparseGet_below d h.2 (Nat.le_of_lt h1)
      · simp [h1, hx, sparseGet]
    · by_cases h2 : k = i
      · subst h2
        by_cases hx : x = d
        · simp only [Nat.lt_irrefl, if_false, if_true, hx]
          exact sparseGet_below d h.2 (Nat.le_refl k)
        · simp [hx, sparseGet]
      · have hi : i ≠ k := fun e => h2 e.symm
        simp only [h1, h2, if_false, sparseGet, hi]
        exact ih (sparseWfFrom_none d h.2)

/-- A write leaves every other key alone. -/
theorem sparseGet_set_other (d : α) {k j : Nat} (x : α) (l : List (Nat × α)) (h : sparseWf d l = true) (hj : j ≠ k) :
    sparseGet d (sparseSet d k x l) j = sparseGet d l j := by
  unfold sparseWf at h
  induction l with
  | nil => by_cases hx : x = d <;> simp [sparseSet, sparseGet, hx, Ne.symm hj]
  | cons y r ih =>
    obtain ⟨i, v⟩ := y
    simp only [sparseWfFrom, Bool.and_eq_true] at h
    unfold sparseSet
    by_cases h1 : k < i
    · by_cases hx : x = d <;> simp [h1, hx, sparseGet, Ne.symm hj]
    · by_cases h2 : k = i
      · subst h2
        by_cases hx : x = d <;> simp [hx, sparseGet, Ne.symm hj]
      · simp only [h1, h2, if_false, sparseGet]
        split
        · rfl
        · exact ih (sparseWfFrom_none d h.2)

/-- Writing bytes at successive keys keeps the canonical form. -/
theorem sparseFold_wf (d : α) (off : Nat) (bs : List (α × Nat)) (l : List (Nat × α)) (h : sparseWf d l = true) :
    sparseWf d (bs.foldl (fun l x => sparseSet d (off + x.2) x.1 l) l) = true := by
  induction bs generalizing l with
  | nil => exact h
  | cons b r ih => exact ih _ (sparseSet_wf d _ _ l h)

/-- A write of the staging window keeps its canonical form (13_security.md R321). -/
theorem stagingWrite_wf (off v : Nat) (s : State) (h : sparseWf 0 s.sec.staging = true) :
    sparseWf 0 (stagingWrite off v s).sec.staging = true :=
  sparseFold_wf 0 off _ _ h

end Sys2Proof.Machine
end

