-- ==== Sys2Proof/Laws/State.lean ====
section
/-! SUPPORT. What the plain updates of State leave alone: one lemma for each field an update does not write, so that no
proof unfolds a record update. -/

namespace Sys2Proof.Machine

variable (s : State)

@[simp] theorem linkCount_pending (i : Nat) : (linkCount i s).pending = s.pending := rfl
@[simp] theorem linkCount_clk (i : Nat) : (linkCount i s).clk = s.clk := rfl
@[simp] theorem linkCount_pwr (i : Nat) : (linkCount i s).pwr = s.pwr := rfl
@[simp] theorem linkCount_start (i : Nat) : (linkCount i s).start = s.start := rfl
@[simp] theorem linkCount_tmr (i : Nat) : (linkCount i s).tmr = s.tmr := rfl
@[simp] theorem linkCount_afe (i : Nat) : (linkCount i s).afe = s.afe := rfl
@[simp] theorem linkCount_cqa (i : Nat) : (linkCount i s).cqa = s.cqa := rfl
@[simp] theorem linkCount_cqb (i : Nat) : (linkCount i s).cqb = s.cqb := rfl
@[simp] theorem linkCount_capStamp (i : Nat) : (linkCount i s).capStamp = s.capStamp := rfl
@[simp] theorem linkCount_capStampOld (i : Nat) : (linkCount i s).capStampOld = s.capStampOld := rfl
@[simp] theorem linkCount_capAt (i : Nat) : (linkCount i s).capAt = s.capAt := rfl
@[simp] theorem linkCount_sar (i : Nat) : (linkCount i s).sar = s.sar := rfl
@[simp] theorem linkCount_gauge (i : Nat) : (linkCount i s).gauge = s.gauge := rfl
@[simp] theorem linkCount_glint (i : Nat) : (linkCount i s).glint = s.glint := rfl
@[simp] theorem linkCount_alm (i : Nat) : (linkCount i s).alm = s.alm := rfl
@[simp] theorem linkCount_anneal (i : Nat) : (linkCount i s).anneal = s.anneal := rfl
@[simp] theorem linkCount_pol (i : Nat) : (linkCount i s).pol = s.pol := rfl
@[simp] theorem linkCount_sprue (i : Nat) : (linkCount i s).sprue = s.sprue := rfl
@[simp] theorem linkCount_par (i : Nat) : (linkCount i s).par = s.par := rfl
@[simp] theorem linkCount_host (i : Nat) : (linkCount i s).host = s.host := rfl
@[simp] theorem linkCount_field (i : Nat) : (linkCount i s).field = s.field := rfl
@[simp] theorem linkCount_sec (i : Nat) : (linkCount i s).sec = s.sec := rfl
@[simp] theorem linkCount_tamp (i : Nat) : (linkCount i s).tamp = s.tamp := rfl
@[simp] theorem linkCount_nv (i : Nat) : (linkCount i s).nv = s.nv := rfl
@[simp] theorem linkCount_drawn (i : Nat) : (linkCount i s).drawn = s.drawn := rfl

@[simp] theorem replyLeft_pending (i : Nat) : (replyLeft i s).pending = s.pending := rfl
@[simp] theorem replyLeft_clk (i : Nat) : (replyLeft i s).clk = s.clk := rfl
@[simp] theorem replyLeft_start (i : Nat) : (replyLeft i s).start = s.start := rfl
@[simp] theorem replyLeft_tmr (i : Nat) : (replyLeft i s).tmr = s.tmr := rfl
@[simp] theorem replyLeft_afe (i : Nat) : (replyLeft i s).afe = s.afe := rfl
@[simp] theorem replyLeft_cqa (i : Nat) : (replyLeft i s).cqa = s.cqa := rfl
@[simp] theorem replyLeft_cqb (i : Nat) : (replyLeft i s).cqb = s.cqb := rfl
@[simp] theorem replyLeft_capStamp (i : Nat) : (replyLeft i s).capStamp = s.capStamp := rfl
@[simp] theorem replyLeft_capStampOld (i : Nat) : (replyLeft i s).capStampOld = s.capStampOld := rfl
@[simp] theorem replyLeft_capAt (i : Nat) : (replyLeft i s).capAt = s.capAt := rfl
@[simp] theorem replyLeft_sar (i : Nat) : (replyLeft i s).sar = s.sar := rfl
@[simp] theorem replyLeft_gauge (i : Nat) : (replyLeft i s).gauge = s.gauge := rfl
@[simp] theorem replyLeft_glint (i : Nat) : (replyLeft i s).glint = s.glint := rfl
@[simp] theorem replyLeft_alm (i : Nat) : (replyLeft i s).alm = s.alm := rfl
@[simp] theorem replyLeft_anneal (i : Nat) : (replyLeft i s).anneal = s.anneal := rfl
@[simp] theorem replyLeft_pol (i : Nat) : (replyLeft i s).pol = s.pol := rfl
@[simp] theorem replyLeft_sprue (i : Nat) : (replyLeft i s).sprue = s.sprue := rfl
@[simp] theorem replyLeft_par (i : Nat) : (replyLeft i s).par = s.par := rfl
@[simp] theorem replyLeft_host (i : Nat) : (replyLeft i s).host = s.host := rfl
@[simp] theorem replyLeft_field (i : Nat) : (replyLeft i s).field = s.field := rfl
@[simp] theorem replyLeft_link (i : Nat) : (replyLeft i s).link = s.link := rfl
@[simp] theorem replyLeft_sec (i : Nat) : (replyLeft i s).sec = s.sec := rfl
@[simp] theorem replyLeft_tamp (i : Nat) : (replyLeft i s).tamp = s.tamp := rfl
@[simp] theorem replyLeft_nv (i : Nat) : (replyLeft i s).nv = s.nv := rfl
@[simp] theorem replyLeft_drawn (i : Nat) : (replyLeft i s).drawn = s.drawn := rfl

@[simp] theorem addBits_pending (b : Bits) : (addBits b s).pending = s.pending := rfl
@[simp] theorem addBits_clk (b : Bits) : (addBits b s).clk = s.clk := rfl
@[simp] theorem addBits_pwr (b : Bits) : (addBits b s).pwr = s.pwr := rfl
@[simp] theorem addBits_start (b : Bits) : (addBits b s).start = s.start := rfl
@[simp] theorem addBits_tmr (b : Bits) : (addBits b s).tmr = s.tmr := rfl
@[simp] theorem addBits_afe (b : Bits) : (addBits b s).afe = s.afe := rfl
@[simp] theorem addBits_capStamp (b : Bits) : (addBits b s).capStamp = s.capStamp := rfl
@[simp] theorem addBits_capStampOld (b : Bits) : (addBits b s).capStampOld = s.capStampOld := rfl
@[simp] theorem addBits_capAt (b : Bits) : (addBits b s).capAt = s.capAt := rfl
@[simp] theorem addBits_sar (b : Bits) : (addBits b s).sar = s.sar := rfl
@[simp] theorem addBits_gauge (b : Bits) : (addBits b s).gauge = s.gauge := rfl
@[simp] theorem addBits_glint (b : Bits) : (addBits b s).glint = s.glint := rfl
@[simp] theorem addBits_alm (b : Bits) : (addBits b s).alm = s.alm := rfl
@[simp] theorem addBits_anneal (b : Bits) : (addBits b s).anneal = s.anneal := rfl
@[simp] theorem addBits_pol (b : Bits) : (addBits b s).pol = s.pol := rfl
@[simp] theorem addBits_sprue (b : Bits) : (addBits b s).sprue = s.sprue := rfl
@[simp] theorem addBits_par (b : Bits) : (addBits b s).par = s.par := rfl
@[simp] theorem addBits_host (b : Bits) : (addBits b s).host = s.host := rfl
@[simp] theorem addBits_field (b : Bits) : (addBits b s).field = s.field := rfl
@[simp] theorem addBits_link (b : Bits) : (addBits b s).link = s.link := rfl
@[simp] theorem addBits_sec (b : Bits) : (addBits b s).sec = s.sec := rfl
@[simp] theorem addBits_tamp (b : Bits) : (addBits b s).tamp = s.tamp := rfl
@[simp] theorem addBits_nv (b : Bits) : (addBits b s).nv = s.nv := rfl
@[simp] theorem addBits_drawn (b : Bits) : (addBits b s).drawn = s.drawn := rfl

@[simp] theorem cdnSet_pending (i buf n f : Nat) (src : BitVec 8) : (cdnSet i buf n f src s).pending = s.pending := rfl
@[simp] theorem cdnSet_clk (i buf n f : Nat) (src : BitVec 8) : (cdnSet i buf n f src s).clk = s.clk := rfl
@[simp] theorem cdnSet_pwr (i buf n f : Nat) (src : BitVec 8) : (cdnSet i buf n f src s).pwr = s.pwr := rfl
@[simp] theorem cdnSet_start (i buf n f : Nat) (src : BitVec 8) : (cdnSet i buf n f src s).start = s.start := rfl
@[simp] theorem cdnSet_afe (i buf n f : Nat) (src : BitVec 8) : (cdnSet i buf n f src s).afe = s.afe := rfl
@[simp] theorem cdnSet_cqa (i buf n f : Nat) (src : BitVec 8) : (cdnSet i buf n f src s).cqa = s.cqa := rfl
@[simp] theorem cdnSet_cqb (i buf n f : Nat) (src : BitVec 8) : (cdnSet i buf n f src s).cqb = s.cqb := rfl
@[simp] theorem cdnSet_capStamp (i buf n f : Nat) (src : BitVec 8) : (cdnSet i buf n f src s).capStamp = s.capStamp := rfl
@[simp] theorem cdnSet_capStampOld (i buf n f : Nat) (src : BitVec 8) : (cdnSet i buf n f src s).capStampOld = s.capStampOld := rfl
@[simp] theorem cdnSet_capAt (i buf n f : Nat) (src : BitVec 8) : (cdnSet i buf n f src s).capAt = s.capAt := rfl
@[simp] theorem cdnSet_sar (i buf n f : Nat) (src : BitVec 8) : (cdnSet i buf n f src s).sar = s.sar := rfl
@[simp] theorem cdnSet_gauge (i buf n f : Nat) (src : BitVec 8) : (cdnSet i buf n f src s).gauge = s.gauge := rfl
@[simp] theorem cdnSet_glint (i buf n f : Nat) (src : BitVec 8) : (cdnSet i buf n f src s).glint = s.glint := rfl
@[simp] theorem cdnSet_alm (i buf n f : Nat) (src : BitVec 8) : (cdnSet i buf n f src s).alm = s.alm := rfl
@[simp] theorem cdnSet_anneal (i buf n f : Nat) (src : BitVec 8) : (cdnSet i buf n f src s).anneal = s.anneal := rfl
@[simp] theorem cdnSet_pol (i buf n f : Nat) (src : BitVec 8) : (cdnSet i buf n f src s).pol = s.pol := rfl
@[simp] theorem cdnSet_sprue (i buf n f : Nat) (src : BitVec 8) : (cdnSet i buf n f src s).sprue = s.sprue := rfl
@[simp] theorem cdnSet_par (i buf n f : Nat) (src : BitVec 8) : (cdnSet i buf n f src s).par = s.par := rfl
@[simp] theorem cdnSet_host (i buf n f : Nat) (src : BitVec 8) : (cdnSet i buf n f src s).host = s.host := rfl
@[simp] theorem cdnSet_field (i buf n f : Nat) (src : BitVec 8) : (cdnSet i buf n f src s).field = s.field := rfl
@[simp] theorem cdnSet_link (i buf n f : Nat) (src : BitVec 8) : (cdnSet i buf n f src s).link = s.link := rfl
@[simp] theorem cdnSet_sec (i buf n f : Nat) (src : BitVec 8) : (cdnSet i buf n f src s).sec = s.sec := rfl
@[simp] theorem cdnSet_tamp (i buf n f : Nat) (src : BitVec 8) : (cdnSet i buf n f src s).tamp = s.tamp := rfl
@[simp] theorem cdnSet_nv (i buf n f : Nat) (src : BitVec 8) : (cdnSet i buf n f src s).nv = s.nv := rfl
@[simp] theorem cdnSet_drawn (i buf n f : Nat) (src : BitVec 8) : (cdnSet i buf n f src s).drawn = s.drawn := rfl

@[simp] theorem capqPush_pending (i : Nat) : (capqPush i s).pending = s.pending := rfl
@[simp] theorem capqPush_clk (i : Nat) : (capqPush i s).clk = s.clk := rfl
@[simp] theorem capqPush_pwr (i : Nat) : (capqPush i s).pwr = s.pwr := rfl
@[simp] theorem capqPush_start (i : Nat) : (capqPush i s).start = s.start := rfl
@[simp] theorem capqPush_afe (i : Nat) : (capqPush i s).afe = s.afe := rfl
@[simp] theorem capqPush_cqa (i : Nat) : (capqPush i s).cqa = s.cqa := rfl
@[simp] theorem capqPush_cqb (i : Nat) : (capqPush i s).cqb = s.cqb := rfl
@[simp] theorem capqPush_capStamp (i : Nat) : (capqPush i s).capStamp = s.capStamp := rfl
@[simp] theorem capqPush_capStampOld (i : Nat) : (capqPush i s).capStampOld = s.capStampOld := rfl
@[simp] theorem capqPush_capAt (i : Nat) : (capqPush i s).capAt = s.capAt := rfl
@[simp] theorem capqPush_sar (i : Nat) : (capqPush i s).sar = s.sar := rfl
@[simp] theorem capqPush_gauge (i : Nat) : (capqPush i s).gauge = s.gauge := rfl
@[simp] theorem capqPush_glint (i : Nat) : (capqPush i s).glint = s.glint := rfl
@[simp] theorem capqPush_alm (i : Nat) : (capqPush i s).alm = s.alm := rfl
@[simp] theorem capqPush_anneal (i : Nat) : (capqPush i s).anneal = s.anneal := rfl
@[simp] theorem capqPush_pol (i : Nat) : (capqPush i s).pol = s.pol := rfl
@[simp] theorem capqPush_sprue (i : Nat) : (capqPush i s).sprue = s.sprue := rfl
@[simp] theorem capqPush_par (i : Nat) : (capqPush i s).par = s.par := rfl
@[simp] theorem capqPush_host (i : Nat) : (capqPush i s).host = s.host := rfl
@[simp] theorem capqPush_field (i : Nat) : (capqPush i s).field = s.field := rfl
@[simp] theorem capqPush_link (i : Nat) : (capqPush i s).link = s.link := rfl
@[simp] theorem capqPush_sec (i : Nat) : (capqPush i s).sec = s.sec := rfl
@[simp] theorem capqPush_tamp (i : Nat) : (capqPush i s).tamp = s.tamp := rfl
@[simp] theorem capqPush_nv (i : Nat) : (capqPush i s).nv = s.nv := rfl
@[simp] theorem capqPush_drawn (i : Nat) : (capqPush i s).drawn = s.drawn := rfl

@[simp] theorem modAcc_pending (i : Nat) (f : Acc → Acc) : (modAcc i f s).pending = s.pending := rfl
@[simp] theorem modAcc_clk (i : Nat) (f : Acc → Acc) : (modAcc i f s).clk = s.clk := rfl
@[simp] theorem modAcc_pwr (i : Nat) (f : Acc → Acc) : (modAcc i f s).pwr = s.pwr := rfl
@[simp] theorem modAcc_start (i : Nat) (f : Acc → Acc) : (modAcc i f s).start = s.start := rfl
@[simp] theorem modAcc_tmr (i : Nat) (f : Acc → Acc) : (modAcc i f s).tmr = s.tmr := rfl
@[simp] theorem modAcc_afe (i : Nat) (f : Acc → Acc) : (modAcc i f s).afe = s.afe := rfl
@[simp] theorem modAcc_cqa (i : Nat) (f : Acc → Acc) : (modAcc i f s).cqa = s.cqa := rfl
@[simp] theorem modAcc_cqb (i : Nat) (f : Acc → Acc) : (modAcc i f s).cqb = s.cqb := rfl
@[simp] theorem modAcc_capStamp (i : Nat) (f : Acc → Acc) : (modAcc i f s).capStamp = s.capStamp := rfl
@[simp] theorem modAcc_capStampOld (i : Nat) (f : Acc → Acc) : (modAcc i f s).capStampOld = s.capStampOld := rfl
@[simp] theorem modAcc_capAt (i : Nat) (f : Acc → Acc) : (modAcc i f s).capAt = s.capAt := rfl
@[simp] theorem modAcc_gauge (i : Nat) (f : Acc → Acc) : (modAcc i f s).gauge = s.gauge := rfl
@[simp] theorem modAcc_glint (i : Nat) (f : Acc → Acc) : (modAcc i f s).glint = s.glint := rfl
@[simp] theorem modAcc_alm (i : Nat) (f : Acc → Acc) : (modAcc i f s).alm = s.alm := rfl
@[simp] theorem modAcc_anneal (i : Nat) (f : Acc → Acc) : (modAcc i f s).anneal = s.anneal := rfl
@[simp] theorem modAcc_pol (i : Nat) (f : Acc → Acc) : (modAcc i f s).pol = s.pol := rfl
@[simp] theorem modAcc_sprue (i : Nat) (f : Acc → Acc) : (modAcc i f s).sprue = s.sprue := rfl
@[simp] theorem modAcc_par (i : Nat) (f : Acc → Acc) : (modAcc i f s).par = s.par := rfl
@[simp] theorem modAcc_host (i : Nat) (f : Acc → Acc) : (modAcc i f s).host = s.host := rfl
@[simp] theorem modAcc_field (i : Nat) (f : Acc → Acc) : (modAcc i f s).field = s.field := rfl
@[simp] theorem modAcc_link (i : Nat) (f : Acc → Acc) : (modAcc i f s).link = s.link := rfl
@[simp] theorem modAcc_sec (i : Nat) (f : Acc → Acc) : (modAcc i f s).sec = s.sec := rfl
@[simp] theorem modAcc_tamp (i : Nat) (f : Acc → Acc) : (modAcc i f s).tamp = s.tamp := rfl
@[simp] theorem modAcc_nv (i : Nat) (f : Acc → Acc) : (modAcc i f s).nv = s.nv := rfl
@[simp] theorem modAcc_drawn (i : Nat) (f : Acc → Acc) : (modAcc i f s).drawn = s.drawn := rfl

@[simp] theorem modTrk_pending (i : Nat) (f : Trk → Trk) : (modTrk i f s).pending = s.pending := rfl
@[simp] theorem modTrk_clk (i : Nat) (f : Trk → Trk) : (modTrk i f s).clk = s.clk := rfl
@[simp] theorem modTrk_pwr (i : Nat) (f : Trk → Trk) : (modTrk i f s).pwr = s.pwr := rfl
@[simp] theorem modTrk_start (i : Nat) (f : Trk → Trk) : (modTrk i f s).start = s.start := rfl
@[simp] theorem modTrk_tmr (i : Nat) (f : Trk → Trk) : (modTrk i f s).tmr = s.tmr := rfl
@[simp] theorem modTrk_afe (i : Nat) (f : Trk → Trk) : (modTrk i f s).afe = s.afe := rfl
@[simp] theorem modTrk_cqa (i : Nat) (f : Trk → Trk) : (modTrk i f s).cqa = s.cqa := rfl
@[simp] theorem modTrk_cqb (i : Nat) (f : Trk → Trk) : (modTrk i f s).cqb = s.cqb := rfl
@[simp] theorem modTrk_capStamp (i : Nat) (f : Trk → Trk) : (modTrk i f s).capStamp = s.capStamp := rfl
@[simp] theorem modTrk_capStampOld (i : Nat) (f : Trk → Trk) : (modTrk i f s).capStampOld = s.capStampOld := rfl
@[simp] theorem modTrk_capAt (i : Nat) (f : Trk → Trk) : (modTrk i f s).capAt = s.capAt := rfl
@[simp] theorem modTrk_gauge (i : Nat) (f : Trk → Trk) : (modTrk i f s).gauge = s.gauge := rfl
@[simp] theorem modTrk_glint (i : Nat) (f : Trk → Trk) : (modTrk i f s).glint = s.glint := rfl
@[simp] theorem modTrk_alm (i : Nat) (f : Trk → Trk) : (modTrk i f s).alm = s.alm := rfl
@[simp] theorem modTrk_anneal (i : Nat) (f : Trk → Trk) : (modTrk i f s).anneal = s.anneal := rfl
@[simp] theorem modTrk_pol (i : Nat) (f : Trk → Trk) : (modTrk i f s).pol = s.pol := rfl
@[simp] theorem modTrk_sprue (i : Nat) (f : Trk → Trk) : (modTrk i f s).sprue = s.sprue := rfl
@[simp] theorem modTrk_par (i : Nat) (f : Trk → Trk) : (modTrk i f s).par = s.par := rfl
@[simp] theorem modTrk_host (i : Nat) (f : Trk → Trk) : (modTrk i f s).host = s.host := rfl
@[simp] theorem modTrk_field (i : Nat) (f : Trk → Trk) : (modTrk i f s).field = s.field := rfl
@[simp] theorem modTrk_link (i : Nat) (f : Trk → Trk) : (modTrk i f s).link = s.link := rfl
@[simp] theorem modTrk_sec (i : Nat) (f : Trk → Trk) : (modTrk i f s).sec = s.sec := rfl
@[simp] theorem modTrk_tamp (i : Nat) (f : Trk → Trk) : (modTrk i f s).tamp = s.tamp := rfl
@[simp] theorem modTrk_nv (i : Nat) (f : Trk → Trk) : (modTrk i f s).nv = s.nv := rfl
@[simp] theorem modTrk_drawn (i : Nat) (f : Trk → Trk) : (modTrk i f s).drawn = s.drawn := rfl

@[simp] theorem mapOps_pending (f : Oper → Oper) : (mapOps f s).pending = s.pending := rfl
@[simp] theorem mapOps_clk (f : Oper → Oper) : (mapOps f s).clk = s.clk := rfl
@[simp] theorem mapOps_pwr (f : Oper → Oper) : (mapOps f s).pwr = s.pwr := rfl
@[simp] theorem mapOps_start (f : Oper → Oper) : (mapOps f s).start = s.start := rfl
@[simp] theorem mapOps_tmr (f : Oper → Oper) : (mapOps f s).tmr = s.tmr := rfl
@[simp] theorem mapOps_afe (f : Oper → Oper) : (mapOps f s).afe = s.afe := rfl
@[simp] theorem mapOps_cqa (f : Oper → Oper) : (mapOps f s).cqa = s.cqa := rfl
@[simp] theorem mapOps_cqb (f : Oper → Oper) : (mapOps f s).cqb = s.cqb := rfl
@[simp] theorem mapOps_capStamp (f : Oper → Oper) : (mapOps f s).capStamp = s.capStamp := rfl
@[simp] theorem mapOps_capStampOld (f : Oper → Oper) : (mapOps f s).capStampOld = s.capStampOld := rfl
@[simp] theorem mapOps_capAt (f : Oper → Oper) : (mapOps f s).capAt = s.capAt := rfl
@[simp] theorem mapOps_sar (f : Oper → Oper) : (mapOps f s).sar = s.sar := rfl
@[simp] theorem mapOps_gauge (f : Oper → Oper) : (mapOps f s).gauge = s.gauge := rfl
@[simp] theorem mapOps_glint (f : Oper → Oper) : (mapOps f s).glint = s.glint := rfl
@[simp] theorem mapOps_alm (f : Oper → Oper) : (mapOps f s).alm = s.alm := rfl
@[simp] theorem mapOps_anneal (f : Oper → Oper) : (mapOps f s).anneal = s.anneal := rfl
@[simp] theorem mapOps_pol (f : Oper → Oper) : (mapOps f s).pol = s.pol := rfl
@[simp] theorem mapOps_par (f : Oper → Oper) : (mapOps f s).par = s.par := rfl
@[simp] theorem mapOps_host (f : Oper → Oper) : (mapOps f s).host = s.host := rfl
@[simp] theorem mapOps_field (f : Oper → Oper) : (mapOps f s).field = s.field := rfl
@[simp] theorem mapOps_link (f : Oper → Oper) : (mapOps f s).link = s.link := rfl
@[simp] theorem mapOps_sec (f : Oper → Oper) : (mapOps f s).sec = s.sec := rfl
@[simp] theorem mapOps_tamp (f : Oper → Oper) : (mapOps f s).tamp = s.tamp := rfl
@[simp] theorem mapOps_nv (f : Oper → Oper) : (mapOps f s).nv = s.nv := rfl
@[simp] theorem mapOps_drawn (f : Oper → Oper) : (mapOps f s).drawn = s.drawn := rfl

@[simp] theorem freeOp_pending (i : Nat) : (freeOp i s).pending = s.pending := rfl
@[simp] theorem freeOp_clk (i : Nat) : (freeOp i s).clk = s.clk := rfl
@[simp] theorem freeOp_pwr (i : Nat) : (freeOp i s).pwr = s.pwr := rfl
@[simp] theorem freeOp_start (i : Nat) : (freeOp i s).start = s.start := rfl
@[simp] theorem freeOp_tmr (i : Nat) : (freeOp i s).tmr = s.tmr := rfl
@[simp] theorem freeOp_afe (i : Nat) : (freeOp i s).afe = s.afe := rfl
@[simp] theorem freeOp_cqa (i : Nat) : (freeOp i s).cqa = s.cqa := rfl
@[simp] theorem freeOp_cqb (i : Nat) : (freeOp i s).cqb = s.cqb := rfl
@[simp] theorem freeOp_capStamp (i : Nat) : (freeOp i s).capStamp = s.capStamp := rfl
@[simp] theorem freeOp_capStampOld (i : Nat) : (freeOp i s).capStampOld = s.capStampOld := rfl
@[simp] theorem freeOp_capAt (i : Nat) : (freeOp i s).capAt = s.capAt := rfl
@[simp] theorem freeOp_sar (i : Nat) : (freeOp i s).sar = s.sar := rfl
@[simp] theorem freeOp_gauge (i : Nat) : (freeOp i s).gauge = s.gauge := rfl
@[simp] theorem freeOp_glint (i : Nat) : (freeOp i s).glint = s.glint := rfl
@[simp] theorem freeOp_alm (i : Nat) : (freeOp i s).alm = s.alm := rfl
@[simp] theorem freeOp_anneal (i : Nat) : (freeOp i s).anneal = s.anneal := rfl
@[simp] theorem freeOp_pol (i : Nat) : (freeOp i s).pol = s.pol := rfl
@[simp] theorem freeOp_par (i : Nat) : (freeOp i s).par = s.par := rfl
@[simp] theorem freeOp_host (i : Nat) : (freeOp i s).host = s.host := rfl
@[simp] theorem freeOp_field (i : Nat) : (freeOp i s).field = s.field := rfl
@[simp] theorem freeOp_link (i : Nat) : (freeOp i s).link = s.link := rfl
@[simp] theorem freeOp_sec (i : Nat) : (freeOp i s).sec = s.sec := rfl
@[simp] theorem freeOp_tamp (i : Nat) : (freeOp i s).tamp = s.tamp := rfl
@[simp] theorem freeOp_nv (i : Nat) : (freeOp i s).nv = s.nv := rfl
@[simp] theorem freeOp_drawn (i : Nat) : (freeOp i s).drawn = s.drawn := rfl

@[simp] theorem setSector_pending (i : Nat) (x : Sector) : (setSector i x s).pending = s.pending := rfl
@[simp] theorem setSector_clk (i : Nat) (x : Sector) : (setSector i x s).clk = s.clk := rfl
@[simp] theorem setSector_pwr (i : Nat) (x : Sector) : (setSector i x s).pwr = s.pwr := rfl
@[simp] theorem setSector_start (i : Nat) (x : Sector) : (setSector i x s).start = s.start := rfl
@[simp] theorem setSector_tmr (i : Nat) (x : Sector) : (setSector i x s).tmr = s.tmr := rfl
@[simp] theorem setSector_afe (i : Nat) (x : Sector) : (setSector i x s).afe = s.afe := rfl
@[simp] theorem setSector_cqa (i : Nat) (x : Sector) : (setSector i x s).cqa = s.cqa := rfl
@[simp] theorem setSector_cqb (i : Nat) (x : Sector) : (setSector i x s).cqb = s.cqb := rfl
@[simp] theorem setSector_capStamp (i : Nat) (x : Sector) : (setSector i x s).capStamp = s.capStamp := rfl
@[simp] theorem setSector_capStampOld (i : Nat) (x : Sector) : (setSector i x s).capStampOld = s.capStampOld := rfl
@[simp] theorem setSector_capAt (i : Nat) (x : Sector) : (setSector i x s).capAt = s.capAt := rfl
@[simp] theorem setSector_sar (i : Nat) (x : Sector) : (setSector i x s).sar = s.sar := rfl
@[simp] theorem setSector_gauge (i : Nat) (x : Sector) : (setSector i x s).gauge = s.gauge := rfl
@[simp] theorem setSector_glint (i : Nat) (x : Sector) : (setSector i x s).glint = s.glint := rfl
@[simp] theorem setSector_alm (i : Nat) (x : Sector) : (setSector i x s).alm = s.alm := rfl
@[simp] theorem setSector_anneal (i : Nat) (x : Sector) : (setSector i x s).anneal = s.anneal := rfl
@[simp] theorem setSector_pol (i : Nat) (x : Sector) : (setSector i x s).pol = s.pol := rfl
@[simp] theorem setSector_sprue (i : Nat) (x : Sector) : (setSector i x s).sprue = s.sprue := rfl
@[simp] theorem setSector_par (i : Nat) (x : Sector) : (setSector i x s).par = s.par := rfl
@[simp] theorem setSector_host (i : Nat) (x : Sector) : (setSector i x s).host = s.host := rfl
@[simp] theorem setSector_field (i : Nat) (x : Sector) : (setSector i x s).field = s.field := rfl
@[simp] theorem setSector_link (i : Nat) (x : Sector) : (setSector i x s).link = s.link := rfl
@[simp] theorem setSector_sec (i : Nat) (x : Sector) : (setSector i x s).sec = s.sec := rfl
@[simp] theorem setSector_tamp (i : Nat) (x : Sector) : (setSector i x s).tamp = s.tamp := rfl
@[simp] theorem setSector_drawn (i : Nat) (x : Sector) : (setSector i x s).drawn = s.drawn := rfl

@[simp] theorem putCopy_pending (slot i : Nat) (c : Option KeyCopy) : (putCopy slot i c s).pending = s.pending := rfl
@[simp] theorem putCopy_clk (slot i : Nat) (c : Option KeyCopy) : (putCopy slot i c s).clk = s.clk := rfl
@[simp] theorem putCopy_pwr (slot i : Nat) (c : Option KeyCopy) : (putCopy slot i c s).pwr = s.pwr := rfl
@[simp] theorem putCopy_start (slot i : Nat) (c : Option KeyCopy) : (putCopy slot i c s).start = s.start := rfl
@[simp] theorem putCopy_tmr (slot i : Nat) (c : Option KeyCopy) : (putCopy slot i c s).tmr = s.tmr := rfl
@[simp] theorem putCopy_afe (slot i : Nat) (c : Option KeyCopy) : (putCopy slot i c s).afe = s.afe := rfl
@[simp] theorem putCopy_cqa (slot i : Nat) (c : Option KeyCopy) : (putCopy slot i c s).cqa = s.cqa := rfl
@[simp] theorem putCopy_cqb (slot i : Nat) (c : Option KeyCopy) : (putCopy slot i c s).cqb = s.cqb := rfl
@[simp] theorem putCopy_capStamp (slot i : Nat) (c : Option KeyCopy) : (putCopy slot i c s).capStamp = s.capStamp := rfl
@[simp] theorem putCopy_capStampOld (slot i : Nat) (c : Option KeyCopy) : (putCopy slot i c s).capStampOld = s.capStampOld := rfl
@[simp] theorem putCopy_capAt (slot i : Nat) (c : Option KeyCopy) : (putCopy slot i c s).capAt = s.capAt := rfl
@[simp] theorem putCopy_sar (slot i : Nat) (c : Option KeyCopy) : (putCopy slot i c s).sar = s.sar := rfl
@[simp] theorem putCopy_gauge (slot i : Nat) (c : Option KeyCopy) : (putCopy slot i c s).gauge = s.gauge := rfl
@[simp] theorem putCopy_glint (slot i : Nat) (c : Option KeyCopy) : (putCopy slot i c s).glint = s.glint := rfl
@[simp] theorem putCopy_alm (slot i : Nat) (c : Option KeyCopy) : (putCopy slot i c s).alm = s.alm := rfl
@[simp] theorem putCopy_anneal (slot i : Nat) (c : Option KeyCopy) : (putCopy slot i c s).anneal = s.anneal := rfl
@[simp] theorem putCopy_pol (slot i : Nat) (c : Option KeyCopy) : (putCopy slot i c s).pol = s.pol := rfl
@[simp] theorem putCopy_sprue (slot i : Nat) (c : Option KeyCopy) : (putCopy slot i c s).sprue = s.sprue := rfl
@[simp] theorem putCopy_par (slot i : Nat) (c : Option KeyCopy) : (putCopy slot i c s).par = s.par := rfl
@[simp] theorem putCopy_host (slot i : Nat) (c : Option KeyCopy) : (putCopy slot i c s).host = s.host := rfl
@[simp] theorem putCopy_field (slot i : Nat) (c : Option KeyCopy) : (putCopy slot i c s).field = s.field := rfl
@[simp] theorem putCopy_link (slot i : Nat) (c : Option KeyCopy) : (putCopy slot i c s).link = s.link := rfl
@[simp] theorem putCopy_sec (slot i : Nat) (c : Option KeyCopy) : (putCopy slot i c s).sec = s.sec := rfl
@[simp] theorem putCopy_tamp (slot i : Nat) (c : Option KeyCopy) : (putCopy slot i c s).tamp = s.tamp := rfl
@[simp] theorem putCopy_drawn (slot i : Nat) (c : Option KeyCopy) : (putCopy slot i c s).drawn = s.drawn := rfl

@[simp] theorem eraseKeys_pending : (eraseKeys s).pending = s.pending := rfl
@[simp] theorem eraseKeys_clk : (eraseKeys s).clk = s.clk := rfl
@[simp] theorem eraseKeys_pwr : (eraseKeys s).pwr = s.pwr := rfl
@[simp] theorem eraseKeys_start : (eraseKeys s).start = s.start := rfl
@[simp] theorem eraseKeys_tmr : (eraseKeys s).tmr = s.tmr := rfl
@[simp] theorem eraseKeys_afe : (eraseKeys s).afe = s.afe := rfl
@[simp] theorem eraseKeys_cqa : (eraseKeys s).cqa = s.cqa := rfl
@[simp] theorem eraseKeys_cqb : (eraseKeys s).cqb = s.cqb := rfl
@[simp] theorem eraseKeys_capStamp : (eraseKeys s).capStamp = s.capStamp := rfl
@[simp] theorem eraseKeys_capStampOld : (eraseKeys s).capStampOld = s.capStampOld := rfl
@[simp] theorem eraseKeys_capAt : (eraseKeys s).capAt = s.capAt := rfl
@[simp] theorem eraseKeys_sar : (eraseKeys s).sar = s.sar := rfl
@[simp] theorem eraseKeys_gauge : (eraseKeys s).gauge = s.gauge := rfl
@[simp] theorem eraseKeys_glint : (eraseKeys s).glint = s.glint := rfl
@[simp] theorem eraseKeys_alm : (eraseKeys s).alm = s.alm := rfl
@[simp] theorem eraseKeys_anneal : (eraseKeys s).anneal = s.anneal := rfl
@[simp] theorem eraseKeys_pol : (eraseKeys s).pol = s.pol := rfl
@[simp] theorem eraseKeys_sprue : (eraseKeys s).sprue = s.sprue := rfl
@[simp] theorem eraseKeys_par : (eraseKeys s).par = s.par := rfl
@[simp] theorem eraseKeys_host : (eraseKeys s).host = s.host := rfl
@[simp] theorem eraseKeys_field : (eraseKeys s).field = s.field := rfl
@[simp] theorem eraseKeys_link : (eraseKeys s).link = s.link := rfl
@[simp] theorem eraseKeys_sec : (eraseKeys s).sec = s.sec := rfl
@[simp] theorem eraseKeys_tamp : (eraseKeys s).tamp = s.tamp := rfl
@[simp] theorem eraseKeys_drawn : (eraseKeys s).drawn = s.drawn := rfl

@[simp] theorem setJob_pending (j : Option Job) : (setJob j s).pending = s.pending := rfl
@[simp] theorem setJob_clk (j : Option Job) : (setJob j s).clk = s.clk := rfl
@[simp] theorem setJob_pwr (j : Option Job) : (setJob j s).pwr = s.pwr := rfl
@[simp] theorem setJob_start (j : Option Job) : (setJob j s).start = s.start := rfl
@[simp] theorem setJob_tmr (j : Option Job) : (setJob j s).tmr = s.tmr := rfl
@[simp] theorem setJob_afe (j : Option Job) : (setJob j s).afe = s.afe := rfl
@[simp] theorem setJob_cqa (j : Option Job) : (setJob j s).cqa = s.cqa := rfl
@[simp] theorem setJob_cqb (j : Option Job) : (setJob j s).cqb = s.cqb := rfl
@[simp] theorem setJob_capStamp (j : Option Job) : (setJob j s).capStamp = s.capStamp := rfl
@[simp] theorem setJob_capStampOld (j : Option Job) : (setJob j s).capStampOld = s.capStampOld := rfl
@[simp] theorem setJob_capAt (j : Option Job) : (setJob j s).capAt = s.capAt := rfl
@[simp] theorem setJob_sar (j : Option Job) : (setJob j s).sar = s.sar := rfl
@[simp] theorem setJob_gauge (j : Option Job) : (setJob j s).gauge = s.gauge := rfl
@[simp] theorem setJob_glint (j : Option Job) : (setJob j s).glint = s.glint := rfl
@[simp] theorem setJob_alm (j : Option Job) : (setJob j s).alm = s.alm := rfl
@[simp] theorem setJob_anneal (j : Option Job) : (setJob j s).anneal = s.anneal := rfl
@[simp] theorem setJob_pol (j : Option Job) : (setJob j s).pol = s.pol := rfl
@[simp] theorem setJob_sprue (j : Option Job) : (setJob j s).sprue = s.sprue := rfl
@[simp] theorem setJob_par (j : Option Job) : (setJob j s).par = s.par := rfl
@[simp] theorem setJob_host (j : Option Job) : (setJob j s).host = s.host := rfl
@[simp] theorem setJob_field (j : Option Job) : (setJob j s).field = s.field := rfl
@[simp] theorem setJob_link (j : Option Job) : (setJob j s).link = s.link := rfl
@[simp] theorem setJob_sec (j : Option Job) : (setJob j s).sec = s.sec := rfl
@[simp] theorem setJob_tamp (j : Option Job) : (setJob j s).tamp = s.tamp := rfl
@[simp] theorem setJob_drawn (j : Option Job) : (setJob j s).drawn = s.drawn := rfl

@[simp] theorem alarmUnsent_pending : (alarmUnsent s).pending = s.pending := rfl
@[simp] theorem alarmUnsent_clk : (alarmUnsent s).clk = s.clk := rfl
@[simp] theorem alarmUnsent_pwr : (alarmUnsent s).pwr = s.pwr := rfl
@[simp] theorem alarmUnsent_start : (alarmUnsent s).start = s.start := rfl
@[simp] theorem alarmUnsent_tmr : (alarmUnsent s).tmr = s.tmr := rfl
@[simp] theorem alarmUnsent_afe : (alarmUnsent s).afe = s.afe := rfl
@[simp] theorem alarmUnsent_cqa : (alarmUnsent s).cqa = s.cqa := rfl
@[simp] theorem alarmUnsent_cqb : (alarmUnsent s).cqb = s.cqb := rfl
@[simp] theorem alarmUnsent_capStamp : (alarmUnsent s).capStamp = s.capStamp := rfl
@[simp] theorem alarmUnsent_capStampOld : (alarmUnsent s).capStampOld = s.capStampOld := rfl
@[simp] theorem alarmUnsent_capAt : (alarmUnsent s).capAt = s.capAt := rfl
@[simp] theorem alarmUnsent_sar : (alarmUnsent s).sar = s.sar := rfl
@[simp] theorem alarmUnsent_gauge : (alarmUnsent s).gauge = s.gauge := rfl
@[simp] theorem alarmUnsent_glint : (alarmUnsent s).glint = s.glint := rfl
@[simp] theorem alarmUnsent_alm : (alarmUnsent s).alm = s.alm := rfl
@[simp] theorem alarmUnsent_anneal : (alarmUnsent s).anneal = s.anneal := rfl
@[simp] theorem alarmUnsent_pol : (alarmUnsent s).pol = s.pol := rfl
@[simp] theorem alarmUnsent_sprue : (alarmUnsent s).sprue = s.sprue := rfl
@[simp] theorem alarmUnsent_par : (alarmUnsent s).par = s.par := rfl
@[simp] theorem alarmUnsent_host : (alarmUnsent s).host = s.host := rfl
@[simp] theorem alarmUnsent_field : (alarmUnsent s).field = s.field := rfl
@[simp] theorem alarmUnsent_link : (alarmUnsent s).link = s.link := rfl
@[simp] theorem alarmUnsent_sec : (alarmUnsent s).sec = s.sec := rfl
@[simp] theorem alarmUnsent_nv : (alarmUnsent s).nv = s.nv := rfl
@[simp] theorem alarmUnsent_drawn : (alarmUnsent s).drawn = s.drawn := rfl

@[simp] theorem mapCells_pending (f : Nat → Cell → Cell) : (mapCells f s).pending = s.pending := rfl
@[simp] theorem mapCells_clk (f : Nat → Cell → Cell) : (mapCells f s).clk = s.clk := rfl
@[simp] theorem mapCells_pwr (f : Nat → Cell → Cell) : (mapCells f s).pwr = s.pwr := rfl
@[simp] theorem mapCells_start (f : Nat → Cell → Cell) : (mapCells f s).start = s.start := rfl
@[simp] theorem mapCells_tmr (f : Nat → Cell → Cell) : (mapCells f s).tmr = s.tmr := rfl
@[simp] theorem mapCells_afe (f : Nat → Cell → Cell) : (mapCells f s).afe = s.afe := rfl
@[simp] theorem mapCells_cqa (f : Nat → Cell → Cell) : (mapCells f s).cqa = s.cqa := rfl
@[simp] theorem mapCells_cqb (f : Nat → Cell → Cell) : (mapCells f s).cqb = s.cqb := rfl
@[simp] theorem mapCells_capStamp (f : Nat → Cell → Cell) : (mapCells f s).capStamp = s.capStamp := rfl
@[simp] theorem mapCells_capStampOld (f : Nat → Cell → Cell) : (mapCells f s).capStampOld = s.capStampOld := rfl
@[simp] theorem mapCells_capAt (f : Nat → Cell → Cell) : (mapCells f s).capAt = s.capAt := rfl
@[simp] theorem mapCells_sar (f : Nat → Cell → Cell) : (mapCells f s).sar = s.sar := rfl
@[simp] theorem mapCells_glint (f : Nat → Cell → Cell) : (mapCells f s).glint = s.glint := rfl
@[simp] theorem mapCells_alm (f : Nat → Cell → Cell) : (mapCells f s).alm = s.alm := rfl
@[simp] theorem mapCells_anneal (f : Nat → Cell → Cell) : (mapCells f s).anneal = s.anneal := rfl
@[simp] theorem mapCells_pol (f : Nat → Cell → Cell) : (mapCells f s).pol = s.pol := rfl
@[simp] theorem mapCells_sprue (f : Nat → Cell → Cell) : (mapCells f s).sprue = s.sprue := rfl
@[simp] theorem mapCells_par (f : Nat → Cell → Cell) : (mapCells f s).par = s.par := rfl
@[simp] theorem mapCells_host (f : Nat → Cell → Cell) : (mapCells f s).host = s.host := rfl
@[simp] theorem mapCells_field (f : Nat → Cell → Cell) : (mapCells f s).field = s.field := rfl
@[simp] theorem mapCells_link (f : Nat → Cell → Cell) : (mapCells f s).link = s.link := rfl
@[simp] theorem mapCells_sec (f : Nat → Cell → Cell) : (mapCells f s).sec = s.sec := rfl
@[simp] theorem mapCells_tamp (f : Nat → Cell → Cell) : (mapCells f s).tamp = s.tamp := rfl
@[simp] theorem mapCells_nv (f : Nat → Cell → Cell) : (mapCells f s).nv = s.nv := rfl
@[simp] theorem mapCells_drawn (f : Nat → Cell → Cell) : (mapCells f s).drawn = s.drawn := rfl

@[simp] theorem queueFrame_pending (typ prio : Nat) (payload : List Byte) (op : Option Nat) : (queueFrame typ prio payload op s).pending = s.pending := rfl
@[simp] theorem queueFrame_clk (typ prio : Nat) (payload : List Byte) (op : Option Nat) : (queueFrame typ prio payload op s).clk = s.clk := rfl
@[simp] theorem queueFrame_pwr (typ prio : Nat) (payload : List Byte) (op : Option Nat) : (queueFrame typ prio payload op s).pwr = s.pwr := rfl
@[simp] theorem queueFrame_start (typ prio : Nat) (payload : List Byte) (op : Option Nat) : (queueFrame typ prio payload op s).start = s.start := rfl
@[simp] theorem queueFrame_tmr (typ prio : Nat) (payload : List Byte) (op : Option Nat) : (queueFrame typ prio payload op s).tmr = s.tmr := rfl
@[simp] theorem queueFrame_afe (typ prio : Nat) (payload : List Byte) (op : Option Nat) : (queueFrame typ prio payload op s).afe = s.afe := rfl
@[simp] theorem queueFrame_cqa (typ prio : Nat) (payload : List Byte) (op : Option Nat) : (queueFrame typ prio payload op s).cqa = s.cqa := rfl
@[simp] theorem queueFrame_cqb (typ prio : Nat) (payload : List Byte) (op : Option Nat) : (queueFrame typ prio payload op s).cqb = s.cqb := rfl
@[simp] theorem queueFrame_capStamp (typ prio : Nat) (payload : List Byte) (op : Option Nat) : (queueFrame typ prio payload op s).capStamp = s.capStamp := rfl
@[simp] theorem queueFrame_capStampOld (typ prio : Nat) (payload : List Byte) (op : Option Nat) : (queueFrame typ prio payload op s).capStampOld = s.capStampOld := rfl
@[simp] theorem queueFrame_capAt (typ prio : Nat) (payload : List Byte) (op : Option Nat) : (queueFrame typ prio payload op s).capAt = s.capAt := rfl
@[simp] theorem queueFrame_sar (typ prio : Nat) (payload : List Byte) (op : Option Nat) : (queueFrame typ prio payload op s).sar = s.sar := rfl
@[simp] theorem queueFrame_gauge (typ prio : Nat) (payload : List Byte) (op : Option Nat) : (queueFrame typ prio payload op s).gauge = s.gauge := rfl
@[simp] theorem queueFrame_glint (typ prio : Nat) (payload : List Byte) (op : Option Nat) : (queueFrame typ prio payload op s).glint = s.glint := rfl
@[simp] theorem queueFrame_alm (typ prio : Nat) (payload : List Byte) (op : Option Nat) : (queueFrame typ prio payload op s).alm = s.alm := rfl
@[simp] theorem queueFrame_anneal (typ prio : Nat) (payload : List Byte) (op : Option Nat) : (queueFrame typ prio payload op s).anneal = s.anneal := rfl
@[simp] theorem queueFrame_pol (typ prio : Nat) (payload : List Byte) (op : Option Nat) : (queueFrame typ prio payload op s).pol = s.pol := rfl
@[simp] theorem queueFrame_sprue (typ prio : Nat) (payload : List Byte) (op : Option Nat) : (queueFrame typ prio payload op s).sprue = s.sprue := rfl
@[simp] theorem queueFrame_par (typ prio : Nat) (payload : List Byte) (op : Option Nat) : (queueFrame typ prio payload op s).par = s.par := rfl
@[simp] theorem queueFrame_host (typ prio : Nat) (payload : List Byte) (op : Option Nat) : (queueFrame typ prio payload op s).host = s.host := rfl
@[simp] theorem queueFrame_field (typ prio : Nat) (payload : List Byte) (op : Option Nat) : (queueFrame typ prio payload op s).field = s.field := rfl
@[simp] theorem queueFrame_sec (typ prio : Nat) (payload : List Byte) (op : Option Nat) : (queueFrame typ prio payload op s).sec = s.sec := rfl
@[simp] theorem queueFrame_tamp (typ prio : Nat) (payload : List Byte) (op : Option Nat) : (queueFrame typ prio payload op s).tamp = s.tamp := rfl
@[simp] theorem queueFrame_nv (typ prio : Nat) (payload : List Byte) (op : Option Nat) : (queueFrame typ prio payload op s).nv = s.nv := rfl
@[simp] theorem queueFrame_drawn (typ prio : Nat) (payload : List Byte) (op : Option Nat) : (queueFrame typ prio payload op s).drawn = s.drawn := rfl

@[simp] theorem putStar_pending (x : Star) : (putStar x s).pending = s.pending := rfl
@[simp] theorem putStar_clk (x : Star) : (putStar x s).clk = s.clk := rfl
@[simp] theorem putStar_pwr (x : Star) : (putStar x s).pwr = s.pwr := rfl
@[simp] theorem putStar_start (x : Star) : (putStar x s).start = s.start := rfl
@[simp] theorem putStar_tmr (x : Star) : (putStar x s).tmr = s.tmr := rfl
@[simp] theorem putStar_afe (x : Star) : (putStar x s).afe = s.afe := rfl
@[simp] theorem putStar_cqa (x : Star) : (putStar x s).cqa = s.cqa := rfl
@[simp] theorem putStar_cqb (x : Star) : (putStar x s).cqb = s.cqb := rfl
@[simp] theorem putStar_capStamp (x : Star) : (putStar x s).capStamp = s.capStamp := rfl
@[simp] theorem putStar_capStampOld (x : Star) : (putStar x s).capStampOld = s.capStampOld := rfl
@[simp] theorem putStar_capAt (x : Star) : (putStar x s).capAt = s.capAt := rfl
@[simp] theorem putStar_sar (x : Star) : (putStar x s).sar = s.sar := rfl
@[simp] theorem putStar_gauge (x : Star) : (putStar x s).gauge = s.gauge := rfl
@[simp] theorem putStar_glint (x : Star) : (putStar x s).glint = s.glint := rfl
@[simp] theorem putStar_alm (x : Star) : (putStar x s).alm = s.alm := rfl
@[simp] theorem putStar_anneal (x : Star) : (putStar x s).anneal = s.anneal := rfl
@[simp] theorem putStar_pol (x : Star) : (putStar x s).pol = s.pol := rfl
@[simp] theorem putStar_sprue (x : Star) : (putStar x s).sprue = s.sprue := rfl
@[simp] theorem putStar_par (x : Star) : (putStar x s).par = s.par := rfl
@[simp] theorem putStar_host (x : Star) : (putStar x s).host = s.host := rfl
@[simp] theorem putStar_field (x : Star) : (putStar x s).field = s.field := rfl
@[simp] theorem putStar_sec (x : Star) : (putStar x s).sec = s.sec := rfl
@[simp] theorem putStar_tamp (x : Star) : (putStar x s).tamp = s.tamp := rfl
@[simp] theorem putStar_nv (x : Star) : (putStar x s).nv = s.nv := rfl
@[simp] theorem putStar_drawn (x : Star) : (putStar x s).drawn = s.drawn := rfl

@[simp] theorem loadAll_pending : (loadAll s).pending = s.pending := rfl
@[simp] theorem loadAll_clk : (loadAll s).clk = s.clk := rfl
@[simp] theorem loadAll_pwr : (loadAll s).pwr = s.pwr := rfl
@[simp] theorem loadAll_start : (loadAll s).start = s.start := rfl
@[simp] theorem loadAll_tmr : (loadAll s).tmr = s.tmr := rfl
@[simp] theorem loadAll_afe : (loadAll s).afe = s.afe := rfl
@[simp] theorem loadAll_cqa : (loadAll s).cqa = s.cqa := rfl
@[simp] theorem loadAll_cqb : (loadAll s).cqb = s.cqb := rfl
@[simp] theorem loadAll_capStamp : (loadAll s).capStamp = s.capStamp := rfl
@[simp] theorem loadAll_capStampOld : (loadAll s).capStampOld = s.capStampOld := rfl
@[simp] theorem loadAll_capAt : (loadAll s).capAt = s.capAt := rfl
@[simp] theorem loadAll_sar : (loadAll s).sar = s.sar := rfl
@[simp] theorem loadAll_gauge : (loadAll s).gauge = s.gauge := rfl
@[simp] theorem loadAll_glint : (loadAll s).glint = s.glint := rfl
@[simp] theorem loadAll_alm : (loadAll s).alm = s.alm := rfl
@[simp] theorem loadAll_anneal : (loadAll s).anneal = s.anneal := rfl
@[simp] theorem loadAll_pol : (loadAll s).pol = s.pol := rfl
@[simp] theorem loadAll_sprue : (loadAll s).sprue = s.sprue := rfl
@[simp] theorem loadAll_par : (loadAll s).par = s.par := rfl
@[simp] theorem loadAll_host : (loadAll s).host = s.host := rfl
@[simp] theorem loadAll_field : (loadAll s).field = s.field := rfl
@[simp] theorem loadAll_link : (loadAll s).link = s.link := rfl
@[simp] theorem loadAll_tamp : (loadAll s).tamp = s.tamp := rfl
@[simp] theorem loadAll_nv : (loadAll s).nv = s.nv := rfl
@[simp] theorem loadAll_drawn : (loadAll s).drawn = s.drawn := rfl

@[simp] theorem stagingWrite_pending (off v : Nat) : (stagingWrite off v s).pending = s.pending := rfl
@[simp] theorem stagingWrite_clk (off v : Nat) : (stagingWrite off v s).clk = s.clk := rfl
@[simp] theorem stagingWrite_pwr (off v : Nat) : (stagingWrite off v s).pwr = s.pwr := rfl
@[simp] theorem stagingWrite_start (off v : Nat) : (stagingWrite off v s).start = s.start := rfl
@[simp] theorem stagingWrite_tmr (off v : Nat) : (stagingWrite off v s).tmr = s.tmr := rfl
@[simp] theorem stagingWrite_afe (off v : Nat) : (stagingWrite off v s).afe = s.afe := rfl
@[simp] theorem stagingWrite_cqa (off v : Nat) : (stagingWrite off v s).cqa = s.cqa := rfl
@[simp] theorem stagingWrite_cqb (off v : Nat) : (stagingWrite off v s).cqb = s.cqb := rfl
@[simp] theorem stagingWrite_capStamp (off v : Nat) : (stagingWrite off v s).capStamp = s.capStamp := rfl
@[simp] theorem stagingWrite_capStampOld (off v : Nat) : (stagingWrite off v s).capStampOld = s.capStampOld := rfl
@[simp] theorem stagingWrite_capAt (off v : Nat) : (stagingWrite off v s).capAt = s.capAt := rfl
@[simp] theorem stagingWrite_sar (off v : Nat) : (stagingWrite off v s).sar = s.sar := rfl
@[simp] theorem stagingWrite_gauge (off v : Nat) : (stagingWrite off v s).gauge = s.gauge := rfl
@[simp] theorem stagingWrite_glint (off v : Nat) : (stagingWrite off v s).glint = s.glint := rfl
@[simp] theorem stagingWrite_alm (off v : Nat) : (stagingWrite off v s).alm = s.alm := rfl
@[simp] theorem stagingWrite_anneal (off v : Nat) : (stagingWrite off v s).anneal = s.anneal := rfl
@[simp] theorem stagingWrite_pol (off v : Nat) : (stagingWrite off v s).pol = s.pol := rfl
@[simp] theorem stagingWrite_sprue (off v : Nat) : (stagingWrite off v s).sprue = s.sprue := rfl
@[simp] theorem stagingWrite_par (off v : Nat) : (stagingWrite off v s).par = s.par := rfl
@[simp] theorem stagingWrite_host (off v : Nat) : (stagingWrite off v s).host = s.host := rfl
@[simp] theorem stagingWrite_field (off v : Nat) : (stagingWrite off v s).field = s.field := rfl
@[simp] theorem stagingWrite_link (off v : Nat) : (stagingWrite off v s).link = s.link := rfl
@[simp] theorem stagingWrite_tamp (off v : Nat) : (stagingWrite off v s).tamp = s.tamp := rfl
@[simp] theorem stagingWrite_nv (off v : Nat) : (stagingWrite off v s).nv = s.nv := rfl
@[simp] theorem stagingWrite_drawn (off v : Nat) : (stagingWrite off v s).drawn = s.drawn := rfl

@[simp] theorem modDeferred_pending (i : Nat) (f : Deferred → Deferred) : (modDeferred i f s).pending = s.pending := rfl
@[simp] theorem modDeferred_clk (i : Nat) (f : Deferred → Deferred) : (modDeferred i f s).clk = s.clk := rfl
@[simp] theorem modDeferred_start (i : Nat) (f : Deferred → Deferred) : (modDeferred i f s).start = s.start := rfl
@[simp] theorem modDeferred_tmr (i : Nat) (f : Deferred → Deferred) : (modDeferred i f s).tmr = s.tmr := rfl
@[simp] theorem modDeferred_afe (i : Nat) (f : Deferred → Deferred) : (modDeferred i f s).afe = s.afe := rfl
@[simp] theorem modDeferred_cqa (i : Nat) (f : Deferred → Deferred) : (modDeferred i f s).cqa = s.cqa := rfl
@[simp] theorem modDeferred_cqb (i : Nat) (f : Deferred → Deferred) : (modDeferred i f s).cqb = s.cqb := rfl
@[simp] theorem modDeferred_capStamp (i : Nat) (f : Deferred → Deferred) : (modDeferred i f s).capStamp = s.capStamp := rfl
@[simp] theorem modDeferred_capStampOld (i : Nat) (f : Deferred → Deferred) : (modDeferred i f s).capStampOld = s.capStampOld := rfl
@[simp] theorem modDeferred_capAt (i : Nat) (f : Deferred → Deferred) : (modDeferred i f s).capAt = s.capAt := rfl
@[simp] theorem modDeferred_sar (i : Nat) (f : Deferred → Deferred) : (modDeferred i f s).sar = s.sar := rfl
@[simp] theorem modDeferred_gauge (i : Nat) (f : Deferred → Deferred) : (modDeferred i f s).gauge = s.gauge := rfl
@[simp] theorem modDeferred_glint (i : Nat) (f : Deferred → Deferred) : (modDeferred i f s).glint = s.glint := rfl
@[simp] theorem modDeferred_alm (i : Nat) (f : Deferred → Deferred) : (modDeferred i f s).alm = s.alm := rfl
@[simp] theorem modDeferred_anneal (i : Nat) (f : Deferred → Deferred) : (modDeferred i f s).anneal = s.anneal := rfl
@[simp] theorem modDeferred_pol (i : Nat) (f : Deferred → Deferred) : (modDeferred i f s).pol = s.pol := rfl
@[simp] theorem modDeferred_sprue (i : Nat) (f : Deferred → Deferred) : (modDeferred i f s).sprue = s.sprue := rfl
@[simp] theorem modDeferred_par (i : Nat) (f : Deferred → Deferred) : (modDeferred i f s).par = s.par := rfl
@[simp] theorem modDeferred_host (i : Nat) (f : Deferred → Deferred) : (modDeferred i f s).host = s.host := rfl
@[simp] theorem modDeferred_field (i : Nat) (f : Deferred → Deferred) : (modDeferred i f s).field = s.field := rfl
@[simp] theorem modDeferred_link (i : Nat) (f : Deferred → Deferred) : (modDeferred i f s).link = s.link := rfl
@[simp] theorem modDeferred_sec (i : Nat) (f : Deferred → Deferred) : (modDeferred i f s).sec = s.sec := rfl
@[simp] theorem modDeferred_tamp (i : Nat) (f : Deferred → Deferred) : (modDeferred i f s).tamp = s.tamp := rfl
@[simp] theorem modDeferred_nv (i : Nat) (f : Deferred → Deferred) : (modDeferred i f s).nv = s.nv := rfl
@[simp] theorem modDeferred_drawn (i : Nat) (f : Deferred → Deferred) : (modDeferred i f s).drawn = s.drawn := rfl

@[simp] theorem replySent_pending (i t : Nat) : (replySent i t s).pending = s.pending := rfl
@[simp] theorem replySent_clk (i t : Nat) : (replySent i t s).clk = s.clk := rfl
@[simp] theorem replySent_start (i t : Nat) : (replySent i t s).start = s.start := rfl
@[simp] theorem replySent_tmr (i t : Nat) : (replySent i t s).tmr = s.tmr := rfl
@[simp] theorem replySent_afe (i t : Nat) : (replySent i t s).afe = s.afe := rfl
@[simp] theorem replySent_cqa (i t : Nat) : (replySent i t s).cqa = s.cqa := rfl
@[simp] theorem replySent_cqb (i t : Nat) : (replySent i t s).cqb = s.cqb := rfl
@[simp] theorem replySent_capStamp (i t : Nat) : (replySent i t s).capStamp = s.capStamp := rfl
@[simp] theorem replySent_capStampOld (i t : Nat) : (replySent i t s).capStampOld = s.capStampOld := rfl
@[simp] theorem replySent_capAt (i t : Nat) : (replySent i t s).capAt = s.capAt := rfl
@[simp] theorem replySent_sar (i t : Nat) : (replySent i t s).sar = s.sar := rfl
@[simp] theorem replySent_gauge (i t : Nat) : (replySent i t s).gauge = s.gauge := rfl
@[simp] theorem replySent_glint (i t : Nat) : (replySent i t s).glint = s.glint := rfl
@[simp] theorem replySent_alm (i t : Nat) : (replySent i t s).alm = s.alm := rfl
@[simp] theorem replySent_anneal (i t : Nat) : (replySent i t s).anneal = s.anneal := rfl
@[simp] theorem replySent_pol (i t : Nat) : (replySent i t s).pol = s.pol := rfl
@[simp] theorem replySent_sprue (i t : Nat) : (replySent i t s).sprue = s.sprue := rfl
@[simp] theorem replySent_par (i t : Nat) : (replySent i t s).par = s.par := rfl
@[simp] theorem replySent_host (i t : Nat) : (replySent i t s).host = s.host := rfl
@[simp] theorem replySent_field (i t : Nat) : (replySent i t s).field = s.field := rfl
@[simp] theorem replySent_link (i t : Nat) : (replySent i t s).link = s.link := rfl
@[simp] theorem replySent_sec (i t : Nat) : (replySent i t s).sec = s.sec := rfl
@[simp] theorem replySent_tamp (i t : Nat) : (replySent i t s).tamp = s.tamp := rfl
@[simp] theorem replySent_nv (i t : Nat) : (replySent i t s).nv = s.nv := rfl
@[simp] theorem replySent_drawn (i t : Nat) : (replySent i t s).drawn = s.drawn := rfl

@[simp] theorem quenchBusy_pending : (quenchBusy s).pending = s.pending := rfl
@[simp] theorem quenchBusy_clk : (quenchBusy s).clk = s.clk := rfl
@[simp] theorem quenchBusy_pwr : (quenchBusy s).pwr = s.pwr := rfl
@[simp] theorem quenchBusy_start : (quenchBusy s).start = s.start := rfl
@[simp] theorem quenchBusy_tmr : (quenchBusy s).tmr = s.tmr := rfl
@[simp] theorem quenchBusy_afe : (quenchBusy s).afe = s.afe := rfl
@[simp] theorem quenchBusy_cqa : (quenchBusy s).cqa = s.cqa := rfl
@[simp] theorem quenchBusy_cqb : (quenchBusy s).cqb = s.cqb := rfl
@[simp] theorem quenchBusy_capStamp : (quenchBusy s).capStamp = s.capStamp := rfl
@[simp] theorem quenchBusy_capStampOld : (quenchBusy s).capStampOld = s.capStampOld := rfl
@[simp] theorem quenchBusy_capAt : (quenchBusy s).capAt = s.capAt := rfl
@[simp] theorem quenchBusy_sar : (quenchBusy s).sar = s.sar := rfl
@[simp] theorem quenchBusy_gauge : (quenchBusy s).gauge = s.gauge := rfl
@[simp] theorem quenchBusy_glint : (quenchBusy s).glint = s.glint := rfl
@[simp] theorem quenchBusy_alm : (quenchBusy s).alm = s.alm := rfl
@[simp] theorem quenchBusy_anneal : (quenchBusy s).anneal = s.anneal := rfl
@[simp] theorem quenchBusy_pol : (quenchBusy s).pol = s.pol := rfl
@[simp] theorem quenchBusy_sprue : (quenchBusy s).sprue = s.sprue := rfl
@[simp] theorem quenchBusy_par : (quenchBusy s).par = s.par := rfl
@[simp] theorem quenchBusy_host : (quenchBusy s).host = s.host := rfl
@[simp] theorem quenchBusy_field : (quenchBusy s).field = s.field := rfl
@[simp] theorem quenchBusy_link : (quenchBusy s).link = s.link := rfl
@[simp] theorem quenchBusy_sec : (quenchBusy s).sec = s.sec := rfl
@[simp] theorem quenchBusy_nv : (quenchBusy s).nv = s.nv := rfl
@[simp] theorem quenchBusy_drawn : (quenchBusy s).drawn = s.drawn := rfl

@[simp] theorem lidReads_pending (v : LidState) : (lidReads v s).pending = s.pending := rfl
@[simp] theorem lidReads_clk (v : LidState) : (lidReads v s).clk = s.clk := rfl
@[simp] theorem lidReads_pwr (v : LidState) : (lidReads v s).pwr = s.pwr := rfl
@[simp] theorem lidReads_start (v : LidState) : (lidReads v s).start = s.start := rfl
@[simp] theorem lidReads_tmr (v : LidState) : (lidReads v s).tmr = s.tmr := rfl
@[simp] theorem lidReads_afe (v : LidState) : (lidReads v s).afe = s.afe := rfl
@[simp] theorem lidReads_cqa (v : LidState) : (lidReads v s).cqa = s.cqa := rfl
@[simp] theorem lidReads_cqb (v : LidState) : (lidReads v s).cqb = s.cqb := rfl
@[simp] theorem lidReads_capStamp (v : LidState) : (lidReads v s).capStamp = s.capStamp := rfl
@[simp] theorem lidReads_capStampOld (v : LidState) : (lidReads v s).capStampOld = s.capStampOld := rfl
@[simp] theorem lidReads_capAt (v : LidState) : (lidReads v s).capAt = s.capAt := rfl
@[simp] theorem lidReads_sar (v : LidState) : (lidReads v s).sar = s.sar := rfl
@[simp] theorem lidReads_gauge (v : LidState) : (lidReads v s).gauge = s.gauge := rfl
@[simp] theorem lidReads_glint (v : LidState) : (lidReads v s).glint = s.glint := rfl
@[simp] theorem lidReads_alm (v : LidState) : (lidReads v s).alm = s.alm := rfl
@[simp] theorem lidReads_anneal (v : LidState) : (lidReads v s).anneal = s.anneal := rfl
@[simp] theorem lidReads_pol (v : LidState) : (lidReads v s).pol = s.pol := rfl
@[simp] theorem lidReads_sprue (v : LidState) : (lidReads v s).sprue = s.sprue := rfl
@[simp] theorem lidReads_par (v : LidState) : (lidReads v s).par = s.par := rfl
@[simp] theorem lidReads_host (v : LidState) : (lidReads v s).host = s.host := rfl
@[simp] theorem lidReads_field (v : LidState) : (lidReads v s).field = s.field := rfl
@[simp] theorem lidReads_link (v : LidState) : (lidReads v s).link = s.link := rfl
@[simp] theorem lidReads_sec (v : LidState) : (lidReads v s).sec = s.sec := rfl
@[simp] theorem lidReads_nv (v : LidState) : (lidReads v s).nv = s.nv := rfl
@[simp] theorem lidReads_drawn (v : LidState) : (lidReads v s).drawn = s.drawn := rfl

@[simp] theorem imageRewrite_pending : (imageRewrite s).pending = s.pending := rfl
@[simp] theorem imageRewrite_clk : (imageRewrite s).clk = s.clk := rfl
@[simp] theorem imageRewrite_pwr : (imageRewrite s).pwr = s.pwr := rfl
@[simp] theorem imageRewrite_tmr : (imageRewrite s).tmr = s.tmr := rfl
@[simp] theorem imageRewrite_afe : (imageRewrite s).afe = s.afe := rfl
@[simp] theorem imageRewrite_cqa : (imageRewrite s).cqa = s.cqa := rfl
@[simp] theorem imageRewrite_cqb : (imageRewrite s).cqb = s.cqb := rfl
@[simp] theorem imageRewrite_capStamp : (imageRewrite s).capStamp = s.capStamp := rfl
@[simp] theorem imageRewrite_capStampOld : (imageRewrite s).capStampOld = s.capStampOld := rfl
@[simp] theorem imageRewrite_capAt : (imageRewrite s).capAt = s.capAt := rfl
@[simp] theorem imageRewrite_sar : (imageRewrite s).sar = s.sar := rfl
@[simp] theorem imageRewrite_gauge : (imageRewrite s).gauge = s.gauge := rfl
@[simp] theorem imageRewrite_glint : (imageRewrite s).glint = s.glint := rfl
@[simp] theorem imageRewrite_alm : (imageRewrite s).alm = s.alm := rfl
@[simp] theorem imageRewrite_anneal : (imageRewrite s).anneal = s.anneal := rfl
@[simp] theorem imageRewrite_pol : (imageRewrite s).pol = s.pol := rfl
@[simp] theorem imageRewrite_sprue : (imageRewrite s).sprue = s.sprue := rfl
@[simp] theorem imageRewrite_par : (imageRewrite s).par = s.par := rfl
@[simp] theorem imageRewrite_host : (imageRewrite s).host = s.host := rfl
@[simp] theorem imageRewrite_field : (imageRewrite s).field = s.field := rfl
@[simp] theorem imageRewrite_link : (imageRewrite s).link = s.link := rfl
@[simp] theorem imageRewrite_sec : (imageRewrite s).sec = s.sec := rfl
@[simp] theorem imageRewrite_tamp : (imageRewrite s).tamp = s.tamp := rfl
@[simp] theorem imageRewrite_nv : (imageRewrite s).nv = s.nv := rfl
@[simp] theorem imageRewrite_drawn : (imageRewrite s).drawn = s.drawn := rfl

@[simp] theorem replayHeader_pending : (replayHeader s).pending = s.pending := by unfold replayHeader; rfl
@[simp] theorem replayHeader_clk : (replayHeader s).clk = s.clk := by unfold replayHeader; rfl
@[simp] theorem replayHeader_pwr : (replayHeader s).pwr = s.pwr := by unfold replayHeader; rfl
@[simp] theorem replayHeader_start : (replayHeader s).start = s.start := by unfold replayHeader; rfl
@[simp] theorem replayHeader_tmr : (replayHeader s).tmr = s.tmr := by unfold replayHeader; rfl
@[simp] theorem replayHeader_afe : (replayHeader s).afe = s.afe := by unfold replayHeader; rfl
@[simp] theorem replayHeader_cqa : (replayHeader s).cqa = s.cqa := by unfold replayHeader; rfl
@[simp] theorem replayHeader_cqb : (replayHeader s).cqb = s.cqb := by unfold replayHeader; rfl
@[simp] theorem replayHeader_capStamp : (replayHeader s).capStamp = s.capStamp := by unfold replayHeader; rfl
@[simp] theorem replayHeader_capStampOld : (replayHeader s).capStampOld = s.capStampOld := by unfold replayHeader; rfl
@[simp] theorem replayHeader_capAt : (replayHeader s).capAt = s.capAt := by unfold replayHeader; rfl
@[simp] theorem replayHeader_sar : (replayHeader s).sar = s.sar := by unfold replayHeader; rfl
@[simp] theorem replayHeader_gauge : (replayHeader s).gauge = s.gauge := by unfold replayHeader; rfl
@[simp] theorem replayHeader_glint : (replayHeader s).glint = s.glint := by unfold replayHeader; rfl
@[simp] theorem replayHeader_alm : (replayHeader s).alm = s.alm := by unfold replayHeader; rfl
@[simp] theorem replayHeader_anneal : (replayHeader s).anneal = s.anneal := by unfold replayHeader; rfl
@[simp] theorem replayHeader_pol : (replayHeader s).pol = s.pol := by unfold replayHeader; rfl
@[simp] theorem replayHeader_sprue : (replayHeader s).sprue = s.sprue := by unfold replayHeader; rfl
@[simp] theorem replayHeader_par : (replayHeader s).par = s.par := by unfold replayHeader; rfl
@[simp] theorem replayHeader_host : (replayHeader s).host = s.host := by unfold replayHeader; rfl
@[simp] theorem replayHeader_field : (replayHeader s).field = s.field := by unfold replayHeader; rfl
@[simp] theorem replayHeader_link : (replayHeader s).link = s.link := by unfold replayHeader; rfl
@[simp] theorem replayHeader_sec : (replayHeader s).sec = s.sec := by unfold replayHeader; rfl
@[simp] theorem replayHeader_tamp : (replayHeader s).tamp = s.tamp := by unfold replayHeader; rfl
@[simp] theorem replayHeader_drawn : (replayHeader s).drawn = s.drawn := by unfold replayHeader; rfl

end Sys2Proof.Machine
end

