-- ==== Sys2Proof/Laws/Time.lean ====
section
/-! SUPPORT. What the passing of time changes: the timers, the residency counters, and a transmission that ends on the way;
in a low-power mode also the wake of a compare channel or countdown (05_supply_and_modes.md R119, R122; 08_timers.md). -/

namespace Sys2Proof.Machine

/-- What time changes of a part that is awake. -/
structure Passed (s t : State) : Prop where
  rest  : t = { s with tmr := t.tmr, pwr := t.pwr, link := t.link }
  pwr   : t.pwr = { s.pwr with
    resWatch := t.pwr.resWatch, resWatchL := t.pwr.resWatchL, resDoze := t.pwr.resDoze, resRun := t.pwr.resRun
    resBurst := t.pwr.resBurst, deferred := t.pwr.deferred, entry := t.pwr.entry }
  link  : t.link = { s.link with sending := t.link.sending, txEnd := t.link.txEnd, counters := t.link.counters }
  timer : t.tmr.rtcValid = s.tmr.rtcValid ∧ t.tmr.rtcSlew = s.tmr.rtcSlew ∧ t.tmr.epoch = s.tmr.epoch ∧
    t.tmr.anchorSec = s.tmr.anchorSec ∧ t.tmr.anchorBase = s.tmr.anchorBase ∧ t.tmr.capq = s.tmr.capq ∧
    t.tmr.shadow1 = s.tmr.shadow1 ∧
    (s.tmr.sbCap = none → t.tmr.sbCap = none ∧ t.tmr.shadow0 = s.tmr.shadow0)
  left  : s.pwr.deferred = [] → t.pwr.deferred = []
  entry : s.pwr.entry = none → t.pwr.entry = none

/-! What stays, field by field. -/

theorem Passed.pending {s t : State} (h : Passed s t) : t.pending = s.pending := by
  simpa using congrArg State.pending h.rest

theorem Passed.clk {s t : State} (h : Passed s t) : t.clk = s.clk := by
  simpa using congrArg State.clk h.rest

theorem Passed.start {s t : State} (h : Passed s t) : t.start = s.start := by
  simpa using congrArg State.start h.rest

theorem Passed.afe {s t : State} (h : Passed s t) : t.afe = s.afe := by
  simpa using congrArg State.afe h.rest

theorem Passed.cqa {s t : State} (h : Passed s t) : t.cqa = s.cqa := by
  simpa using congrArg State.cqa h.rest

theorem Passed.cqb {s t : State} (h : Passed s t) : t.cqb = s.cqb := by
  simpa using congrArg State.cqb h.rest

theorem Passed.capStampOld {s t : State} (h : Passed s t) : t.capStampOld = s.capStampOld := by
  simpa using congrArg State.capStampOld h.rest

theorem Passed.capAt {s t : State} (h : Passed s t) : t.capAt = s.capAt := by
  simpa using congrArg State.capAt h.rest

theorem Passed.capStamp {s t : State} (h : Passed s t) : t.capStamp = s.capStamp := by
  simpa using congrArg State.capStamp h.rest

theorem Passed.sar {s t : State} (h : Passed s t) : t.sar = s.sar := by
  simpa using congrArg State.sar h.rest

theorem Passed.gauge {s t : State} (h : Passed s t) : t.gauge = s.gauge := by
  simpa using congrArg State.gauge h.rest

theorem Passed.glint {s t : State} (h : Passed s t) : t.glint = s.glint := by
  simpa using congrArg State.glint h.rest

theorem Passed.alm {s t : State} (h : Passed s t) : t.alm = s.alm := by
  simpa using congrArg State.alm h.rest

theorem Passed.anneal {s t : State} (h : Passed s t) : t.anneal = s.anneal := by
  simpa using congrArg State.anneal h.rest

theorem Passed.pol {s t : State} (h : Passed s t) : t.pol = s.pol := by
  simpa using congrArg State.pol h.rest

theorem Passed.sprue {s t : State} (h : Passed s t) : t.sprue = s.sprue := by
  simpa using congrArg State.sprue h.rest

theorem Passed.par {s t : State} (h : Passed s t) : t.par = s.par := by
  simpa using congrArg State.par h.rest

theorem Passed.host {s t : State} (h : Passed s t) : t.host = s.host := by
  simpa using congrArg State.host h.rest

theorem Passed.field {s t : State} (h : Passed s t) : t.field = s.field := by
  simpa using congrArg State.field h.rest

theorem Passed.sec {s t : State} (h : Passed s t) : t.sec = s.sec := by
  simpa using congrArg State.sec h.rest

theorem Passed.tamp {s t : State} (h : Passed s t) : t.tamp = s.tamp := by
  simpa using congrArg State.tamp h.rest

theorem Passed.nv {s t : State} (h : Passed s t) : t.nv = s.nv := by
  simpa using congrArg State.nv h.rest

theorem Passed.drawn {s t : State} (h : Passed s t) : t.drawn = s.drawn := by
  simpa using congrArg State.drawn h.rest

/-- What time does not touch of the supply block: its mode. -/
theorem Passed.mode {s t : State} (h : Passed s t) : t.pwr.mode = s.pwr.mode := by rw [h.pwr]

theorem Passed.refl (s : State) : Passed s s :=
  ⟨rfl, rfl, rfl, ⟨rfl, rfl, rfl, rfl, rfl, rfl, rfl, fun h => ⟨h, rfl⟩⟩, id, id⟩

theorem Passed.trans {s t u : State} (h : Passed s t) (k : Passed t u) : Passed s u where
  rest := by rw [k.rest, h.rest]
  pwr := by rw [k.pwr, h.pwr]
  link := by rw [k.link, h.link]
  timer := by
    obtain ⟨a, b, c, d, e, f, g, i⟩ := h.timer; obtain ⟨a', b', c', d', e', f', g', i'⟩ := k.timer
    exact ⟨a'.trans a, b'.trans b, c'.trans c, d'.trans d, e'.trans e, f'.trans f, g'.trans g,
      fun x => ⟨(i' (i x).1).1, (i' (i x).1).2.trans (i x).2⟩⟩
  left := fun x => k.left (h.left x)
  entry := fun x => k.entry (h.entry x)

theorem passClocks_passed (t : Nat) (s : State) : Passed s (passClocks t s) := by
  unfold passClocks
  dsimp only
  split_ifs
  · exact Passed.refl s
  · refine ⟨rfl, ?_, rfl, ⟨rfl, rfl, rfl, rfl, rfl, rfl, rfl, fun h => ?_⟩, ?_, ?_⟩
    · dsimp only; unfold resPass; dsimp only; split_ifs <;> rfl
    · simp [tmrPass, rtcPass, h]
    · intro h; dsimp only; unfold resPass; dsimp only; split_ifs <;> exact h
    · intro h; dsimp only; unfold resPass; dsimp only; split_ifs <;> exact h

theorem replyLeft_passed (i : Nat) (s : State) : Passed s (replyLeft i s) :=
  ⟨rfl, rfl, rfl, ⟨rfl, rfl, rfl, rfl, rfl, rfl, rfl, fun h => ⟨h, rfl⟩⟩, fun h => by simp [replyLeft, modDeferred, h], id⟩

/-- Where nothing waits for a reply, its departure changes nothing. -/
theorem replyLeft_none {i : Nat} {s : State} (h : s.pwr.deferred = []) : replyLeft i s = s := by
  cases s with | mk _ _ p => cases p; simp_all [replyLeft, modDeferred]

theorem txDone_passed (s : State) : Passed s (txDone s) := by
  have h (l : Link) (hl : l = { s.link with sending := l.sending, txEnd := l.txEnd, counters := l.counters }) :
      Passed s { s with link := l } :=
    ⟨rfl, rfl, hl, ⟨rfl, rfl, rfl, rfl, rfl, rfl, rfl, fun h => ⟨h, rfl⟩⟩, id, id⟩
  unfold txDone
  split
  · dsimp only
    split
    · exact (h _ rfl).trans (replyLeft_passed _ _)
    · exact h _ rfl
  · exact h _ rfl

theorem passTx_passed (t : Nat) (s : State) : Passed s (passTx t s) := by
  unfold passTx
  split
  · split_ifs
    · exact ((passClocks_passed _ _).trans (txDone_passed _)).trans (passClocks_passed _ _)
    · exact passClocks_passed _ _
  · exact passClocks_passed _ _

theorem passRaw_passed (t : Nat) (s : State) : Passed s (passRaw t s) := by
  unfold passRaw
  generalize passStops t s = l
  have h : ∀ (l : List Nat) (u : State), Passed u (l.foldl (fun s e => passTx e s) u) := by
    intro l
    induction l with
    | nil => exact Passed.refl
    | cons a l ih => intro u; exact (passTx_passed a u).trans (ih _)
  exact (h l s).trans (passTx_passed t _)

/-- A wake source in Run cancels a decided entry and does nothing else. -/
theorem beginWake_passed {s : State} (h : s.pwr.mode = .run) : Passed s (beginWake s) := by
  unfold beginWake
  rw [h]
  exact ⟨rfl, rfl, rfl, ⟨rfl, rfl, rfl, rfl, rfl, rfl, rfl, fun h => ⟨h, rfl⟩⟩, id, fun _ => rfl⟩

/-- Time passes over a part that is awake. -/
theorem elapseTo_passed {t : Nat} {s : State} (h : s.pwr.mode = .run) : Passed s (elapseTo t s) := by
  have p := passRaw_passed (edgeFor s t) s
  unfold elapseTo
  dsimp only
  split_ifs
  · split
    · next w _ =>
      have q := passRaw_passed w s
      exact (q.trans (beginWake_passed (q.mode.trans h))).trans (passRaw_passed _ _)
    · exact p
  · exact p

theorem elapse_passed {dt : Nat} {s : State} (h : s.pwr.mode = .run) : Passed s (elapse dt s) := by
  unfold elapse
  split_ifs
  · exact Passed.refl s
  · exact elapseTo_passed h
  · exact elapseTo_passed h

/-- The base after time has passed to `t`. -/
theorem passClocks_base (t : Nat) (s : State) : (passClocks t s).tmr.base = max (edgeFor s t) s.tmr.base := by
  unfold passClocks
  dsimp only
  split_ifs with h
  · omega
  · show edgeFor s t = _; omega

end Sys2Proof.Machine
end

