-- ==== Sys2Proof/Machine/StoreView.lean ====
section
/-! DEFINITION. The words of the Ingot store as they stand in its areas, read from what the state holds of each (15_ingot_store.md
R359 to R361, R368, R370, R374). -/

namespace Sys2Proof.Config

/-- The geometry word of the header (15 R359): the manual does not give it. -/
opaque geometry : Nat

/-- Body word `i` of a record whose content the manual lists without its layout (15 R362). -/
opaque bodyWord : Machine.Body → Nat → Nat

/-- Word `i` of a key copy that was not written to its end (15 R360, R368). -/
opaque tornWord : Machine.KeyCopy → Nat → Nat

end Sys2Proof.Config

namespace Sys2Proof.Machine

/-! ## Words (R4, R360) -/

/-- A blank word. -/
def blankWord32 : Nat := 0xFFFFFFFF

/-- The complement of a word. -/
def notWord (w : Nat) : Nat := 0xFFFFFFFF - w

/-- The bytes of words in store order. -/
def wordBytes (l : List Nat) : List Byte := l.flatMap (leBytes 4)

/-- `n` words from bytes padded with 0. -/
def bytesWords (n : Nat) (b : List Byte) : List Nat := (List.range n).map fun i => leAt b (4 * i) 4

/-- The CRC-32 word of words. -/
def crcWord (l : List Nat) : Nat := crc32 (wordBytes l)

/-- `l` filled to `n` words with blank ones. -/
def blankTo (n : Nat) (l : List Nat) : List Nat := l ++ List.replicate (n - l.length) blankWord32

/-- Words with their CRC-32 and its complement behind them: an entry of the log or of the evidence store, a key copy (R368,
R370). -/
def sealedWords (l : List Nat) : List Nat := l ++ [crcWord l, notWord (crcWord l)]

/-! ## Journal (R361) -/

/-- The body words of a record. -/
def bodyOf (r : Rec) : List Nat :=
  match r.body with
  | .bytes b => bytesWords r.len b
  | .words w => (w ++ List.replicate (r.len - w.length) 0).take r.len
  | b => (List.range r.len).map fun i => Config.bodyWord b i

/-- W0 of a record: TYPE, LEN, KEY. -/
def recW0 (r : Rec) : Nat := r.typ * 2 ^ 24 + r.len * 2 ^ 16 + r.key

/-- W1 of a record: TXN, INDEX, LAST. -/
def recW1 (x : Stored) : Nat := x.txn * 2 ^ 8 + x.index * 2 + bit x.last

/-- A stored record from W0 to its CRC word. -/
def recWords (x : Stored) : List Nat :=
  let l := recW0 x.rcd :: recW1 x :: bodyOf x.rcd
  l ++ [crcWord l]

/-- The MARK of a transaction: the complement of the CRC-32 of all its words, from its first W0 through its last CRC word
(R361). -/
def markOf (s : State) (txn : Nat) : Nat :=
  let mine := ((List.range 64).flatMap fun i => (sectorAt s i).recs).filter fun x => x.txn == txn
  notWord (crcWord ((List.range 128).flatMap fun i => (mine.filter fun x => x.index == i).flatMap recWords))

/-- The 128 words of a journal sector; the first of one that is being written blank are blank again (R366). -/
def sectorWords (s : State) (i : Nat) : List Nat :=
  let x := sectorAt s i
  let l := blankTo 128 ((x.recs.flatMap fun r => recWords r ++ if r.marked then [markOf s r.txn] else []).take x.used)
  let gone := s.nv.jobs.foldl (fun n j => match j with | .blank v w => if v = i then w else n | _ => n) 0
  List.replicate gone blankWord32 ++ l.drop gone

/-! ## The other areas -/

/-- A header copy (R359): format, geometry, the map of retired sectors in two words, the CRC-32; an invalid one has a CRC that
does not verify. The places within its 32 words are a DESIGN CHOICE (assumption log 154). -/
def headerWords (ok : Bool) (map : List Nat) : List Nat :=
  let m := (map.map fun i => 2 ^ i).sum
  let l := [1, Config.geometry, m % 2 ^ 32, m / 2 ^ 32]
  blankTo 32 (l ++ [if ok then crcWord l else notWord (crcWord l)])

/-- The 25 words of a key copy (R368). -/
def keyWords (slot copy : Nat) (c : Option KeyCopy) : List Nat :=
  match c with
  | none => List.replicate 25 blankWord32
  | some k =>
    if k.whole then
      sealedWords ([0x60 * 2 ^ 24 + slot * 2 ^ 8 + copy, k.gen + k.use * 2 ^ 16]
        ++ bytesWords 10 (if k.empty then [] else k.wrapped) ++ List.replicate 11 0)
    else (List.range 25).map fun i => Config.tornWord k i

/-- An entry of the log or of the evidence store, or none, in its 16 words (R370). -/
def entryWords (e : Option LogEnt) : List Nat :=
  match e with
  | some x => sealedWords (bytesWords 14 (logBytes x))
  | none => List.replicate 16 blankWord32

/-- The log entry in slot `i`: entries overwrite the oldest, so an index stands in slot `index` mod 128 (14 R353). -/
def logSlot (s : State) (i : Nat) : Option LogEnt := s.tamp.log.find? fun e => e.index % 128 == i

/-- The word at a store offset, a multiple of 4 (R359). -/
def storeWord (s : State) (off : Nat) : Nat :=
  let at_ (l : List Nat) (i : Nat) : Nat := l.getD i blankWord32
  if off < 0x80 then at_ (headerWords s.nv.hdrA s.nv.mapA) (off / 4)
  else if off < 0x100 then at_ (headerWords s.nv.hdrB s.nv.mapB) ((off - 0x80) / 4)
  else if off < 0x200 then (vget s.nv.marks ((off - 0x100) / 4) 0xFFFFFFFF).toNat
  else if off < 0x600 then at_ (entryWords s.tamp.evid[(off - 0x200) / 64]?) ((off - 0x200) % 64 / 4)
  else if off < 0x18C0 then
    let w := (off - 0x600) / 4
    let slot := w / 75
    at_ (keyWords slot (w / 25 % 3) ((keyCopies s slot).getD (w / 25 % 3) none)) (w % 25)
  else if off < 0x2000 then blankWord32
  else if off < 0x4000 then at_ (entryWords (logSlot s ((off - 0x2000) / 64))) ((off - 0x2000) % 64 / 4)
  else if off < 0xC000 then at_ (sectorWords s ((off - 0x4000) / 512)) ((off - 0x4000) % 512 / 4)
  else (sparseGet 0xFFFFFFFF#32 s.nv.patch ((off - 0xC000) / 4)).toNat

end Sys2Proof.Machine
end

