-- ==== Sys2Proof/WellFormed.lean ====
section
/-! DEFINITION. The static checks of a command: the bounds its operands have by the manual. A command that fails them
cannot arrive; `exec` is total on it all the same. -/

namespace Sys2Proof

/-- A packet fits its layout: the payload is 0 to 252 bytes (03_sprue_commands.md R46). -/
def Pkt.wf (p : Pkt) : Bool := p.payload.length ≤ 252

/-- A link frame fits its layout: payload 0 to 128 bytes, AUTH 8 bytes (12_criuc_link.md R278). -/
def RxFrame.wf (f : RxFrame) : Bool := f.payload.length ≤ 128 && f.auth.length == 8

/-- A ladder scan reads sixteen cells (06_front_end_integrators.md R129). -/
def ScanIn.wf (r : ScanIn) : Bool := r.cells.length == 16

/-- Raw codes are 12 bits (07_sar_and_accumulators.md R149). -/
def codesWf (codes : List (Nat × Nat)) : Bool := codes.all fun c => c.1 < 4096 && c.2 < 4096

/-- A conversion's raw codes are 12 bits (R149). -/
def Conv.wf : Conv → Bool
  | .sequence c t => c < 4096 && t < 4096
  | .flare c => c < 4096
  | .calibration cs => cs.all (· < 4096)

/-- A debug access covers at least one word (01_buoy_system.md R411). -/
def DebugOp.wf : DebugOp → Bool
  | .read n => 1 ≤ n
  | .write vs => 1 ≤ vs.length

/-- A host or field transfer carries at most 261 bytes: a header and a packet of at most 260 (R46, R250). -/
def bytesWf (b : List Byte) : Bool := b.length ≤ 261

/-- The static checks, one arm for each command. -/
def Instr.wellFormed : Instr → Bool
  | .powerOn => true
  | .nrstAssert _ => true
  | .bor _ => true
  | .bowAssert _ => true
  | .bowRelease _ => true
  | .vddioChange _ _ => true
  | .fllLock => true
  | .emberComplete _ => true
  | .lodeEpoch _ => true
  | .lodeLockRetry => true
  | .romDigestCheck _ _ => true
  | .patchVerify _ => true
  | .meltReached _ => true
  | .pour _ _ _ _ => true
  | .warmStart _ _ _ _ => true
  | .crystalQualified _ => true
  | .crystalQualifyTimeout => true
  | .handoverNap _ _ => true
  | .crystalFailure _ _ _ _ => true
  | .lodeUnlock _ => true
  | .coreWatchdog _ _ => true
  | .debugAccess _ _ op => op.wf
  | .debugHalt _ => true
  | .debugResume _ => true
  | .autoDoze _ => true
  | .idleSleep => true
  | .lowPowerEntry _ _ => true
  | .wakeSource _ _ => true
  | .scheduledWake _ => true
  | .periodicWake => true
  | .wakeHoldExpiry => true
  | .deferredAction _ => true
  | .ladderScan r => r.wf
  | .protectionTrip _ _ _ _ _ => true
  | .protectionHoldEnd _ => true
  | .cqOutput _ _ _ => true
  | .referenceSettled _ => true
  | .routinePass _ c => codesWf c
  | .burstPass _ c => codesWf c
  | .sarConversion c => c.wf
  | .compareFire _ => true
  | .countdownZero _ => true
  | .tinEdge _ _ _ => true
  | .rtcSubWrap => true
  | .rtcSlewAdjust => true
  | .modelStep _ _ => true
  | .coulombCommit => true
  | .glintSlice => true
  | .glintEvent _ _ => true
  | .almanacEvaluation _ => true
  | .dpasEnergyCapture _ => true
  | .halfHourLearning _ => true
  | .dailyCommit _ => true
  | .dutyStale => true
  | .seaStale => true
  | .lockTimeout => true
  | .unlockTtlExpiry _ => true
  | .unlockRoundClose _ => true
  | .lockoutEnd _ => true
  | .tamperEvent _ _ => true
  | .tamperRelease _ _ => true
  | .lidIndeterminateTimeout => true
  | .q2EraseComplete _ => true
  | .logEntryCommit _ => true
  | .commitQueueStart _ => true
  | .nvWordWrite _ _ => true
  | .operationComplete _ _ => true
  | .interimAccepted _ => true
  | .ping _ p => p.wf
  | .ident _ p => p.wf
  | .stage _ p => p.wf
  | .reset _ p => p.wf
  | .sleep _ p => p.wf
  | .wake _ p => p.wf
  | .caps _ p => p.wf
  | .poll _ p => p.wf
  | .cancel _ p => p.wf
  | .get _ p => p.wf
  | .set _ p => p.wf
  | .setBulk _ p => p.wf
  | .prtClear _ p => p.wf
  | .tampAck _ p => p.wf
  | .tampRearm _ p => p.wf
  | .annFccA _ p => p.wf
  | .commit _ p => p.wf
  | .revert _ p => p.wf
  | .peek _ p => p.wf
  | .poke _ p => p.wf
  | .accRead _ p => p.wf
  | .trkRead _ p => p.wf
  | .accClear _ p => p.wf
  | .seqLoad _ p => p.wf
  | .seqStart _ p => p.wf
  | .flare _ p => p.wf
  | .calZero _ p => p.wf
  | .calSpan _ p => p.wf
  | .calStore _ p => p.wf
  | .gaugeRead _ p => p.wf
  | .cellRead _ p => p.wf
  | .modelLoad _ p => p.wf
  | .glintRead _ p => p.wf
  | .almRead _ p => p.wf
  | .seaState _ p => p.wf
  | .schedLoad _ p => p.wf
  | .shedSet _ p => p.wf
  | .annealRead _ p => p.wf
  | .sbCapture _ p => p.wf
  | .cmpSet _ p => p.wf
  | .cdnSet _ p => p.wf
  | .capqRead _ p => p.wf
  | .rtcSet _ p => p.wf
  | .dgOpen _ p => p.wf
  | .dgFeed _ p => p.wf
  | .dgDesc _ p => p.wf
  | .dgFinish _ p => p.wf
  | .dgExport _ p => p.wf
  | .dgImport _ p => p.wf
  | .authChal _ p => p.wf
  | .unlockChal _ p => p.wf
  | .unlock _ p => p.wf
  | .seal _ p => p.wf
  | .keyLoad _ p => p.wf
  | .cstRead _ p => p.wf
  | .cstConfig _ p => p.wf
  | .linkStats _ p => p.wf
  | .cstLeave _ p => p.wf
  | .logRead _ p => p.wf
  | .logMark _ p => p.wf
  | .stageResponderRead _ _ => true
  | .writePacket _ b => bytesWf b
  | .readReply _ _ => true
  | .readStatus _ _ => true
  | .smbusTimeout _ => true
  | .legacyWrite _ b => bytesWf b
  | .legacyRead _ _ => true
  | .legCtrlClearRej _ => true
  | .legCtrlSleep _ => true
  | .remainingCapacityAlarmRead _ _ => true
  | .remainingCapacityAlarmWrite _ b => bytesWf b
  | .remainingTimeAlarmRead _ _ => true
  | .remainingTimeAlarmWrite _ b => bytesWf b
  | .batteryMode _ _ => true
  | .temperature _ _ => true
  | .voltage _ _ => true
  | .current _ _ => true
  | .averageCurrent _ _ => true
  | .maxError _ _ => true
  | .relativeStateOfCharge _ _ => true
  | .absoluteStateOfCharge _ _ => true
  | .remainingCapacity _ _ => true
  | .fullChargeCapacity _ _ => true
  | .runTimeToEmpty _ _ => true
  | .averageTimeToEmpty _ _ => true
  | .averageTimeToFull _ _ => true
  | .batteryStatus _ _ => true
  | .cycleCount _ _ => true
  | .designCapacity _ _ => true
  | .designVoltage _ _ => true
  | .specificationInfo _ _ => true
  | .manufactureDate _ _ => true
  | .serialNumber _ _ => true
  | .manufacturerName _ _ => true
  | .deviceName _ _ => true
  | .deviceChemistry _ _ => true
  | .sprueBlockSubmit _ b _ => bytesWf b
  | .sprueBlockAppend _ b _ => bytesWf b
  | .sprueBlockRead _ _ => true
  | .sprueStatusRead _ _ => true
  | .assemblyTimeout => true
  | .alertResponse _ => true
  | .hostNotify _ _ => true
  | .nativeFrame _ _ _ => true
  | .fieldReplyTransmit _ => true
  | .fieldPortReconfigure => true
  | .readHoldingRegisters _ _ _ _ => true
  | .readInputRegisters _ _ _ _ => true
  | .writeSingleRegister _ _ _ _ => true
  | .writeMultipleRegisters _ _ _ _ v => v.length ≤ 123
  | .diagnostics _ _ _ b => bytesWf b
  | .encapsulatedInterfaceTransport _ _ _ _ _ => true
  | .nmeaBatterySentence _ => true
  | .nmeaAlarmSentence _ _ => true
  | .sdiAcknowledgeActive _ _ => true
  | .sdiAddressQuery _ => true
  | .sdiSendIdentification _ _ => true
  | .sdiChangeAddress _ _ _ => true
  | .sdiStartMeasurement _ _ _ => true
  | .sdiStartConcurrent _ _ _ => true
  | .sdiSendData _ _ => true
  | .sdiVerify _ _ => true
  | .sdiHighVolumeAscii _ _ => true
  | .sdiMetadata _ _ _ _ => true
  | .sdiExtendedSprue _ _ b => bytesWf b
  | .sdiExtendedNext _ _ => true
  | .joinListenEnd _ _ => true
  | .beaconTransmit _ _ => true
  | .reportTransmit _ _ => true
  | .aggregateForm _ => true
  | .csmaFrameStart _ _ => true
  | .txCollision _ _ => true
  | .beaconMissed => true
  | .poleTakeover _ _ => true
  | .carrierWake _ _ => true
  | .beacon _ f => f.wf
  | .report _ f => f.wf
  | .join _ f => f.wf
  | .notice _ f => f.wf
  | .leave _ f => f.wf
  | .cfg _ f => f.wf
  | .alarm _ f => f.wf
  | .sprueReq _ f => f.wf
  | .sbCtrlCapture _ => true
  | .tallyCapture _ _ => true
  | .accSnap _ _ _ => true
  | .trkSnap _ _ _ => true
  | .pop _ _ => true
  | .go _ _ => true
  | .cmpRegisterWrite _ _ _ _ => true
  | .cdnRegisterWrite _ _ _ _ => true
  | .cqCfgWrite _ _ _ => true
  | .patchPtrWrite _ _ => true
  | .patchDataWrite _ _ => true
  | .registerWrite _ _ _ => true
  | .nrstRelease _ => true
  | .supplyLadderStep _ _ => true
  | .criucBurstDetected _ _ _ => true
  | .malformedFrame _ _ f => f.wf
  | .modbusBadFrame _ _ => true
  | .sdiUnsupportedCommand _ => true

end Sys2Proof
end

