-- ==== Sys2Proof/Tests/Slice0.lean ====
section
/-! SUPPORT. Tests: ill-formed commands that the static checks refuse, values the manual prints, and for each obligation a
concrete state and operands that meet its hypotheses, clause by clause. -/

namespace Sys2Proof.Tests

open Sys2Proof Sys2Proof.Machine

set_option Elab.async false

/-! ## Ill-formed commands -/

def long : List Byte := List.replicate 262 0

theorem test_packet_of_253_bytes_is_refused :
    (Instr.ping 0 ⟨.hostNative, 0, 0, 0, List.replicate 253 0⟩).wellFormed = false := by decide +kernel

theorem test_frame_of_129_bytes_is_refused :
    (Instr.beacon 0 ⟨.both, 5, 1, List.replicate 129 0, List.replicate 8 0⟩).wellFormed = false := by decide +kernel

theorem test_frame_with_short_auth_is_refused :
    (Instr.beacon 0 ⟨.both, 5, 1, [], List.replicate 7 0⟩).wellFormed = false := by decide +kernel

theorem test_scan_of_15_cells_is_refused : ∀ x : ScanIn, x.cells = List.replicate 15 0 →
    (Instr.ladderScan x).wellFormed = false := by
  intro x h
  rw [Instr.wellFormed, ScanIn.wf, h]
  rfl

theorem test_raw_code_of_13_bits_is_refused :
    (Instr.routinePass 0 [(4096, 0)]).wellFormed = false ∧ (Instr.burstPass 0 [(0, 4096)]).wellFormed = false ∧
    (Instr.sarConversion (.sequence 4096 0)).wellFormed = false ∧ (Instr.sarConversion (.flare 4096)).wellFormed = false := by
  decide +kernel

theorem test_transfer_of_262_bytes_is_refused :
    (Instr.writePacket 0 long).wellFormed = false ∧ (Instr.sdiExtendedSprue 0 0x30 long).wellFormed = false := by decide +kernel

theorem test_modbus_write_of_124_registers_is_refused :
    (Instr.writeMultipleRegisters 0 1 0 124 (List.replicate 124 0)).wellFormed = false := by decide +kernel

theorem test_every_bound_is_admitted :
    (Instr.ping 0 ⟨.link, 0, 0, 0, List.replicate 252 0⟩).wellFormed = true ∧
    (Instr.routinePass 0 [(4095, 4095)]).wellFormed = true ∧ (Instr.writePacket 0 (List.replicate 261 0)).wellFormed = true := by
  decide +kernel

theorem test_no_word_spells_a_command : ∀ nbits w, decodeTableWord nbits w = none := fun _ _ => rfl

/-! ## Values that the manual or its standards print -/

/-- 03 R48. -/
theorem test_crc16_of_the_nine_digits : crc16 (ascii "123456789") = 0x29B1 := by decide +kernel

/-- FIPS 180-4, the one-block message "abc". -/
theorem test_sha256_of_abc : (sha 1 (ascii "abc")).take 4 = [0xBA, 0x78, 0x16, 0xBF] := by decide +kernel

/-- FIPS 197, appendix C.3. -/
theorem test_aes256_vector :
    aesEncrypt (List.range 32) ((List.range 16).map (17 * ·)) =
      [0x8E, 0xA2, 0xB7, 0xCA, 0x51, 0x67, 0x45, 0xBF, 0xEA, 0xFC, 0x49, 0x90, 0x4B, 0x49, 0x60, 0x89] := by decide +kernel

/-- 08, worked example: the target of compare 0, and of the compare written in error. -/
theorem test_compare_targets :
    cmpTarget 0x0000001300001000 0x007CF000 = 0x00000013007CF000 ∧
    cmpTarget 0x0000001300001000 0xFFFFE000 = 0x00000013FFFFE000 := by decide +kernel

/-- 03, worked example: the request of the station computer. -/
theorem test_packet_layout :
    (packetBytes 0x11 0x31 0 0x0712 [0x0F, 0]).take 8 = [0x0A, 0x11, 0x31, 0x00, 0x12, 0x07, 0x0F, 0x00] := by decide +kernel

/-! ## States to meet the hypotheses -/

/-- A part in Pour with Lode on and OPEN; the cores serve and nothing is in flight. -/
def served : State :=
  { State.reset with
    clk := { State.reset.clk with lode := .on, onLfrc := false, fllLock := true }
    start := { State.reset.start with stage := .pour, emberDone := true, released := true, patchDone := true }
    cqa := { State.reset.cqa with modRun := true }
    cqb := { State.reset.cqb with modRun := true }
    sec := { State.reset.sec with lock := .opened } }

/-- The same in Cast. -/
def casting : State := { served with start := { served.start with stage := .cast } }

/-- The same with committed values. -/
def withPrm (l : List (Nat × List Byte)) (s : State) : State := { s with par := { s.par with committed := l, force := l } }

/-- A request of the native host path. -/
def pkt (arg : BitVec 16) (payload : List Byte) : Pkt := ⟨.hostNative, 7, 0, arg, payload⟩

def quietB (s : State) : Bool :=
  s.sprue.slots.toList.all Option.isNone && s.sprue.held.isEmpty && s.sprue.early.isEmpty && s.pwr.deferred.isEmpty

theorem quiet_of {s : State} (h : quietB s = true) : Quiet s := by
  simp only [quietB, Bool.and_eq_true, List.isEmpty_iff, List.all_eq_true, Option.isNone_iff_eq_none] at h
  obtain ⟨⟨⟨a, b⟩, c⟩, d⟩ := h
  exact ⟨fun i => a _ (Vector.mem_toList_iff.2 (Vector.getElem_mem i.2)), b, c, d⟩

def servingB (s : State) : Bool :=
  lodeOn s && !s.clk.halt && s.pwr.mode == .run && decide (2 ≤ s.start.stage.code) && s.pwr.vddioOk

theorem serving_of {s : State} (h : servingB s = true) : Serving s := by
  simp only [servingB, lodeOn, Bool.and_eq_true, beq_iff_eq, Bool.not_eq_true', decide_eq_true_eq] at h
  obtain ⟨⟨⟨⟨a, b⟩, c⟩, d⟩, e⟩ := h
  exact ⟨a, b, c, d, e⟩

/-- Whether a request of the native host path with TAG 7 is admitted one edge on, and passes its checks. -/
def askedB (s : State) : Bool :=
  live s && quietB (elapse 1 s) && servingB (elapse 1 s) && decide ((elapse 1 s).host.queue.length < 4)
    && ((elapse 1 s).sprue.resHost.all fun x => x.tag != 7) && !earlierComes (elapse 1 s) .hostNative

def passB (op : Op) (arg : BitVec 16) (payload : List Byte) (s : State) : Bool :=
  (opRefusal (elapse 1 s) (opFor op (pkt arg payload) (elapse 1 s))).isNone

theorem admits_of {s : State} (h : askedB s = true) (arg : BitVec 16) (b : List Byte) : Asked 1 (pkt arg b) s := by
  simp only [askedB, Bool.and_eq_true, decide_eq_true_eq, List.all_eq_true, bne_iff_ne, Bool.not_eq_true'] at h
  obtain ⟨⟨⟨⟨⟨a, b⟩, c⟩, d⟩, e⟩, f⟩ := h
  exact ⟨a, ⟨quiet_of b, serving_of c, fun _ => d, Or.inr e⟩, f⟩

theorem passes_of {op : Op} {arg : BitVec 16} {b : List Byte} {s : State} (h : passB op arg b s = true) :
    Passes op (pkt arg b) (elapse 1 s) := Option.isNone_iff_eq_none.1 h

/-! ## Requests: each is admitted and passes its checks -/

/-- Every key slot loaded. -/
def keyed (s : State) : State :=
  { s with sec := { s.sec with keys := Vector.replicate 16 ⟨.loaded, 1, List.replicate 8 0, List.replicate 8 0, 1, false⟩ } }

/-- The Pole of a constellation, holding an aggregate block. -/
def pole : State :=
  { keyed casting with link := { casting.link with role := .pole, block := some (List.replicate 22 0), ctrRes := 100 } }

/-- A Star that has adopted a block covering 0x0712. -/
def star : State :=
  withPrm [(0x0901, [1]), (0x0907, [1])]
    { keyed casting with link := { casting.link with
      role := .member, ctrRes := 100, cfg := some [1, 0, 0, 0, 1, 0, 0, 0, 0x12, 7, 20, 0, 0, 0] } }

theorem served_asked : ∀ arg b, Asked 1 (pkt arg b) served := admits_of (by decide +kernel)
theorem casting_asked : ∀ arg b, Asked 1 (pkt arg b) casting := admits_of (by decide +kernel)
theorem pole_asked : ∀ arg b, Asked 1 (pkt arg b) pole := admits_of (by decide +kernel)
theorem star_asked : ∀ arg b, Asked 1 (pkt arg b) star := admits_of (by decide +kernel)

/-- A part that holds an Almanac record. -/
def recorded : State := { casting with alm := { casting.alm with rcd := some ⟨0, 0, 0, 0, 0, 0, 0, 0, 0, 0, 0, 0, 0, 0, 0, 0, 0, 0⟩ } }

theorem meets_ReadsAnswer :
    (∀ k < 3, passB .gaugeRead (BitVec.ofNat 16 k) [] pole = true) ∧ (aggBlock (elapse 1 pole)).isSome = true ∧
    passB .gaugeRead 2 [] served = true ∧ aggBlock (elapse 1 served) = none ∧
    passB .cellRead 3 [] served = true ∧ passB .glintRead 1 [] served = true ∧ passB .annealRead 1 [] casting = true ∧
    passB .almRead 1 [] pole = true ∧ askedB recorded = true ∧ passB .almRead 0 [] recorded = true ∧
    (elapse 1 recorded).alm.rcd.isSome = true ∧ passB .almRead 1 [] casting = true ∧
    passB .cstRead 0 [] served = true ∧ passB .cstRead 16 [] served = true ∧ passB .cstRead 16 [] pole = true ∧
    member (elapse 1 pole) = true ∧ passB .logRead 15 [0x84] served = true ∧ passB .logRead 0 [4] served = true := by
  decide +kernel

theorem meets_SarRequestsAct :
    passB .accRead 31 [] served = true ∧ passB .accRead 0x801F [] served = true ∧
    passB .trkRead 0 [] served = true ∧ passB .trkRead 0x801F [] served = true ∧
    passB .accClear 0 [0, 0, 0, 0xF0, 0, 0, 0, 0xF0] served = true ∧
    passB .seqLoad 0 [1, 1, 64, 0, 0, 0xFF, 0xFF, 1, 0, 0] served = true ∧
    (let s := withPrm [(0x0520, [0])] served
     askedB s = true ∧ passB .seqLoad 1 [1, 1, 64, 0, 0, 0xFF, 0xFF, 1, 0, 0] s = true ∧
     passB .seqStart 1 [1, 0, 0, 0] s = true ∧ passB .seqStart 0x8001 [0, 0, 0, 0] s = true) ∧
    passB .seqStart 0x8000 [0, 0, 0, 0] served = true := by
  decide +kernel

/-- Pending values of two parameters, one of them marked. -/
def pending : State :=
  { served with par := { served.par with pending := [⟨0x0712, [20, 0], none⟩, ⟨0x0733, [60, 0, 0, 0], some 0⟩] } }

theorem meets_ParameterRequestsAct :
    passB .set 0x0712 [20, 0] served = true ∧ PlainId 0x0712 ∧
    passB .setBulk 1 [0x12, 7, 2, 20, 0] served = true ∧
    (∀ it ∈ setItems (opFor .setBulk (pkt 1 [0x12, 7, 2, 20, 0]) (elapse 1 served)), PlainId it.1) ∧
    askedB pending = true ∧ passB .revert 0x0712 [] pending = true ∧ (∃ e ∈ (elapse 1 pending).par.pending, e.id = 0x0712) ∧
    passB .get 0x0712 [] pending = true ∧ cfgValue (elapse 1 pending) 0x0712 = none ∧
    ((elapse 1 pending).par.pending.find? (fun e => e.id == 0x0712)).isSome = true ∧
    passB .get 0x0712 [] served = true ∧ (∀ e ∈ (elapse 1 served).par.pending, e.id ≠ 0x0712) ∧
    passB .get 0x0712 [] star = true ∧ (cfgValue (elapse 1 star) 0x0712).isSome = true ∧
    (prmOf 0x0712).map Prm.wr = some .u ∧ passB .get 0x031A [] served = true ∧ (prmOf 0x031A).map Prm.wr = some .wo ∧
    passB .set 0x031A [90] served = true ∧ passB .set 0x0B21 [0x3F] served = true ∧
    passB .set 0x0625 [100, 0, 0, 0] served = true ∧ passB .set 0x0B20 (List.replicate 40 0) served = true ∧
    (elapse 1 served).pwr.bow = false ∧ (elapse 1 served).nv.queue.length < 8 ∧ rearmBarred (elapse 1 served) = false := by
  unfold PlainId
  decide +kernel

/-- A part whose eighth chunk of profile 0 is awaited. -/
def staging : State :=
  { served with gauge := { served.gauge with
    staged := (0, 0, [0, 0, 0, 0, 1, 0, 2, 0, 3, 0, 4, 0] ++ List.replicate 116 0) ::
      (List.range 6).map fun k => (0, k + 1, List.replicate 128 0) } }

/-- The last chunk, which ends in the CRC of the profile. -/
def lastChunk : List Byte :=
  let body := [0, 0, 0, 0, 1, 0, 2, 0, 3, 0, 4, 0] ++ List.replicate 1008 0
  7 :: 1 :: (List.replicate 124 0 ++ leBytes 4 (crc32 body))

theorem meets_CommitsAct :
    (elapse 1 served).pwr.bow = false ∧ passB .commit 0 [] served = true ∧
    (elapse 1 served).par.pending.filter (fun e => e.mark.isNone) = [] ∧
    askedB pending = true ∧ passB .commit 0 [] pending = true ∧
    (elapse 1 pending).par.pending.filter (fun e => e.mark.isNone) ≠ [] ∧
    passB .calStore 0 [] served = true ∧ passB .modelLoad 3 (7 :: 0 :: List.replicate 128 0) served = true ∧
    passB .keyLoad 15 (List.replicate 40 0) served = true ∧ passB .keyLoad 15 (List.replicate 40 1) served = true ∧
    passB .cstConfig 0 [1, 0, 0, 0, 0, 0, 0, 0] served = true ∧
    cfgCheck (elapse 1 served) [1, 0, 0, 0, 0, 0, 0, 0] = stOk ∧
    (let s := { pending with pwr := { pending.pwr with bow := true } }
     askedB s = true ∧ (elapse 1 s).pwr.bow = true ∧ passB .commit 0 [] s = true ∧
       (elapse 1 s).par.pending.filter (fun e => e.mark.isNone) ≠ []) := by
  decide +kernel

set_option maxRecDepth 100000 in
theorem meets_CommitsAct_profile :
    askedB staging = true ∧ passB .modelLoad 0 lastChunk staging = true ∧
    ∃ b, stagedProfile
      { elapse 1 staging with gauge := { (elapse 1 staging).gauge with
        staged := ((elapse 1 staging).gauge.staged.filter fun x => !(x.1 == 0 && x.2.1 == 7)) ++ [(0, 7, lastChunk.drop 2)] } } 0
        = some b ∧ profileOk b = true := by
  refine ⟨by decide +kernel, by decide +kernel,
    [0, 0, 0, 0, 1, 0, 2, 0, 3, 0, 4, 0] ++ List.replicate 1008 0 ++ lastChunk.drop 126, by decide +kernel, by decide +kernel⟩

theorem meets_PeekAndPoke :
    blockOf (leAt [0, 1, 7, 0x40] 0 4) = some 7 ∧ passB .peek 62 [0, 1, 7, 0x40] served = true ∧
    passB .poke 1 [0, 1, 7, 0x40, 5, 0, 0, 0] served = true := by
  decide +kernel

theorem meets_PolicyRequestsAct :
    (elapse 1 served).start.stage = .pour ∧ passB .seaState 7 [] served = true ∧
    passB .schedLoad 1 [0, 0, 1, 1, 0, 1, 0] served = true ∧
    (dutiesOf (opFor .schedLoad (pkt 1 [0, 0, 1, 1, 0, 1, 0]) (elapse 1 served))).isSome = true ∧
    passB .shedSet 3 [] served = true := by
  decide +kernel

/-- Context 0 open or finished, for the native host path; key slot 0 serves the digest engine. -/
def digesting (st : CtxState) : State :=
  withPrm [(0x0A10, [1, 1])]
    { keyed served with sec := { (keyed served).sec with
      ctx := vset served.sec.ctx 0 { Ctx.closed with
        state := st, func := 1, owner := some .hostNative, chain := shaInit 1, held := some (List.replicate 32 0) } } }

theorem meets_DigestRequestsAct :
    passB .dgOpen 0 [0, 0xFF] served = true ∧ passB .dgOpen 0 [4, 0xFF] served = true ∧
    askedB (digesting .opened) = true ∧ passB .dgOpen 1 [1, 0] (digesting .opened) = true ∧
    passB .dgFeed 0 [1, 2, 3] (digesting .opened) = true ∧ passB .dgFinish 0 [] (digesting .opened) = true ∧
    (ctxAt (elapse 1 (digesting .opened)) 0).state = .opened ∧
    askedB (digesting .finished) = true ∧ passB .dgFinish 0 [] (digesting .finished) = true ∧
    (ctxAt (elapse 1 (digesting .finished)) 0).state = .finished ∧ passB .dgFinish 0x8000 [] (digesting .finished) = true ∧
    passB .dgDesc 0 [0, 0x10, 0x0B, 0x40, 1]
      { digesting .opened with sec := { (digesting .opened).sec with staging := [(1, 0x10), (2, 0x0B), (3, 0x40), (4, 8)] } }
      = true ∧
    passB .dgExport 0 [] (digesting .opened) = true ∧
    passB .dgImport 0 (List.replicate 216 0) (digesting .opened) = true := by
  decide +kernel

/-- A sealed part in Cast with every key loaded and a committed reservation of the use counter. -/
def sealed_ : State :=
  { keyed casting with sec := { (keyed casting).sec with lock := .sealed, useRes := 1000 } }

theorem meets_LockRequestsAct :
    askedB sealed_ = true ∧ passB .unlockChal 1 [] sealed_ = true ∧ passB .unlockChal 2 [] sealed_ = true ∧
    lockPortOf .hostNative = some .host ∧ (elapse 1 sealed_).sec.lock.code < 1 ∧
    passB .authChal 1 (List.replicate 32 0) sealed_ = true ∧
    (elapse 1 sealed_).sec.useCtr + 1 + 64 < (elapse 1 sealed_).sec.useRes ∧
    passB .unlock 2 (List.replicate 32 0) sealed_ = true ∧ (plOf .host (elapse 1 sealed_)).roundAt = none := by
  decide +kernel

theorem meets_DeferredRequestsAnswerFirst :
    (pkt 0 []).origin ∈ [Origin.hostNative, .fieldNative, .sdi, .link] ∧ flgNoReply (pkt 0 []).flg = false ∧
    passB .reset 1 [] served = true ∧ passB .reset 2 [] served = true ∧ passB .sleep 0 [] served = true ∧
    passB .sleep 2 [] served = true ∧ passB .seal 0 [] served = true ∧ (elapse 1 served).sec.lock ≠ .sealed ∧
    passB .wake 0 [] served = true ∧ passB .wake 0xFFFF [] served = true ∧ (elapse 1 served).pwr.hold = .none := by
  decide +kernel

/-- A result with TAG 9 is stored for the host. -/
def stored : State := { served with sprue := { served.sprue with resHost := [⟨0x13, 9, 0, [], false⟩] } }

theorem meets_ResultLinkAndLogRequestsAct :
    askedB stored = true ∧ passB .poll 9 [] stored = true ∧
    ((elapse 1 stored).sprue.resHost.find? fun x => x.tag.toNat == (9 : BitVec 16).toNat) = some ⟨0x13, 9, 0, [], false⟩ ∧
    (∀ y ∈ (elapse 1 stored).sprue.resHost, y.tag ≠ 9 → ¬Signals (elapse 1 stored) y) ∧
    passB .linkStats 0 [] served = true ∧ passB .linkStats 1 [] served = true ∧
    passB .cstLeave 0 [] star = true ∧ member (elapse 1 star) = true ∧ (elapse 1 star).link.role = .member ∧
    passB .logMark 0 [1] served = true ∧ passB .logMark 0 (List.replicate 32 1) served = true ∧
    (elapse 1 served).nv.storeBad = false ∧ (elapse 1 served).pwr.bow = false ∧ (elapse 1 served).tamp.logWait = [] := by
  refine ⟨by decide +kernel, by decide +kernel, by decide +kernel, ?_, by decide +kernel⟩
  have h : ∀ y ∈ (elapse 1 stored).sprue.resHost, y.tag = 9 := by decide +kernel
  exact fun y hy hn => absurd (h y hy) hn

theorem meets_TimerAndRtcRequestsAct :
    passB .sbCapture 0 [] served = true ∧ passB .cmpSet 0 [0xFF, 0xFF, 0xFF, 0xFF, 0x1D] served = true ∧
    passB .cmpSet 3 [0, 0, 0, 0, 0x11] served = true ∧
    passB .cdnSet 2 [1, 0, 0, 0, 1, 0, 0, 0] served = true ∧ passB .capqRead 3 [] served = true ∧
    passB .rtcSet 0 [1, 2, 3, 4] served = true ∧ (elapse 1 served).link.txEnd = none ∧
    (∀ i : Fin 6, (elapse 1 served).sec.ctx[i].dmaEnd = none) := by
  decide +kernel

theorem meets_ConversionRequestsWait :
    passB .flare 1 [4, 0, 0, 0xFF, 0xFF] served = true ∧ passB .calZero 1 [] served = true ∧
    passB .calSpan 1 [0xA0, 0x0F, 0, 0] served = true := by
  decide +kernel

/-! ## Operations in flight, refusals -/

/-- An operation of the native host path alone in slot 1. -/
def running (o : Oper) : State :=
  { served with sprue := { served.sprue with slots := vset served.sprue.slots 1 (some o), nextId := 5 } }

def oper (op : Op) (arg : BitVec 16) (replied : Bool) : Oper :=
  ⟨4, op, .hostNative, 3, 0, arg, [], 0, 0, 0, false, replied, if replied then some stAccepted else none, false, none⟩

def runsB (s : State) (o : Oper) : Bool :=
  decide (s.sprue.slots[(1 : Fin 8)] = some o) && decide (∀ i : Fin 8, i ≠ 1 → s.sprue.slots[i] = none) && !o.waiting
    && o.final.isNone && s.sprue.held.isEmpty && s.sprue.early.isEmpty && s.pwr.deferred.isEmpty

theorem runs_of {s : State} {o : Oper} (h : runsB s o = true) : Runs s 1 o := by
  simp only [runsB, Bool.and_eq_true, decide_eq_true_eq, Bool.not_eq_true', List.isEmpty_iff, Option.isNone_iff_eq_none] at h
  obtain ⟨⟨⟨⟨⟨⟨a, b⟩, c⟩, d⟩, e⟩, f⟩, g⟩ := h
  exact ⟨a, b, c, d, e, f, g⟩

/-- A calibration that has taken `cnt` of 64 conversions with the given sum of codes. -/
def calibrating (cnt : Nat) (sum : Int) : State :=
  let s := running (oper .calZero 1 true)
  { s with sar := { s.sar with calRun := true, calPair := 1, calN := 64, calTs := 4, calCnt := cnt, calSum := sum } }

theorem meets_OperationsEnd_complete :
    live (calibrating 64 8192) = true ∧ Runs (elapse 1 (calibrating 64 8192)) 1 (oper .calZero 1 true) ∧
    (pairOfCode 1).isSome = true ∧ (elapse 1 (calibrating 64 8192)).sprue.resHost.length < 4 ∧
    (let r := elapse 1 (calibrating 64 8192)
     0 < r.sar.calN ∧ r.sar.calCnt = r.sar.calN ∧ r.sar.calSum.natAbs ≤ 128 * r.sar.calN) ∧
    (let r := elapse 1 (calibrating 64 8193)
     r.sar.calCnt = r.sar.calN ∧ 128 * r.sar.calN < r.sar.calSum.natAbs) ∧
    (elapse 1 (calibrating 63 0)).sar.calCnt ≠ (elapse 1 (calibrating 63 0)).sar.calN :=
  ⟨by decide +kernel, runs_of (by decide +kernel), by decide +kernel⟩

theorem meets_OperationsEnd_interim :
    live (running (oper .flare 1 false)) = true ∧ Runs (running (oper .flare 1 false)) 1 (oper .flare 1 false) ∧
    flgNoReply (oper .flare 1 false).flg = false ∧ (running (oper .flare 1 false)).host.queue.length < 4 :=
  ⟨by decide +kernel, runs_of (by decide +kernel), by decide +kernel, by decide +kernel⟩

theorem meets_OperationsEnd_cancel :
    let s := running (oper .commit 0 true)
    let p : Pkt := pkt 3 []
    live s = true ∧ Serving (elapse 1 s) ∧ Runs (elapse 1 s) 1 (oper .commit 0 true) ∧
    p.flg = 0 ∧ p.arg.toNat = (oper .commit 0 true).tag.toNat ∧ p.tag ≠ (oper .commit 0 true).tag ∧
    (∀ x ∈ (elapse 1 s).sprue.resHost, x.tag ≠ p.tag) ∧ (elapse 1 s).sprue.resHost.length < 4 ∧
    (elapse 1 s).host.queue.length < 4 ∧ (oper .commit 0 true).id < (elapse 1 s).sprue.nextId ∧
    earlierComes (elapse 1 s) .hostNative = false :=
  ⟨by decide +kernel, serving_of (by decide +kernel), runs_of (by decide +kernel), by decide +kernel⟩

/-- The status with which a request is refused one edge on. -/
def refusal (op : Op) (arg : BitVec 16) (b : List Byte) (s : State) : Option Byte :=
  (opRefusal (elapse 1 s) (opFor op (pkt arg b) (elapse 1 s))).map Prod.fst

/-- Every step of the checks refuses some request of an admitted part. -/
theorem meets_ChecksRefuse :
    refusal .almRead 0 [] served = some stStage ∧
    (let s := { served with sec := { served.sec with keys := Vector.replicate 16 { KeySlot.empty with quenched := true } } }
     askedB s = true ∧ refusal .dgOpen 0 [1, 0] s = some stQuenched) ∧
    (let s := { sealed_ with sec := { sealed_.sec with host := { sealed_.sec.host with until_ := some 100 } } }
     askedB s = true ∧ refusal .unlockChal 1 [] s = some stLockout) ∧
    refusal .set 0x0712 [20, 0] sealed_ = some stLocked ∧ refusal .set 0x0712 [20] served = some stBadLen ∧
    refusal .ident 1 [] served = some stBadArg ∧ refusal .shedSet 4 [] served = some stRange ∧
    refusal .rtcSet 0 [1, 2, 3, 4] star = some stRemote ∧
    (let s := { served with sprue := { served.sprue with windows := [⟨.shed, .field, 0⟩] } }
     askedB s = true ∧ refusal .shedSet 3 [] s = some stConflict) ∧
    refusal .seqStart 1 [1, 0, 0, 0] served = some stBusy ∧ refusal .ping 0 [] served = none := by
  decide +kernel

/-- Of two packets at one stamp that of the host starts before that of SDI-12, whichever came first; and a packet of SDI-12
waits where a packet of the host follows at its edge. -/
theorem meets_StartsFollowTheOrder :
    (let o (id : Nat) (origin : Origin) : Oper := { oper .ping 0 false with id := id, origin := origin, stamp := 5, waiting := true }
     let s := { served with sprue := { served.sprue with
        slots := vset (vset served.sprue.slots 0 (some (o 4 .sdi))) 1 (some (o 5 .hostNative)) } }
     nextStart s = some (o 5 .hostNative)) ∧
    (let s := { served with pending := [.ping 0 (pkt 0 [])] }
     live s = true ∧ AdmitsNow ⟨.sdi, 7, 0, 0, []⟩ (elapse 1 s) ∧ earlierComes (elapse 1 s) .sdi = true) :=
  ⟨by decide +kernel, by decide +kernel,
    ⟨quiet_of (by decide +kernel), serving_of (by decide +kernel), nofun, Or.inr (by decide +kernel)⟩, by decide +kernel⟩

/-! ## The host port -/

/-- A part that serves the host over SPI, with Cast reached. -/
def spi : State := { served with start := { served.start with hsel := true } }

theorem i2c_serves : ServesI2c 1 served := ⟨by decide +kernel, serving_of (by decide +kernel), by decide +kernel⟩
theorem spi_serves : ServesSpi 1 spi := ⟨by decide +kernel, serving_of (by decide +kernel), by decide +kernel⟩

theorem meets_PacketsDeliverTheirRequest :
    (packetBytes 0x11 0x31 0 0x0712 [0x0F, 0]).length ≤ 255 ∧ (elapse 1 spi).host.queue.length < 4 ∧
    (elapse 1 served).host.queue.length < 4 ∧ (elapse 1 served).host.asm = [] ∧ (elapse 1 served).host.asmAt = none ∧
    prm (entryTouch .hostNative (elapse 1 served)) 0x0803 = 0 ∧ (elapse 1 served).field.proto = 0 ∧
    fdePin (elapse 1 served) = false := by
  decide +kernel

def reply1 : Reply := ⟨0, 0x01, 5, 0, 0, [1, 2, 3], 0⟩

/-- With a reply queued. -/
def owing (s : State) : State := { s with host := { s.host with queue := [reply1] } }

theorem meets_SpiAndStageDrive :
    ServesSpi 1 (owing spi) ∧ (entryTouch .hostNative (elapse 1 spi)).host.queue = [] ∧
    (entryTouch .hostNative (elapse 1 (owing spi))).host.queue = [reply1] ∧
    10 < (replyBytes reply1).length ∧ (replyBytes reply1).length ≤ 11 ∧
    Quiet (entryTouch .hostNative (elapse 1 (owing spi))) ∧
    (let s := { State.reset with clk := { State.reset.clk with fllLock := true } }
     live s = true ∧ (elapse 1 s).clk.fllLock = true ∧ (elapse 1 s).pwr.vddioOk = true ∧ (elapse 1 s).clk.lode = .off ∧
       (elapse 1 s).start.stage = .ember ∧ (elapse 1 s).pwr.mode = .run ∧ (elapse 1 s).start.hsel = false) :=
  ⟨⟨by decide +kernel, serving_of (by decide +kernel), by decide +kernel⟩, by decide +kernel, by decide +kernel,
    by decide +kernel, by decide +kernel, quiet_of (by decide +kernel), by decide +kernel⟩

theorem built_admits {r : State} (q : Quiet r) (v : Serving r) (o : Origin) (h : builtOrigin o = true) (arg : BitVec 16)
    (b : List Byte) : AdmitsNow ⟨o, 0, 0, arg, b⟩ r :=
  ⟨q, v, by cases o <;> simp_all [builtOrigin], Or.inl h⟩

theorem built_admitted (o : Origin) (h : builtOrigin o = true) (arg : BitVec 16) (b : List Byte) :
    AdmitsNow ⟨o, 0, 0, arg, b⟩ (elapse 1 served) :=
  built_admits (quiet_of (by decide +kernel)) (serving_of (by decide +kernel)) o h arg b

theorem meets_Generation1Window :
    (elapse 1 served).host.legPtr + 0x4F < 0x50 ∧
    AdmitsNow ⟨.gen1, 0, 0, 0, []⟩ (elapse 1 served) ∧ Passes .gaugeRead ⟨.gen1, 0, 0, 0, []⟩ (elapse 1 served) ∧
    Passes .sleep ⟨.gen1, 0, 0, 0, []⟩ (elapse 1 served) ∧
    isMember (elapse 1 served) = false ∧ (elapse 1 served).pol.dpas = false :=
  ⟨by decide +kernel, built_admitted .gen1 rfl 0 [], Option.isNone_iff_eq_none.1 (by decide +kernel),
    Option.isNone_iff_eq_none.1 (by decide +kernel), by decide +kernel, by decide +kernel⟩

/-- The same in Melt, where a GAUGE_READ is refused. -/
def melting : State := { served with start := { served.start with stage := .melt } }

theorem meets_Generation2Words :
    prm (elapse 1 served) 0x0803 = 0 ∧
    (∀ p ∈ [(0x0820, [5, 0]), (0x0821, [5, 0])],
      (opRefusal (elapse 1 served) (opFor .set ⟨.gen2, 0, 0, p.1, p.2⟩ (elapse 1 served))).isNone = true) ∧
    (opRefusal (elapse 1 served) (opFor .gaugeRead ⟨.gen2, 0, 0, 0, []⟩ (elapse 1 served))).isNone = true := by
  decide +kernel

theorem meets_Generation2Words_admitted : ∀ id b, AdmitsNow ⟨.gen2, 0, 0, id, b⟩ (elapse 1 served) := built_admitted .gen2 rfl

theorem meets_Generation2Words_melt :
    (opRefusal (elapse 1 melting) (opFor .gaugeRead ⟨.gen2, 0, 0, 0, []⟩ (elapse 1 melting))).isNone = false ∧
    (opRefusal (elapse 1 melting) (opFor .get ⟨.gen2, 0, 0, 0x0401, []⟩ (elapse 1 melting))).isNone = true ∧
    (opRefusal (elapse 1 melting) (opFor .get ⟨.gen2, 0, 0, 0x0402, []⟩ (elapse 1 melting))).isNone = true ∧
    (opRefusal (elapse 1 melting) (opFor .get ⟨.gen2, 0, 0, 0x0405, []⟩ (elapse 1 melting))).isNone = true ∧
    live melting = true ∧ quietB (elapse 1 melting) = true ∧ (elapse 1 melting).start.stage = .melt := by
  decide +kernel

theorem tracked_serves : servingB (alarmTrack (elapse 1 served)) = true ∧ quietB (alarmTrack (elapse 1 served)) = true := by
  decide +kernel

theorem meets_Generation2Words_status : AdmitsNow ⟨.gen2, 0, 0, 0, []⟩ (alarmTrack (elapse 1 served)) :=
  built_admits (quiet_of tracked_serves.2) (serving_of tracked_serves.1) .gen2 rfl 0 []

theorem meets_Generation3Blocks :
    (elapse 1 served).host.asm.length + 255 ≤ 260 ∧ (elapse 1 served).host.queue.length < 4 ∧
    prm (entryTouch .hostNative (elapse 1 served)) 0x0803 = 0 ∧ (elapse 1 (owing served)).host.queue = [reply1] ∧
    (let s := { owing served with host := { (owing served).host with
        queue := [{ reply1 with payload := List.replicate 252 0 }], asmAt := some 0 } }
     s.host.asmAt = some 0 ∧ (elapse 1 s).host.readOff + 255 < (replyBytes { reply1 with payload := List.replicate 252 0 }).length) := by
  decide +kernel

theorem meets_AlertsAndNotifications :
    let a := alarmTrack (withPrm [(0x0801, [1]), (0x0802, [1])] served)
    let s := { a with host := { a.host with alerts := [3], notifies := [(some (9, 0x13), 2)] } }
    let s1 := { s with host := { s.host with notifies := [(some (9, 0x13), 1)] } }
    servingB (elapse 1 s) = true ∧ (alarmTrack (elapse 1 s)).host.alerts = [3] ∧
    prm (alarmTrack (elapse 1 s)) 0x0801 = 1 ∧ prm (elapse 1 s) 0x0802 = 1 ∧
    (alarmTrack (elapse 1 s)).host.notifies = [(some (9, 0x13), 2)] ∧
    (alarmTrack (elapse 1 s1)).host.notifies = [(some (9, 0x13), 1)] := by
  decide +kernel

/-! ## The field port -/

theorem meets_FieldPortTransmitsAndReconfigures :
    servingB (elapse 1 served) = true ∧
    (let s := { served with tmr := { served.tmr with base := 10 ^ 9 }
                            field := { served.field with queue := [reply1], mbQueue := [[1]] } }
     (elapse 1 s).field.rxAt + charTicks (elapse 1 s) (prm (elapse 1 s) 0x0814) ≤ now (elapse 1 s) ∧
       (elapse 1 s).field.fdeTo ≤ now (elapse 1 s) ∧ (elapse 1 s).field.mbWait = none ∧
       (elapse 1 s).field.queue = [reply1] ∧ quietB (elapse 1 s) = true) ∧
    (let s := { served with tmr := { served.tmr with base := 10 ^ 9 }
                            field := { served.field with mbQueue := [[1]] } }
     (elapse 1 s).field.rxAt + charTicks (elapse 1 s) (prm (elapse 1 s) 0x0814) ≤ now (elapse 1 s) ∧
       (elapse 1 s).field.fdeTo ≤ now (elapse 1 s) ∧
       (elapse 1 s).field.queue = [] ∧ (elapse 1 s).field.mbQueue = [[1]]) ∧
    (let s (st : Byte) : State := { served with field := { served.field with
        rxAt := 1000, mbWait := some ⟨5, 6, 4, [], [0, 18, 0xC0, 0xDE], [], some { reply1 with status := st }⟩ } }
     now (elapse 1 (s stOk)) < (elapse 1 (s stOk)).field.rxAt + charTicks (elapse 1 (s stOk)) (prm (elapse 1 (s stOk)) 0x0814) ∧
       ∀ st ∈ [stOk, stBusy], ∃ w, (elapse 1 (s st)).field.mbWait = some w ∧ w.ans = some { reply1 with status := st } ∧
         w.unit ≠ 0 ∧ w.fc = 6 ∧ w.regs = []) ∧
    (let s := { served with field := { served.field with reconf := some 0 } }
     servingB s = true ∧ s.field.reconf = some 0) := by
  decide +kernel

/-- A part that serves Modbus at unit 5, with a parameter named in the window. -/
def modbus : State := { served with field := { served.field with proto := 1, addr := 5, paramId := 0x0712 } }

theorem modbus_serves : ServesModbus 1 5 modbus :=
  ⟨by decide +kernel, serving_of (by decide +kernel), by decide +kernel, by decide +kernel, by decide +kernel, by decide +kernel⟩

theorem meets_ModbusFramesAnswer :
    let e := MbHeard 1 modbus
    Admits ⟨.modbus, 0, 0, 0, []⟩ e ∧ Passes .gaugeRead ⟨.modbus, 0, 0, 0, []⟩ e ∧
    (∀ a ∈ [26, 27], (inputReg e a).isSome = true) ∧ inputReg e 28 = none ∧ ¬(3 ≤ 2 ∨ (16 ≤ 3 ∧ 3 ≤ 19)) ∧
    (prmOf e.field.paramId).map Prm.len = some 2 ∧ (prmOf 0x0108).map Prm.len = some 16 ∧
    ((submit .get ⟨.modbus, 0, 0, 0x0712, []⟩ { e with sprue := { e.sprue with answer := none } }).sprue.answer.map
      Reply.status) = some stOk ∧
    ((submit .seaState ⟨.modbus, 0, 0, 7, []⟩ { e with sprue := { e.sprue with answer := none } }).sprue.answer.map
      Reply.status) = some stOk ∧
    ((submit .seaState ⟨.modbus, 0, 0, 8, []⟩ { e with sprue := { e.sprue with answer := none } }).sprue.answer.map
      Reply.status) = some stRange ∧
    (submit .commit ⟨.modbus, 0, 0, 0, []⟩ { e with sprue := { e.sprue with answer := none } }).sprue.answer.isSome = true ∧
    (let h := { e with clk := { e.clk with halt := true }, sprue := { e.sprue with answer := none } }
     (submit .commit ⟨.modbus, 0, 0, 0, []⟩ h).sprue.answer = none) :=
  ⟨⟨⟨quiet_of (by decide +kernel), serving_of (by decide +kernel), nofun, Or.inl rfl⟩, by decide +kernel⟩,
    Option.isNone_iff_eq_none.1 (by decide +kernel), by decide +kernel⟩

/-- A part in NMEA mode whose period of the battery sentence has passed. -/
def nmea : State := { served with tmr := { served.tmr with base := 10 ^ 10 }, field := { served.field with proto := 2 } }

theorem meets_NmeaSentencesLeave :
    let r := elapse 1 nmea
    servingB r = true ∧ r.field.proto = 2 ∧ r.field.nmeaBankB = false ∧ 1 ≤ prm r 0x0816 ∧
    r.field.rxAt + charTicks r (prm r 0x0814) ≤ now r ∧ r.field.fdeTo ≤ now r ∧
    r.field.nmeaAt + secTicks (prm r 0x0816) ≤ now r ∧
    now (elapse 1 { nmea with tmr := served.tmr }) < r.field.nmeaAt + secTicks (prm r 0x0816) ∧
    alarmOn r .prta = true ∧ r.field.nmeaAct = [] ∧ alarmOn r .eod = false ∧
    (let s := { nmea with field := { nmea.field with nmeaAct := [(.prta, 0), (.eod, 0)] } }
     (elapse 1 s).field.nmeaAct.find? (fun x => x.1 == AlarmCode.prta) = some (.prta, 0) ∧
       0 + secTicks (prm (elapse 1 s) 0x0817) ≤ now (elapse 1 s)) := by
  decide +kernel

theorem meets_NmeaSentencesLeave_battery :
    let q := { nmea with field := { nmea.field with nmeaAct := [(.prta, 10 ^ 10), (.prtb, 10 ^ 10)] } }
    (∀ c, alarmMark (elapse 1 q) c = none) ∧ (alarmMark (elapse 1 nmea) .prta).isSome = true ∧
    (let s := { nmea with field := { nmea.field with fdeTo := 10 ^ 11 } }
     now (elapse 1 s) < (elapse 1 s).field.fdeTo) := by
  refine ⟨fun c => ?_, by decide +kernel, by decide +kernel⟩
  cases c <;> decide +kernel

theorem sdi_serves : ServesSdi 1 served :=
  ⟨by decide +kernel, serving_of (by decide +kernel), by decide +kernel, by decide +kernel⟩

/-- A part whose response is on the line. -/
def answering : State := { served with field := { served.field with sdiOut := [0x30, 0x0D, 0x0A], sdiFrom := 0, sdiTo := 10 ^ 6 } }

theorem meets_SdiCommandsAnswer_deaf :
    live answering = true ∧ Serving (elapse 1 answering) ∧ prm (elapse 1 answering) 0x0831 = 1 ∧
    gp2 (sdiLapse (elapse 1 answering)) = true :=
  ⟨by decide +kernel, serving_of (by decide +kernel), by decide +kernel, by decide +kernel⟩

theorem meets_SdiCommandsAnswer :
    let e := SdiHeard 1 served
    AdmitsNow ⟨.sdi, sdiTag e, 0, 0, []⟩ e ∧ Passes .gaugeRead ⟨.sdi, sdiTag e, 0, 0, []⟩ e ∧
    AdmitsNow ⟨.sdi, sdiTag e, 0, 0x0830, [0x31]⟩ e ∧ Admits ⟨.sdi, 9, 0, 0, []⟩ e ∧ Passes .ping ⟨.sdi, 9, 0, 0, []⟩ e ∧
    (let m := SdiHeard 1 { served with sprue := { served.sprue with slots := Vector.replicate 8 (some (oper .calZero 1 true)) } }
     (submitNow .gaugeRead ⟨.sdi, sdiTag m, 0, 0, []⟩ m).sprue.answer.map Reply.status = some stNoSlot) ∧
    sdiAddr e = 0x30 ∧ sdiAddr e ≠ 0x31 ∧ e.field.sdiVals = none ∧ e.field.sdiOp = none ∧ e.field.sdiReply = none ∧
    (opRefusal e (opFor .set ⟨.sdi, sdiTag e, 0, 0x0830, [0x31]⟩ e)).isNone = true ∧
    (opRefusal e (opFor .set ⟨.sdi, sdiTag e, 0, 0x0830, [0x2F]⟩ e)).isSome = true ∧
    unhex [0x30] = none ∧ unhex (List.replicate 66 0x30) = some (List.replicate 33 0) ∧
    unhex ((packetBytes (BitVec.ofNat 8 (opCode .ping)) 9 0 0 []).flatMap fun x => hexText 2 x.toNat)
      = some (packetBytes (BitVec.ofNat 8 (opCode .ping)) 9 0 0 []) ∧
    quietB e = true :=
  ⟨⟨quiet_of (by decide +kernel), serving_of (by decide +kernel), nofun, Or.inr (by decide +kernel)⟩,
    Option.isNone_iff_eq_none.1 (by decide +kernel),
    ⟨quiet_of (by decide +kernel), serving_of (by decide +kernel), nofun, Or.inr (by decide +kernel)⟩,
    ⟨⟨quiet_of (by decide +kernel), serving_of (by decide +kernel), nofun, Or.inr (by decide +kernel)⟩, by decide +kernel⟩,
    Option.isNone_iff_eq_none.1 (by decide +kernel), by decide +kernel⟩

/-- With a reply of 36 bytes waiting for aXN, and one of 35. -/
theorem meets_SdiCommandsAnswer_next :
    (let e := SdiHeard 1 { served with field := { served.field with sdiReply := some (List.replicate 36 0) } }
     e.field.sdiReply = some (List.replicate 36 0)) ∧
    (let e := SdiHeard 1 { served with field := { served.field with
        sdiReply := some (List.replicate 35 0), sdiLast := some 2, sdiVals := some ([1], true) } }
     e.field.sdiReply = some (List.replicate 35 0) ∧ e.field.sdiLast = some 2 ∧ e.field.sdiVals = some ([1], true) ∧
       quietB e = true) := by
  decide +kernel

/-! ## Supply, start, clocks, debug -/

theorem meets_SupplyAndResets :
    live served = true ∧ (elapse 1 served).clk.fllLock = true ∧ (elapse 1 State.reset).clk.fllLock = false ∧
    ∃ a b c : State, (a.pwr.powered = false ∧ a.pwr.nrstLow = true) ∧ (b.pwr.powered = false ∧ b.pwr.nrstLow = false) ∧
      (c.pwr.powered = true ∧ c.pwr.nrstLow = true) :=
  ⟨by decide +kernel, by decide +kernel, by decide +kernel,
    { served with pwr := { served.pwr with powered := false, nrstLow := true } },
    { served with pwr := { served.pwr with powered := false } },
    { served with pwr := { served.pwr with nrstLow := true } }, by decide +kernel⟩

theorem meets_BrownOutWarning :
    let edge (s : State) : State := elapseTo (upCbm (now (elapse 100 s))) (elapse 100 s)
    let aon (s : State) : State := elapseTo (upAon (now (elapse 2000 s))) (elapse 2000 s)
    let held : State := { State.reset with
        pwr := { State.reset.pwr with bow := true }
        start := { State.reset.start with emberDone := true } }
    Quiet (edge served) ∧
    ((edge served).clk.fllLock = true ∧ (edge served).pwr.bow = false ∧ (edge served).tamp.logWait.length < 32 ∧
      (edge served).nv.jobs = [] ∧ cbmCount (edge served).pwr.bowOffAt + 2 ≤ cbmCount (now (edge served)) ∧
      (let r := elapseTo (upCbm (now (elapse 1 served))) (elapse 1 served)
       cbmCount (now r) < cbmCount r.pwr.bowOffAt + 2) ∧ (edge State.reset).clk.fllLock = false) ∧
    live held = true ∧ quietB (aon held) = true ∧ (aon held).pwr.bow = true ∧
    (aon held).pwr.bowAt / 250 + 8 ≤ now (aon held) / 250 ∧ (aon held).start.emberDone = true ∧
    (aon held).clk.lode = .off ∧ (aon held).clk.lockTry = 0 ∧ (aon held).start.stage = .ember ∧
    (aon held).pwr.mode = .run ∧ (aon held).start.romFails = 0 ∧
    (let r := elapseTo (upAon (now (elapse 1 held))) (elapse 1 held)
     now r / 250 < r.pwr.bowAt / 250 + 8) :=
  ⟨quiet_of (by decide +kernel), by decide +kernel⟩

theorem meets_EmberStartsLode :
    live State.reset = true ∧ State.reset.start.stage = .ember ∧ State.reset.clk.fllLock = false ∧
    State.reset.start.emberDone = false ∧ (elapseTo 12250 State.reset).pwr.bow = false ∧
    State.reset.pwr.mode = .run ∧ State.reset.start.romFails < 2 ∧ atLeast State.reset .pour = false ∧
    (∃ s : State, live s = true ∧ s.clk.lode = .locking ∧ s.clk.lockTry = 3 ∧ s.pwr.mode = .run ∧ s.start.romFails < 2) ∧
    (∃ s : State, live s = true ∧ s.clk.lode = .off ∧ s.clk.lockTry = 3 ∧ s.pwr.mode = .run ∧ s.start.romFails < 2) ∧
    (let s := { State.reset with clk := { State.reset.clk with lode := .locking, fllLock := true } }
     (elapse 1 s).clk.lode = .locking ∧ now (elapse 1 s) ≤ (elapse 1 s).clk.lodeStart + 3250 ∧
       (elapse 4000 s).clk.lodeStart + 3250 < now (elapse 4000 s)) :=
  ⟨by decide +kernel, by decide +kernel, by decide +kernel, by decide +kernel, by decide +kernel, by decide +kernel,
    by decide +kernel, by decide +kernel,
    ⟨{ State.reset with clk := { State.reset.clk with lode := .locking, lockTry := 3 } }, by decide +kernel⟩,
    ⟨{ State.reset with clk := { State.reset.clk with lockTry := 3 } }, by decide +kernel⟩, by decide +kernel⟩

/-- A part in a low-power mode since an instant. -/
def asleep (m : Mode) : State :=
  { served with
    clk := { served.clk with lode := .off }
    start := { served.start with stage := if m = .doze then .pour else .ember }
    pwr := { served.pwr with mode := m } }

/-- A part whose boot sequencer works. -/
def boots (released patched : Bool) (fails : Nat) : State :=
  { served with start := { State.reset.start with
      emberDone := true, released := released, patchDone := patched, romFails := fails } }

theorem meets_BootReachesMelt :
    booting (elapse 1 (boots false false 0)) = true ∧ booting (elapse 1 (boots false false 1)) = true ∧
    (elapse 1 (boots false false 1)).start.romFails = 1 ∧ (elapse 1 (boots false false 1)).pwr.mode = .run ∧
    booting (elapse 1 (boots true false 0)) = true ∧ patchAt (elapse 1 (boots true false 0)) 0 = 0xFFFFFFFF#32 ∧
    (let s := { boots true false 0 with nv := { served.nv with patch := [(0, 0x00010301)] } }
     booting (elapse 1 s) = true ∧ patchAt (elapse 1 s) 0 ≠ 0xFFFFFFFF#32) ∧
    booting (elapse 1 (boots true true 0)) = true ∧
    (let s := { boots true true 0 with
        cqa := { served.cqa with settle := 0 }
        cqb := { served.cqb with settle := 0 } }
     (elapse 1 s).cqa.settle = 0 ∧ (elapse 1 s).cqb.settle = 0) := by
  decide +kernel

theorem meets_PourIsReached :
    let s (reason seq : Nat) : State :=
      { served with start := { served.start with
          stage := .melt, reason := reason, retA := { served.start.retA with seq := seq }, imgWhole := true } }
    let crc : Crcs := ⟨true, false, true, true⟩
    live (s 4 1) = true ∧ quietB (elapse 1 (s 4 1)) = true ∧ (elapse 1 (s 4 1)).clk.lode = .on ∧
    (elapse 1 (s 4 1)).clk.halt = false ∧ (elapse 1 (s 4 1)).start.stage = .melt ∧
    (retNewest crc (elapse 1 (s 4 1))).isSome = true ∧ imageGood crc (elapse 1 (s 4 1)) = true ∧
    retNewest crc (elapse 1 (s 4 0)) = none ∧ (elapse 1 (s 3 0)).start.reason ≤ 3 ∧ quietB (elapse 1 (s 3 0)) = true := by
  decide +kernel

theorem meets_ClockEventsAct :
    (elapse 1 State.reset).clk.onLfrc = true ∧ (elapse 1 served).clk.onLfrc = false ∧
    quietB (elapseTo (now (elapse 1 served) + 250 * 3) (elapse 1 served)) = true ∧
    (let s := { served with clk := { served.clk with napDue := true, onLfrc := true } }
     live s = true ∧ s.clk.xtalQual = false ∧ quietB (elapseTo 81920000 s) = true) ∧
    CrystalBad 5 11 ∧ ¬CrystalBad 6 11 ∧ ¬CrystalBad 5 10 ∧ quietB (elapse 1 served) = true ∧ tmrRuns (elapse 1 served) = true ∧
    tmrRuns (elapse 1 (asleep .doze)) = false ∧ quietB (elapseTo (now (elapse 1 (asleep .doze)) + 250 * 3) (elapse 1 (asleep .doze))) = true ∧
    (let s (n : Nat) (lfrc : Bool) : State := { served with
        clk := { served.clk with onLfrc := lfrc, xtalQual := lfrc }, tmr := { served.tmr with wdB := n } }
     let w (s : State) : State := elapseTo (upAon (now (elapse 1 s))) (elapse 1 s)
     ∀ lfrc, (w (s 65536 lfrc)).clk.lode = .on ∧ (w (s 65536 lfrc)).clk.halt = false ∧ (w (s 65536 lfrc)).start.released = true ∧
       65536 ≤ wdCount .forgeB (w (s 65536 lfrc)) ∧ wdCount .forgeB (w (s 0 lfrc)) < 65536 ∧
       (w (s 65536 lfrc)).clk.onLfrc = lfrc ∧ (w (s 65536 lfrc)).clk.xtalQual = lfrc) := by
  unfold CrystalBad
  decide +kernel

theorem meets_DebugPortActs :
    (elapse 1 served).clk.lode = .on ∧ (elapse 1 served).pwr.vddioOk = true ∧ blockOf (0x400B0000#32).toNat = some 0xB ∧
    (elapse 1 served).sec.lock = .opened ∧ 2 ≤ (elapse 1 served).start.stage.code ∧
    (elapse 1 sealed_).sec.lock ≠ .opened ∧ (0x400F0010#32 ≠ 0x400F0000#32 ∧ 0x400F0010#32 ≠ 0x400F0014#32) ∧
    (0x400BFFFC#32).toNat % 4 = 0 ∧ (0x400BFFFC#32).toNat % 0x10000 + 4 * 1 ≤ 0x10000 ∧
    0x10000 < (0x400BFFFC#32).toNat % 0x10000 + 4 * debugWords (.read 2) ∧ blockOf (0x400C0000#32).toNat = some 0xC ∧
    (elapse 1 served).link.txEnd = none ∧ (∀ i : Fin 6, (elapse 1 served).sec.ctx[i].dmaEnd = none) ∧
    quietB (elapse 1 served) = true ∧ (elapse 1 served).clk.halt = false ∧
    (let s := { served with clk := { served.clk with halt := true } }
     (elapse 1 s).clk.halt = true ∧ quietB (elapse 1 s) = true) := by
  decide +kernel

/-! ## Power modes -/

theorem meets_SleepIsEntered :
    (let s := withPrm [(0x0730, [1])] { served with gauge := { served.gauge with coulAt := 10 ^ 12 } }
     mayDoze (elapseTo (upSlow (now (elapse 1 s))) (elapse 1 s)) = true) ∧
    mayDoze (let s := withPrm [(0x0730, [0])] served; elapseTo (upSlow (now (elapse 1 s))) (elapse 1 s)) = false ∧
    (let s := { served with clk := { served.clk with napDue := true, onLfrc := true, xtalQual := true } }
     let w := elapseTo (upSlow (now (elapse 1 s))) (elapse 1 s)
     mayNap w = true ∧ w.link.role ≠ .member ∧ w.link.role ≠ .pole ∧ w.pol.dpas = false) ∧
    (let s := withPrm [(0x0732, [1])] served
     prm s 0x0732 = 1 ∧ quietB s = true ∧ isMember s = false ∧ s.pwr.loadA = false ∧ s.pwr.loadB = false ∧
       s.pwr.hold = .none ∧ s.pwr.entry = none) := by
  decide +kernel

/-- A part that has decided an entry. -/
def decided (e : Entry) : State :=
  { served with
    clk := { served.clk with onLfrc := e.nap, xtalQual := e.nap }
    pwr := { served.pwr with entry := some e } }

theorem meets_SleepIsEntered_entry :
    let w (s : State) : State := elapseTo (upSlow (now (elapse 1 s))) (elapse 1 s)
    live (decided ⟨.doze, false⟩) = true ∧ entryReady (w (decided ⟨.doze, false⟩)) = true ∧
    entryReady (w (decided ⟨.watch, false⟩)) = true ∧ entryReady (w (decided ⟨.watchL, false⟩)) = true ∧
    entryReady (w (decided ⟨.watch, true⟩)) = true ∧ (w (decided ⟨.watch, true⟩)).clk.onLfrc = true ∧
    (w (decided ⟨.watch, true⟩)).clk.xtalQual = true ∧
    entryReady (w { decided ⟨.doze, false⟩ with pwr := { (decided ⟨.doze, false⟩).pwr with bow := true } }) = false := by
  decide +kernel

theorem meets_WakeSourcesWake :
    wakeReal .protection (elapse 1 (asleep .watch)) = true ∧ wakeReal .timer (elapse 1 (asleep .watch)) = false ∧
    (let s := withPrm [(0x0735, [1])] (asleep .watch)
     let w := elapseTo (upAon (s.pwr.sleptAt + secTicks (60 * prm s 0x0735))) s
     prm s 0x0735 ≠ 0 ∧ (w.pwr.mode = .watch ∨ w.pwr.mode = .watchL)) ∧
    (let s := { asleep .doze with gauge := { served.gauge with coulAt := 10 ^ 12 } }
     (elapse 1 s).pwr.mode = .doze ∧ nextEvent (elapse 1 s) = none) ∧
    (let s := { asleep .doze with tmr := { served.tmr with cmp := vset served.tmr.cmp 0 { Cmp.reset with mode := 1, target := 9000 } } }
     let w := elapseTo (max ((9000 - 4000) / 2000 * 2000) (upSlow (now (elapse 1 s)))) (elapse 1 s)
     nextEvent (elapse 1 s) = some 9000 ∧ now w = 4000 ∧ w.pwr.mode = .doze ∧ nextEvent w = some 9000 ∧
       (9000 - 4000) / 2000 * 2000 ≤ now w) ∧
    (let s (m : Mode) : State := withPrm [(0x0901, [1])] (asleep m)
     (elapse 1 (s .doze)).pwr.mode = .doze ∧ prm (elapseTo (upAon (now (elapse 1 (s .doze)) + 81920)) (elapse 1 (s .doze))) 0x0901 = 1 ∧
       (elapseTo (upAon (now (elapse 1 (s .doze)) + 81920)) (elapse 1 (s .doze))).pwr.mode = .doze ∧
       (let r := elapse 1 (s .watchL)
        let w := elapseTo ((now r + 63999) / 64000 * 64000 + 136000) r
        r.pwr.mode = .watchL ∧ (now r + 63999) / 64000 * 64000 + 136000 ≤ now r + 200000 ∧ w.pwr.mode = .watchL ∧
          prm w 0x0901 = 1)) ∧
    (elapse 1 served).pwr.mode = .run ∧ (elapse 1 served).pwr.entry = none := by
  decide +kernel

theorem meets_HoldsAndDeferredActionsEnd :
    (∃ s : State, live s = true ∧ s.pwr.hold = .until 5) ∧
    (let s (d : Deferred) : State := { served with pwr := { served.pwr with deferred := [d] } }
     let d (o : Origin) (sent : Option Nat) (left : Bool) : Deferred := ⟨.resetCore, 0, o, 0, sent, left⟩
     let r := elapse 1 (s (d .hostNative none true))
     (∀ i : Fin 8, r.sprue.slots[i] = none) ∧ r.sprue.held = [] ∧ r.sprue.early = [] ∧
       r.pwr.deferred = [d .hostNative none true] ∧ r.clk.lode = .on ∧ r.clk.onLfrc = false ∧ isMember r = false ∧
       (elapse 1 (s (d .fieldNative (some 1) false))).pwr.deferred = [d .fieldNative (some 1) false] ∧
       1 ≤ now (elapse 1 (s (d .fieldNative (some 1) false))) ∧
       (elapse 8192000 (s (d .hostNative none false))).pwr.deferred = [d .hostNative none false] ∧
       0 + 8192000 ≤ now (elapse 8192000 (s (d .hostNative none false))) ∧
       now (elapse 1 (s (d .hostNative none false))) < 0 + 8192000) :=
  ⟨⟨{ served with pwr := { served.pwr with hold := .until 5 } }, by decide +kernel⟩, by decide +kernel⟩

/-! ## Protection, integrators, SAR, timers -/

theorem meets_LadderScanJudgesCells :
    live served = true ∧ served.pwr.mode = .run ∧
    (∃ s : State, live s = true ∧ (elapseTo (s.afe.scanAt + 8000) s).afe.emberLim = true ∧ s.afe.ov[(0 : Fin 16)] = false) ∧
    ∃ s : State, live s = true ∧ (elapseTo (s.afe.scanAt + 8000) s).afe.emberLim = false ∧ s.afe.uvJudged = true :=
  ⟨by decide +kernel, by decide +kernel,
    ⟨{ served with afe := { served.afe with emberLim := true, ov := Vector.replicate 16 false } }, by decide +kernel⟩,
    ⟨{ served with afe := { served.afe with emberLim := false, uvJudged := true } }, by decide +kernel⟩⟩

theorem meets_OverCurrentTripsAndReleases :
    let r := elapse 1 served
    r.cqa.modRun = true ∧ beyond r .a .scDsg (-100000) = true ∧ beyond r .b .oc1Chg 100000 = true ∧
    beyond r .a .oc1Dsg 0 = false ∧
    (let r := elapse 1000 served
     let edges := 16 * now r / 250 - 16 * (ocOf .a r).countedTo .scDsg / 250
     edges = 64 ∧ filterLen r .scDsg ≤ 0 + min 32 edges ∧ (ocOf .a r).cnt .scDsg + min 31 edges < filterLen r .scDsg) ∧
    (ocOf .a { served with afe := { served.afe with ocA := { served.afe.ocA with holdEnd := some 9 } } }).holdEnd = some 9 := by
  decide +kernel

theorem meets_IntegratorOutputs :
    let s (w k : Nat) (m : Mode) (cal : Bool) : State := { served with
      cqa := { served.cqa with win := w, actWin := 2048, order := 1, actOrder := 2, settle := k }
      pwr := { served.pwr with mode := m }
      sar := { served.sar with calRun := cal, calPair := 0x30 } }
    let w (s : State) : State := addBits ⟨0, 0, 0, 0⟩ (elapseTo ((250 * ((cqOf .a s).edge + (cqOf .a s).actWin) + 15) / 16) s)
    let same (q : Cq) : Prop := q.actWin = max 32 (min 1048576 q.win) ∧ q.actOrder = q.order + 1
    (cqOf .a (s 4096 0 .run false)).modRun = true ∧ ¬same (cqOf .a (w (s 4096 0 .run false))) ∧
    same (cqOf .a (w (s 2048 2 .run false))) ∧ 2 ≤ (cqOf .a (w (s 2048 2 .run false))).settle ∧
    (cqOf .a (w (s 2048 1 .run false))).settle ≤ 1 ∧ (w (s 2048 1 .run false)).pwr.mode = .run ∧
    (w (s 2048 1 .doze false)).pwr.mode = .doze ∧
    (let v := w (s 2048 1 .doze false)
     prm v 0x0734 * 8388608 * shuntOf .a v ≤ (-8388608 : Int).natAbs * 100000000) ∧
    (w (s 2048 1 .run true)).sar.calRun = true ∧ (w (s 2048 1 .run true)).sar.calCnt < 16 := by
  decide +kernel

/-- A part whose reference has settled. -/
def referenced (routPos : Option SeqPos) (tbl : List SeqEntry) : State :=
  { served with sar := { served.sar with
    refRdy := true, refSel := 0, routDue := some 0, routPos := routPos, routFw := [], routPort := tbl } }

def entry1 : SeqEntry := ⟨1, 1, 64, 0, 28, 0xFF, 1⟩

/-- An interleaved pair, whose second conversion is Pollux's. -/
def intlv1 : SeqEntry := { entry1 with mode := 0x10, repeat_ := 2 }

theorem meets_SequencesRun :
    (let r := elapse 1 (referenced none [entry1])
     r.sar.routDue = some 0 ∧ r.sar.routPos = none ∧ r.sar.refRdy = true ∧ quietB r = true ∧ r.sar.burstOn = false ∧
       (seqStart { r with par := r.par.applyMoment .pass } (r.sar.routFw ++ r.sar.routNext.getD r.sar.routPort)).isSome = true ∧
       r.sar.refSel = prm { r with par := r.par.applyMoment .pass } 0x0440 ∧
       1 ≤ prm { r with par := r.par.applyMoment .pass } 0x0441) ∧
    (let r := elapse 1 { referenced none [] with sar := { (referenced none []).sar with routDue := some 50 } }
     r.sar.routDue = some 50 ∧ now r < 50 ∧ quietB r = true) ∧
    (let s := { referenced none [] with
        clk := { served.clk with lodeStart := 0 }
        sar := { (referenced none []).sar with refSel := 0 } }
     (elapse 1475 s).clk.lodeStart + 1475 ≤ now (elapse 1475 s) ∧ (elapse 1 s).sar.refSel = 0 ∧
       now (elapse 1 s) < (elapse 1 s).clk.lodeStart + 1475) ∧
    (let s := { referenced none [] with sar := { (referenced none []).sar with
        burst := [intlv1], burstOn := true, burstPos := some ⟨0, 0, 1⟩ } }
     (elapse 1 s).sar.burstOn = true ∧ polluxSlot (elapse 1 s).sar.burst (elapse 1 s).sar.burstPos = true ∧
       quietB (elapse 1 s) = true) ∧
    (let r := elapse 0 (withPrm [(0x0C04, [1])] (referenced (some ⟨0, 0, 0⟩) [entry1]))
     let w := elapseTo (sarStamp r (slotStart r (routTable r) ⟨0, 0, 0⟩ + entry1.sample + 16)) r
     r.sar.routPos = some ⟨0, 0, 0⟩ ∧ (routTable r)[0]? = some entry1 ∧ entry1.chan + 0 ≠ 0x3B ∧ entry1.mode = 0 ∧
       quietB r = true ∧ r.sar.refRdy = true ∧ r.sar.flares = [] ∧
       (∀ i : Fin 4, cdnSrc w.tmr.cdn[i].actSrc ≠ 3) ∧ (∀ i : Fin 32, r.sar.acc[i].count < 16777216) ∧ prm r 0x0C04 = 1 ∧
       sampleOf r 1 0 100 = .good (calSample (calOf r 0) 100) ∧ (calSample (calOf r 0) 4094).natAbs ≤ 524287) := by
  decide +kernel

theorem meets_SequencesRun_burst :
    (let e2 := { entry1 with repeat_ := 2 }
     let s := withPrm [(0x0520, [0])] { referenced none [] with sar := { (referenced none []).sar with
        burst := [e2], burstOn := true, burstLeft := 1, burstPos := some ⟨0, 0, 1⟩ } }
     let r := elapse 1 s
     entry1.span = 1 ∧ e2.repeat_ = 1 + 1 ∧ r.sar.refRdy = true ∧ r.sar.burst = [e2] ∧ r.sar.burstPos = some ⟨0, 0, 1⟩ ∧
       isIntlv e2 = false ∧ seqStart r r.sar.burst ≠ some ⟨0, 0, 1⟩ ∧ r.sar.burstOn = true ∧ r.sar.burstLeft = 1 ∧
       polluxSlot r.sar.burst (some ⟨0, 0, 1⟩) = false ∧ r.sar.routPos = none ∧ r.sar.flares = [] ∧ quietB r = true ∧
       r.glint.on = false ∧ prm { r with par := r.par.applyMoment .burst } 0x0520 = 0) ∧
    (elapse 1 (referenced none [])).sar.burstPos = none ∧
    (let c := calibrating 5 0
     let s := { c with sar := { c.sar with refRdy := true } }
     let r := elapse 0 s
     runsB r (oper .calZero 1 true) = true ∧ r.sar.refRdy = true ∧ r.sar.calCnt < r.sar.calN ∧ r.sar.calPair = 1 ∧
       r.sar.flares = [] ∧ r.sar.routPos = none ∧ r.sar.burstOn = false) ∧
    (let o := oper .flare 1 false
     let s := { referenced none [] with
        sprue := (running o).sprue
        sar := { (referenced none []).sar with flares := [⟨1, 4, 0, 0xFF, 0xFF, 4, 2⟩] } }
     runsB (elapse 0 s) o = true ∧ (elapse 0 s).sar.flares = [⟨1, 4, 0, 0xFF, 0xFF, 4, 2⟩] ∧ o.id = 4 ∧
       (elapse 0 s).host.queue.length < 4) := by
  decide +kernel

theorem meets_TimersAndRtcRun :
    let c : Cmp := { Cmp.reset with mode := 0x03, target := 5 }
    let d : Cdn := { Cdn.reset with v := 3, buf := 3, n := 2, actN := 2 }
    let s := withPrm [(0x0C01, [1])] { served with tmr := { served.tmr with
        cmp := vset served.tmr.cmp 6 c, cdn := vset served.tmr.cdn 3 d, rtcSlew := 10 } }
    live s = true ∧ s.link.txEnd = none ∧ canTx s = false ∧ (∀ i : Fin 6, s.sec.ctx[i].dmaEnd = none) ∧
    1 ≤ s.tmr.cdn[(3 : Fin 4)].d ∧ tmrRuns (elapse 1 s) = true ∧ (elapse 1 s).pwr.mode = .run ∧
    (let z (t : Option Nat) : State := { asleep .doze with tmr := { served.tmr with tin0At := t } }
     (elapse 1 (z none)).pwr.vddioOk = true ∧ tmrRuns (elapse 1 (z none)) = false ∧ (elapse 1 (z none)).tmr.tin0At = none ∧
       (elapse 1 (z (some 250))).tmr.tin0At = some (now (elapse 1 (z (some 250))))) ∧
    cmpEn s.tmr.cmp[(6 : Fin 8)].mode = true ∧ s.tmr.base < s.tmr.cmp[(6 : Fin 8)].target ∧
    cmpReload s.tmr.cmp[(6 : Fin 8)].mode = true ∧
    cdnSrc s.tmr.cdn[(3 : Fin 4)].actSrc = 0 ∧ s.tmr.cdn[(3 : Fin 4)].dirty = false ∧ 1 ≤ s.tmr.cdn[(3 : Fin 4)].v ∧
    s.tmr.cdn[(3 : Fin 4)].p < s.tmr.cdn[(3 : Fin 4)].d ∧ s.pol.dpas = false ∧
    tinEnabled (elapse 1 s) 0 true = true ∧ tinEnabled (elapse 1 s) 0 false = false ∧ (elapse 1 s).pwr.vddioOk = true ∧
    s.tmr.rtcSub < 32768 ∧ s.tmr.rtcSec < 2 ^ 32 ∧ served.tmr.rtcSlew = 0 ∧ s.tmr.rtcSlew ≠ 0 ∧
    s.tmr.slewAt ≤ s.tmr.base ∧ s.tmr.base / 250 < s.tmr.slewAt / 250 + slewPeriod s.tmr.rtcSlew := by
  decide +kernel

/-! ## Gauge, Glint, Almanac -/

/-- Firmware channel `n` has fired. -/
def fired (n : Nat) (s : State) : State :=
  { s with tmr := { s.tmr with cmp := vset s.tmr.cmp n { Cmp.reset with fired := true } } }

theorem meets_ModelSteps :
    stepDue (elapse 1 served) = false ∧ stepDue (elapse 1 (fired 4 served)) = true ∧ quietB (elapse 1 (fired 4 served)) = true ∧
    (elapse 1 (fired 4 served)).capAt ≤ now (elapse 1 (fired 4 served)) ∧
    (elapse 1 (fired 4 casting)).start.stage = .cast ∧ stepDue (elapse 1 (fired 4 casting)) = true ∧
    (let w := elapseTo (served.gauge.coulAt + prm served 0x050C * 8192000) served
     served.pwr.mode = .run ∧ quietB w = true ∧ w.pwr.bow = false ∧ w.nv.queue.length < 8) ∧
    State.reset.start.stage.code < 2 := by
  decide +kernel

def gopen (ended : Option Nat) : GlintOpen :=
  ⟨0, 5, false, 0, ⟨0, 0, 0, 0, 0⟩, ⟨0, 0, 0, 0, 0⟩, ⟨0, 0, 0, 0, 0⟩, ⟨0, 0, 0, 0, 0⟩, [], [], 0, ended, none, false⟩

theorem meets_GlintSlicesAndEvents :
    (∃ s : State, live s = true ∧ s.pwr.mode = .run ∧ s.glint.on = true ∧ s.clk.lode = .on ∧ s.clk.halt = false ∧
      s.glint.sliceAt = some 400) ∧ served.glint.on = false ∧
    (let s (e : Option Nat) : State := { served with glint := { served.glint with openA := some (gopen e) } }
     tmrRuns (elapse 1 (s none)) = true ∧ openOf (elapse 1 (s none)) .a = some (gopen none) ∧
       openOf (elapse 1 (s (some 9))) .a = some (gopen (some 9))) :=
  ⟨⟨{ served with glint := { served.glint with on := true, sliceAt := some 400 } }, by decide +kernel⟩, by decide +kernel,
    by decide +kernel⟩

/-- A part in a depassivation pulse. -/
def pulsing (zero : Bool) (e : Rat) : State :=
  { casting with
    pol := { casting.pol with dpas := true, dpasE := e }
    tmr := { casting.tmr with cdn := vset casting.tmr.cdn 3 { Cdn.reset with zero := zero } } }

theorem meets_EvaluationsAndPulses :
    evalDue (elapse 1 casting) = false ∧ evalDue (elapse 1 (fired 5 casting)) = true ∧
    quietB (elapse 1 (fired 5 casting)) = true ∧ (pulsing true 0).pol.dpas = true ∧ casting.pol.dpas = false ∧
    (let w := elapseTo ((pulsing true 0).pol.dpasCap + 819200) (pulsing true 0)
     quietB w = true ∧ w.tmr.cdn[(3 : Fin 4)].zero = true) ∧
    (let w := elapseTo ((pulsing false 0).pol.dpasCap + 819200) (pulsing false 0)
     w.tmr.cdn[(3 : Fin 4)].zero = false) := by
  decide +kernel

/-- A part whose RTC shows an instant. -/
def dated (sec : Nat) : State :=
  { casting with tmr := { casting.tmr with rtcValid := true, rtcSec := sec } }

theorem meets_AlmanacEventsAct :
    halfHourDue (elapse 1 (dated 10)) = false ∧ halfHourDue (elapse 1 (dated 1800)) = true ∧
    (elapse 1 (dated 1800)).alm.seeds = [] ∧ dayDue (elapse 1 (dated 10)) = false ∧ dayDue (elapse 1 (dated 86400)) = true ∧
    (let r := elapse 1 { dated 86400 with alm := { casting.alm with binIdx := 48 } }
     dayDue r = true ∧ halfHourDue r = false ∧ r.tmr.rtcSec / 86400 = r.alm.dayIdx + 1 ∧ quietB r = true ∧
       r.pwr.bow = false ∧ r.nv.queue.length < 8) ∧
    casting.alm.dutyStale = false ∧ prm casting 0x060D ≠ 0 ∧
    ({ casting with alm := { casting.alm with seaStale := false } } : State).alm.seaStale = false := by
  decide +kernel

/-! ## Locks, tamper, log, store -/

theorem meets_LocksTimeOut :
    (let s := { served with sec := { served.sec with lock := .unsealed } }
     let w := elapseTo (s.sec.lockAt + 60 * prm s 0x0A02 * 8192000) s
     live s = true ∧ 2 ≤ s.start.stage.code ∧ quietB w = true ∧ w.pwr.bow = false ∧ w.nv.queue.length < 8 ∧
       w.tamp.logWait.length < 32) ∧
    served.sec.lock ≠ .unsealed ∧ (plOf .field served).chal = none ∧ (plOf .host served).until_ = none ∧
    (plOf .host served).roundAt = none ∧
    (let s := setPl .field { plOf .field served with chal := some ([], 1, 0), until_ := some 50 } served
     (plOf .field s).chal = some ([], 1, 0) ∧ (plOf .field s).until_ = some 50 ∧ (elapseTo 50 s).pwr.bow = false ∧
       (elapseTo 50 s).nv.queue.length < 8) := by
  decide +kernel

/-- A verification round of the host port with one UNLOCK of a response. -/
def unlocking (b : List Byte) : State :=
  let s := keyed (running { oper .unlock 2 false with payload := b })
  { s with sec := { s.sec with
    lock := .sealed, host := { s.sec.host with chal := some ([1], 2, 0), round := [4], roundAt := some 10 } } }

def good : List Byte := unlockResponse (elapseTo 829 (unlocking [])) .host 2 3 [1]

theorem meets_LocksTimeOut_round :
    (let o := { oper .unlock 2 false with payload := good }
     let w := elapseTo (10 + 819) (unlocking good)
     runsB w o = true ∧ unlockValid w .host o = true ∧ (unlocking good).sec.host.roundAt = some 10 ∧
       (unlocking good).sec.host.round = [o.id] ∧ w.host.queue.length < 4 ∧ w.pwr.bow = false) ∧
    (let o := { oper .unlock 2 false with payload := [0] }
     let w := elapseTo (10 + 819) (unlocking [0])
     runsB w o = true ∧ unlockValid w .host o = false ∧ w.sec.host.consumed ≠ some o.payload ∧ w.sec.host.fails < 4) := by
  decide +kernel

/-- A part with an upper limit of temperature of its own. -/
def sensing : State := withPrm [(0x0B18, [0xC6, 0x0E])] served

theorem meets_TamperEventsLatch :
    let w (x : Sensed) (s : State) : State := elapseTo (recogniseAt x.src (elapse 8192000 s)) (elapse 8192000 s)
    (∀ x ∈ [Sensed.lid 2101 3000 4, .mesh 3, .ingress 2001 4, .glitch 301 0 0, .glitch 0 749 21, .glitch 0 951 21, .temp 2181 2,
        .temp 3783 2], tamperReal x (w x sensing) = true ∧ quietB (w x sensing) = true) ∧
    tamperReal .clock (w .clock { served with clk := { served.clk with xtalFail := true } }) = true ∧
    (∀ x ∈ [Sensed.lid 2100 3000 4, .lid 2101 3000 3, .mesh 2, .ingress 2000 4, .ingress 2001 3, .glitch 300 750 21,
        .glitch 300 951 20, .clock, .temp 0 1, .temp 2182 2, .temp 3782 2], tamperReal x (w x sensing) = false) ∧
    (let s := { served with tamp := { served.tamp with lidState := .closed } }
     let r := w (.lid 2100 3000 4) s
     prm r 0x0B10 ≤ 4 ∧ prm r 0x0B10 ≤ samples .lid r ∧ lidOf 2100 3000 ≠ r.tamp.lidState ∧
       ¬(lidOf 2100 3000 ≠ (w (.lid 2100 3000 4) served).tamp.lidState)) ∧
    (∀ x ∈ [Sensed.lid 899 3000 4, .mesh 3, .temp 2232 2, .temp 3732 2], tamperClear x (w x sensing) = true) ∧
    (∀ x ∈ [Sensed.lid 900 3000 4, .mesh 2, .ingress 0 9, .temp 2231 2], tamperClear x (w x sensing) = false) ∧
    lidOf 900 3000 = .indeterminate ∧ lidOf 899 3000 = .closed ∧ lidOf 2100 3000 = .indeterminate ∧ lidOf 2101 3000 = .opened ∧
    (responseOf (elapse 1 (withPrm [(0x0B02, [3])] sealed_)) .mesh).code = 3 ∧
    2 ≤ (elapse 1 sealed_).start.stage.code ∧ (responseOf (elapse 1 (withPrm [(0x0B02, [0])] served)) .mesh).code < 2 ∧
    (let s := { served with tamp := { served.tamp with lidState := .indeterminate, lidSince := some 0 } }
     s.tamp.lid.inTamper = false ∧ quietB (elapseTo (upSlow (0 + prm s 0x0B11 * 8192)) s) = true) ∧
    ({ served with tamp := { served.tamp with lidState := .closed } } : State).tamp.lidState ≠ .indeterminate := by
  decide +kernel

def ent : LogEnt := ⟨0, 0, 0, 0, 0x41, 15, 0, 2, []⟩

theorem meets_EraseAndLogCommit :
    (let s := { served with tamp := { served.tamp with q2Erase := true } }
     (elapse 1 s).tamp.q2Erase = true ∧ (elapse 1 s).clk.lode = .on ∧ quietB (elapse 1 s) = true) ∧
    (elapse 1 served).tamp.q2Erase = false ∧ (elapse 1 served).tamp.logWait = [] ∧
    (let s := { served with tamp := { served.tamp with
        logWait := [ent], log := List.replicate 128 ent, evid := List.replicate 16 ent } }
     (elapse 1 s).tamp.logWait = [ent] ∧ (elapse 1 s).tamp.log.length = 128 ∧ tamperTyp ent.typ = true) ∧
    (elapse 1 State.reset).clk.lode ≠ .on := by
  decide +kernel

def rec1 : Rec := ⟨0x10, 0x0712, 1, .bytes [20, 0]⟩
def txn1 : Txn := ⟨none, 0, .records, [rec1], false, false⟩
def keyTxn : Txn := ⟨none, 0, .key 3 1 [] 1 true, [], false, false⟩

/-- A part whose store is at work. -/
def storing (jobs : List Job) (queue : List Txn) : State := { served with nv := { served.nv with jobs := jobs, queue := queue } }

theorem meets_StoreWritesWords :
    storeIdle (elapse 1 (storing [.blank 1 0] [])) = false ∧ wordRuns (elapse 1 State.reset) = false ∧
    storeIdle (elapse 1 served) = true ∧ (elapse 1 served).nv.queue = [] ∧ (elapse 1 served).nv.held = [] ∧
    (∀ x ∈ [txn1, keyTxn], queueHead (elapse 1 (storing [] [x])) (elapse 1 (storing [] [x])).nv.queue = some x ∧
      storeRefuses x (elapse 1 (storing [] [x])) = false) ∧
    storeIdle (elapse 1 (storing [] [txn1])) = true ∧ reclaimDue txn1.recs (elapse 1 (storing [] [txn1])) = false ∧
    (let s := { storing [] [txn1] with nv := { (storing [] [txn1]).nv with
        sectors := Vector.replicate 64 ⟨[⟨1, 0, true, rec1, true, true⟩], 128, false⟩ } }
     reclaimDue txn1.recs (elapse 1 s) = true ∧ oldestSector (elapse 1 s) ≠ none ∧ storeRefuses txn1 (elapse 1 s) = false) ∧
    wordRuns (elapse 1 (storing [.journal txn1 5 0 0 none] [])) = true ∧ 0 + 1 < rec1.words ∧
    (elapse 1 (storing [.journal txn1 5 0 4 none] [])).nv.jobs = [.journal txn1 5 0 (1 + 3) none] ∧
    (elapse 1 (storing [.keyCopy keyTxn 0 23] [])).nv.jobs = [.keyCopy keyTxn 0 23] ∧
    (elapse 1 (storing [.blank 63 127] [])).nv.jobs = [.blank 63 127] ∧
    (elapse 1 (storing [.header true 2 none none] [])).nv.jobs = [.header true 2 none none] ∧
    quietB (elapse 1 (storing [.journal txn1 5 0 0 none] [])) = true := by
  decide +kernel

/-! ## The link -/

/-- A part in Cast with the link enabled, a loaded key and a reservation, in a role. -/
def linked (role : Role) : State :=
  withPrm [(0x0901, [1]), (0x0907, [1])]
    { keyed casting with link := { casting.link with role := role, ctrRes := 5000, refAt := some 0, roster := List.replicate 15 0 } }

/-- A beacon of priority 0 with its flags clear and SRC 5 unlisted. -/
def beacon0 : List Byte := List.replicate 111 0

theorem meets_FramesAreSent :
    (let s (h : Bool) (t : Nat) : State :=
      { linked .listening with
        link := { (linked .listening).link with heard := h }
        tmr := { casting.tmr with base := t } }
     (elapse 1 (s true 5)).link.heard = true ∧ now (elapse 1 (s true 5)) < 0 + 16384000 ∧
       0 + 16384000 ≤ now (elapse 1 (s true 16384000)) ∧ canTx (elapse 1 (s false 16384000)) = true ∧
       0 + 16384000 + prm (elapse 1 (s false 16384000)) 0x0101 % 8 * 1024000 ≤ now (elapse 1 (s false 16384000)) ∧
       (let r := elapse 1 (s false 16384000)
        Fits ⟨[]⟩ (founded r) (now r) (now r + 81920) 1 111 (now r) ∧ canTx (elapseTo (now r) (founded r)) = true ∧
          now r + 81920 < now r + usTicks (8 * busySyms ⟨List.replicate 2000 4000⟩ (founded r) + 48))) ∧
    canTx (elapse 1 casting) = false ∧
    (let s (at_ : Nat) (q : List TxFrame) : State :=
      { linked .pole with link := { (linked .pole).link with beaconAt := at_, txq := q } }
     let r := elapse 1 (s 100 [])
     let len := if pvOf r = 1 then 89 else 111
     canTx r = true ∧ r.link.role = .pole ∧ Fits ⟨[]⟩ r 100 (100 + 81920) 1 len 100 ∧ canTx (elapseTo 100 r) = true ∧
       r.link.leaving = false ∧ r.link.handover = false ∧ r.link.demote = false ∧
       Fits ⟨[4000]⟩ r 100 (100 + 81920) 1 len (100 + usTicks 56) ∧
       (elapse 1 (s 0 [])).link.beaconAt = 0 ∧ ¬now (elapse 1 (s 0 [])) ≤ 0 ∧
       (let f : TxFrame := ⟨1, beacon0, 0, some 7, 0, none, 50, 0⟩
        let z := elapse 1 (s 8192000 [f])
        canTx z = true ∧ z.link.txq = [f] ∧ Fits ⟨[]⟩ z 50 81920 1 111 50 ∧
          canTx (elapseTo 50 { z with link := { z.link with txq := [] } }) = true)) ∧
    reportDue (elapse 1 casting) = none ∧
    (let s := { linked .pole with tmr := { casting.tmr with base := 85 * 8192 } }
     let e := (11 + 5 * 15) * 8192
     reportDue (elapse 1 s) = some (0, 15) ∧ Fits ⟨[]⟩ (elapse 1 s) (0 + e) (0 + (15 + 5 * 15) * 8192) 2 20 e ∧
       canTx (elapseTo e { elapse 1 s with link := { (elapse 1 s).link with sentBn := some (elapse 1 s).link.bn } }) = true ∧
       reportDue (elapse 8193 s) = some (0, 15) ∧ ¬now (elapse 8193 s) ≤ 0 + e) := by
  unfold Fits
  decide +kernel

theorem meets_FramesAreSent_csma :
    (let f : TxFrame := ⟨3, [], 5, none, 0, none, 0, 0⟩
     let s := { linked .member with link := { (linked .member).link with txq := [f] } }
     let r := elapse 1 s
     let q := csmaRenew r
     canTx r = true ∧ nextFrame q q.link.txq = some (0, f) ∧ canTx (elapseTo (csmaDue q f) q) = true ∧
       csmaDue q f = 90 * 8192 + usTicks 288 ∧ busySyms ⟨[]⟩ r = 0 ∧ busySyms ⟨[4000]⟩ r ≠ 0) ∧
    (elapse 1 { linked .member with link := { (linked .member).link with refAt := none } }).link.refAt = none ∧
    canTx (elapse 1 casting) = false ∧ (elapse 1 casting).link.sending = none ∧
    (let f (typ tries : Nat) : TxFrame := ⟨typ, [], 5, some 1, tries, none, 0, 0⟩
     let s (typ tries : Nat) : State := { casting with link := { casting.link with
        sending := some (f typ tries), txAt := 0, txEnd := some (frameTicks typ 0) } }
     (∀ x ∈ [(2, 0), (3, 6), (3, 5)],
       (elapse 1 (s x.1 x.2)).link.sending = some (f x.1 x.2) ∧
       (burstOn (f x.1 x.2) (linkSince (elapse 1 (s x.1 x.2)) 0)).map Prod.fst = some 0) ∧
     quietB (elapse 1 (s 2 0)) = true ∧
     (let r := elapse (secondAt (f 2 0) * 4 / 25 + 2) (s 2 0)
      (burstOn (f 2 0) (linkSince r 0)).map Prod.fst = some (secondAt (f 2 0)) ∧ r.link.sending = some (f 2 0) ∧
        (elapseTo (symbolEnd r (secondAt (f 2 0))) r).link.sending = some (f 2 0)) ∧
     burstOn (f 2 0) (secondAt (f 2 0) - 1) = none ∧
     100 ^ 20 * 10 ^ prm (elapse 1 (s 2 0)) 0x0905 < 1000 ^ 20 ∧ ¬100 ^ 20 * 10 ^ prm (elapse 1 (s 2 0)) 0x0905 < 100 ^ 20) := by
  decide +kernel

/-- A part with a serial number of its own, fifth in the roster. -/
def heir : State :=
  { withPrm [(0x0901, [1]), (0x0907, [1]), (0x0101, [9, 0, 0, 0])] (linked .member) with
    link := { (linked .member).link with poleLost := true, roster := [0, 0, 0, 0, 9, 0, 0, 0, 0, 0, 0, 0, 0, 0, 0] } }

theorem meets_SuccessionAndAggregate :
    (let s := { linked .pole with tmr := { casting.tmr with base := 737280 } }
     (elapse 1 s).link.formed = none ∧ (elapse 1 s).link.refAt = some 0 ∧ 0 + 737280 ≤ now (elapse 1 s) ∧
       now (elapse 1 (linked .pole)) < 0 + 737280) ∧
    (elapse 1 casting).link.role ≠ .pole ∧ canRx (linked .member) = true ∧ (linked .member).link.refAt = some 0 ∧
    (let s (t : Nat) := { heir with tmr := { casting.tmr with base := t } }
     let r := elapse 1 (s (8 * 8192000 - 1))
     let d := 0 + (4 + 4) * 8192000
     let u := becomePole d r
     r.link.roster.findIdx? (fun x => x == prm r 0x0101) = some 4 ∧ canTx r = true ∧ prm r 0x0101 ≠ 0 ∧
       Fits ⟨[]⟩ u d (d + 81920) 1 (if pvOf u = 1 then 89 else 111) d ∧ canTx (elapseTo d u) = true ∧
       ¬now (elapse 1 (s (8 * 8192000))) ≤ d) ∧
    (elapse 1 casting).link.poleLost = false := by
  unfold Fits
  decide +kernel

/-- A frame of SRC 5 and CTR 1 with the AUTH bytes that the part expects. -/
def frame (s : State) (typ : Nat) (p : List Byte) (b : Bursts) : RxFrame := ⟨b, 5, 1, p, frameAuth (elapse 1 s) typ 5 1 p⟩

/-- Whether a frame passes every check before acceptance. -/
def acceptB (s : State) (typ : Nat) (p : List Byte) : Bool :=
  let r := elapse 1 s
  canRx r && lenOk typ p.length && slotReady r r.link.keySlot
    && freshness r 5 1 (leBytes 1 typ ++ p) == .fresh

def seen (ctr : Nat) (p : List Byte) : State :=
  { linked .member with link := { (linked .member).link with rxTable := [(5, ctr, p)] } }

theorem meets_FramesAreChecked :
    canRx (elapse 1 State.reset) = false ∧ canRx (elapse 1 (linked .member)) = true ∧ lenOk 5 2 = false ∧ lenOk 9 12 = true ∧
    (let f := frame (linked .member) 9 (List.replicate 12 0) .both
     slotReady (elapse 1 (linked .member)) (elapse 1 (linked .member)).link.keySlot = true ∧
       frameAuth (elapse 1 (linked .member)) 9 f.src.toNat f.ctr.toNat f.payload = f.auth) ∧
    freshness (elapse 1 (linked .member)) 5 1 [5, 0] = .fresh ∧ freshness (elapse 1 (seen 1 [5, 0])) 5 1 [5, 0] = .dup ∧
    freshness (elapse 1 (seen 2 [])) 5 1 [5, 0] = .replay := by
  decide +kernel

/-- A beacon that lists serial 9. -/
def beacon9 : List Byte := (List.range 111).map fun i => if i = 8 then 9 else 0

theorem meets_AcceptedFramesAct_beacon :
    (∀ role ∈ [Role.silent, .joining, .pole, .listening], acceptB (linked role) 1 beacon0 = true) ∧
    beaconOk (frame (linked .silent) 1 beacon0 .both) (elapse 1 (linked .silent)) = false ∧
    beaconOk (frame (linked .joining) 1 beacon0 .both) (elapse 1 (linked .joining)) = true ∧
    beaconOk (frame (linked .pole) 1 beacon0 .both) (elapse 1 (linked .pole)) = true ∧
    bcnFlag beacon0 1 = false ∧ bcnFlag beacon0 2 = false ∧ quietB (elapse 1 (linked .joining)) = true ∧
    rankWord (byteAt beacon0 1) 5 ≠ ownRank (elapse 1 (linked .pole)) := by
  decide +kernel

theorem meets_AcceptedFramesAct :
    (let s := { linked .pole with
        tmr := { casting.tmr with base := 12 * 8192, rtcValid := true }
        link := { (linked .pole).link with roster := 5 :: List.replicate 14 0, lastBns := [0] } }
     let p := List.replicate 20 0
     acceptB s 2 p = true ∧ reportOk (frame s 2 p .both) (elapse 1 s) = true ∧
       acceptB s 5 [0] = true ∧ follows (elapse 1 s) = true ∧ fromListed (frame s 5 [0] .both) (elapse 1 s) = true ∧
       acceptB s 6 [1, 0, 0, 0, 0, 0, 0, 0] = true ∧ cfgOk (frame s 6 [1, 0, 0, 0, 0, 0, 0, 0] .both) (elapse 1 s) = true ∧
       quietB (elapse 1 s) = true ∧ (elapse 1 s).pwr.bow = false ∧ (elapse 1 s).nv.queue.length < 8 ∧
       cfgOk (frame s 6 [0, 0, 0, 0, 0, 0, 0, 0] .both) (elapse 1 s) = false ∧ acceptB s 7 [0, 0, 0, 0, 0, 0] = true ∧
       acceptB s 8 (List.replicate 16 0) = true ∧ sprueOk (frame s 8 (List.replicate 16 0) .both) (elapse 1 s) = true ∧
       sprueOk (frame s 8 (List.replicate 16 1) .both) (elapse 1 s) = false) ∧
    (let p := List.replicate 20 0
     acceptB (linked .member) 2 p = true ∧ reportOk (frame (linked .member) 2 p .both) (elapse 1 (linked .member)) = false ∧
       fromListed (frame (linked .member) 5 [0] .both) (elapse 1 (linked .member)) = false) ∧
    (let p : List Byte := 0xFF :: 1 :: 2 :: 1 :: List.replicate 20 0
     let s := { linked .pole with tmr := { casting.tmr with rtcValid := true } }
     acceptB s 3 p = true ∧ others (elapse 1 s) = [] ∧ ownRank (elapse 1 s) ≤ rankWord (byteAt p 0) 5 ∧
       byteAt p 1 ≤ 1 ∧ byteAt p 2 = 2 ∧ 1 ≤ byteAt p 3 ∧ acceptB (linked .silent) 3 p = true ∧
       prm (elapse 1 s) 0x0101 ≠ 5 ∧ acceptB (linked .member) 3 p = true) ∧
    (let s := { linked .joining with link := { (linked .joining).link with poleSer := 5 } }
     acceptB s 4 [0, 0, 0, 0, 3] = true ∧ noticeOk (frame s 4 [0, 0, 0, 0, 3] .both) (elapse 1 s) = true ∧
       noticeOk (frame s 4 [1, 0, 0, 0, 0] .both) (elapse 1 s) = false) := by
  decide +kernel

/-! ## Registers, and the block as a whole -/

theorem meets_CapturesAndSnapshots :
    busUp (elapse 1 served) = true ∧ quietB (elapse 1 served) = true ∧ busUp (elapse 1 State.reset) = false ∧
    (elapse 1 served).cqa.modRun = true ∧ (elapse 1 served).cqb.modRun = true ∧ (elapse 1 served).sec.ctx[(0 : Fin 6)].dlen = 0 ∧
    (let s (c : Ctx) : State := { served with sec := { served.sec with ctx := vset served.sec.ctx 0 c } }
     let r := elapse 1 (s { Ctx.closed with dlen := 5 })
     let t := elapse 1 (s { Ctx.closed with dlen := 65535, state := .opened, func := 1 })
     r.sec.ctx[(0 : Fin 6)].dlen ≠ 0 ∧ dmaRuns r r.sec.ctx[(0 : Fin 6)] = false ∧ r.sec.ctx[(0 : Fin 6)].state = .closed ∧
       t.sec.ctx[(0 : Fin 6)].dlen ≠ 0 ∧ dmaRuns t t.sec.ctx[(0 : Fin 6)] = false ∧ t.sec.ctx[(0 : Fin 6)].state = .opened) := by
  decide +kernel

theorem meets_RegisterWritesAct :
    (elapse 1 served).sec.lock = .opened ∧ 2 ≤ (elapse 1 served).start.stage.code ∧ cmpModeOk 7 0x13 = true ∧
    cmpModeOk 7 0x80 = false ∧ cdnSetOk 3 1 0 = true ∧ 1 ≤ 65535 % 65536 ∧ 65536 % 65536 = 0 ∧
    32 ≤ (32 : Nat) % 2 ^ 21 ∧ 1048576 % 2 ^ 21 ≤ 1048576 ∧ 31 % 2 ^ 21 < 32 ∧ 1048576 < 1048577 % 2 ^ 21 ∧
    (elapse 1 served).nv.patchFull = false ∧
    (elapse 1 { served with nv := { served.nv with patchFull := true } }).nv.patchFull = true ∧
    blockOf 0x50000000 = none ∧ sparseWf 0 (elapse 1 served).sec.staging = true ∧
    busUp (elapse 1 State.reset) = false ∧ (elapse 1 sealed_).sec.lock = .sealed := by
  decide +kernel

theorem meets_TimePassesAlone :
    live served = true ∧ served.pwr.mode = .run ∧ served.clk.lode = .on ∧ served.clk.halt = false ∧
    State.reset.clk.lode ≠ .on ∧ live { served with pwr := { served.pwr with powered := false } } = false := by
  decide +kernel

/-- A state with every store at its bound. -/
theorem meets_StepKeepsBounds : ∃ s t, Bounded s ∧ step s = .next t :=
  ⟨State.reset, _, ⟨by decide, by decide, by decide, by decide, by decide, by decide, by decide⟩, rfl⟩

end Sys2Proof.Tests
end

/-! SUPPORT. The debug port: what an access is answered, what a write of HALT does, and how time passes over a halted part
(01_buoy_system.md R411, 02_lode_clock.md R37, R40). -/

namespace Sys2Proof.Machine

/-! ## Debug accesses (01_buoy_system.md R411): their commands, their status and what a refused one does -/

theorem debugOn_iff {s : State} : debugOn s = true ↔ s.clk.lode = .on ∧ s.pwr.vddioOk = true := by
  simp [debugOn, lodeOn]

/-- A command of the debug port acts where the port is on. -/
theorem act_debugOn {dt : Nat} {s : State} (hl : live s = true) (ho : debugOn (elapse dt s) = true) (f : State → State) :
    act dt (fun s => if debugOn s then f s else s) s = .next (f (elapse dt s)) := by
  simp [act, hl, ho]

theorem exec_debugAccess {dt : Nat} {s : State} (a : Word) (op : DebugOp) (hl : live s = true)
    (ho : debugOn (elapse dt s) = true) :
    exec (.debugAccess dt a op) s = .next (debugAccess a.toNat op (elapse dt s)) :=
  act_debugOn hl ho _

theorem exec_debugHalt {dt : Nat} {s : State} (hl : live s = true) (ho : debugOn (elapse dt s) = true) :
    exec (.debugHalt dt) s = .next (debugAccess 0x400F0010 (.write [1]) (elapse dt s)) :=
  act_debugOn hl ho _

theorem exec_debugResume {dt : Nat} {s : State} (hl : live s = true) (ho : debugOn (elapse dt s) = true) :
    exec (.debugResume dt) s = .next (debugAccess 0x400F0010 (.write [0]) (elapse dt s)) :=
  act_debugOn hl ho _

/-- The debug port has the level OPEN, which counts from Pour on (assumption log 15). -/
theorem debugOpen_iff {s : State} :
    (atLeast s .pour && s.sec.lock == .opened) = true ↔ 2 ≤ s.start.stage.code ∧ s.sec.lock = .opened := by
  simp only [atLeast, Bool.and_eq_true, decide_eq_true_eq, beq_iff_eq]
  rfl

theorem debugOpenRead_iff {a : Word} {op : DebugOp} :
    debugOpenRead a.toNat op = true ↔ op = .read 1 ∧ (a = 0x400F0000#32 ∨ a = 0x400F0014#32) := by
  simp [debugOpenRead, BitVec.toNat_eq]

theorem debugCheck_openRead {addr : Nat} {op : DebugOp} {s : State} (h : debugOpenRead addr op = true) :
    debugCheck addr op s = 0 := by
  simp [debugCheck, h]

theorem debugCheck_locked {addr : Nat} {op : DebugOp} {s : State} (h : debugOpenRead addr op ≠ true)
    (hs : s.sec.lock ≠ .opened ∨ s.start.stage.code < 2) : debugCheck addr op s = 1 := by
  have hn : (atLeast s .pour && s.sec.lock == .opened) = false := by
    rw [← Bool.not_eq_true, debugOpen_iff]
    rintro ⟨hp, hk⟩
    rcases hs with hs | hs
    · exact hs hk
    · omega
  simp [debugCheck, h, hn]

theorem debugCheck_badArg {addr : Nat} {op : DebugOp} {s : State} (h : debugOpenRead addr op ≠ true)
    (hk : s.sec.lock = .opened) (hp : 2 ≤ s.start.stage.code)
    (hb : blockOf addr = none ∨ blockOf addr = some 0xC ∨ addr % 4 ≠ 0 ∨ 0x10000 < addr % 0x10000 + 4 * debugWords op) :
    debugCheck addr op s = 2 := by
  have ho := debugOpen_iff.2 ⟨hp, hk⟩
  cases hx : blockOf addr with
  | none => simp [debugCheck, h, ho, hx]
  | some b =>
    have hc : addr % 4 ≠ 0 ∨ b = 0xC ∨ 0x10000 < addr % 0x10000 + 4 * debugWords op := by
      simp only [hx, reduceCtorEq, Option.some.injEq, false_or] at hb
      tauto
    simp only [debugCheck, h, ho, hx, if_pos hc]
    rfl

/-- A read of words of one block is not refused at OPEN. -/
theorem debugCheck_read {addr b n : Nat} {s : State} (hk : s.sec.lock = .opened) (hp : 2 ≤ s.start.stage.code)
    (hb : blockOf addr = some b) (hc : b ≠ 0xC) (ha : addr % 4 = 0) (hn : addr % 0x10000 + 4 * n ≤ 0x10000) :
    debugCheck addr (.read n) s = 0 := by
  have ho := debugOpen_iff.2 ⟨hp, hk⟩
  have hd : ¬0x10000 < addr % 0x10000 + 4 * n := by omega
  simp [debugCheck, ho, hb, hc, ha, debugIsRead, debugWords, hd]

/-- The words that a refused access returns. -/
def debugZeros : DebugOp → List Nat
  | .read n => List.replicate n 0
  | .write _ => []

/-- A refused access returns a 0 for each word it would read, and changes nothing but its own status. -/
theorem debugAccess_refused {addr k : Nat} {op : DebugOp} {s : State} (h : debugCheck addr op s = k) (hk : k ≠ 0) :
    debugAccess addr op s = debugEnd k (debugZeros op) s := by
  cases op with
  | read n => simp [debugAccess, debugZeros, h, hk]
  | write vs => simp [debugAccess, debugZeros, h, hk]

/-- A read that is not refused returns its words and has no side effect. -/
theorem debugAccess_read {addr b n : Nat} {s : State} (h : debugCheck addr (.read n) s = 0) (hb : blockOf addr = some b) :
    debugAccess addr (.read n) s = debugEnd 0 ((List.range n).map fun i => regRead s b (addr % 0x10000 + 4 * i)) s := by
  simp [debugAccess, h, hb]

/-- The ID words lie in block DBG. -/
theorem blockOf_idWord {a : Word} (h : a = 0x400F0000#32 ∨ a = 0x400F0014#32) : blockOf a.toNat = some 0xF := by
  rcases h with rfl | rfl <;> rfl

/-! ## HALT (02_lode_clock.md R37, R40) -/

/-- A write of HALT is not refused at OPEN, starts or ends the halt, and lets the sequencer go on. -/
theorem debugAccess_haltWord {s : State} (hk : s.sec.lock = .opened) (hp : 2 ≤ s.start.stage.code) (v : Word) :
    debugAccess 0x400F0010 (.write [v]) s =
      debugEnd 0 [] (settle (if v.toNat % 2 = 1 then haltOn s else haltOff s)) := by
  have hc : debugCheck 0x400F0010 (.write [v]) s = 0 := by
    simp [debugCheck, debugOpenRead, debugOpen_iff.2 ⟨hp, hk⟩, blockOf, debugWords, debugIsRead, regDefined]
  simp [debugAccess, hc, blockOf, pokeWords, regWrite]

@[simp] theorem alarmTrack_clk (s : State) : (alarmTrack s).clk = s.clk := by rw [alarmTrack_eq]

@[simp] theorem alarmTrack_tmr (s : State) : (alarmTrack s).tmr = s.tmr := by rw [alarmTrack_eq]

@[simp] theorem alarmTrack_par (s : State) : (alarmTrack s).par = s.par := by rw [alarmTrack_eq]

/-- What a part in which nothing is in flight shows after a write of HALT that has left it in the state `t`. -/
theorem debugEnd_settle_quiet {t : State} (h : Quiet t) :
    let u := debugEnd 0 [] (settle t)
    u.clk.halt = t.clk.halt ∧ u.clk.dbgLast = 0 ∧ u.clk.lode = t.clk.lode ∧ u.tmr = t.tmr ∧ u.par = t.par := by
  simp [settle_quiet h, debugEnd]

theorem quiet_of_passed {s t : State} (h : Quiet s) (p : Passed s t) : Quiet t := by
  obtain ⟨hs, hh, he, hd⟩ := h
  rw [← p.sprue] at hs hh he
  exact ⟨hs, hh, he, p.left hd⟩

/-! ## Time in a debug halt (08_timers.md R174) -/

/-- A halted part in which no transmission and no DMA transfer ends: time passes over it in one stretch. -/
structure HaltedIdle (s : State) : Prop where
  halt  : s.clk.halt = true
  txEnd : s.link.txEnd = none
  dma   : ∀ i : Fin 6, s.sec.ctx[i].dmaEnd = none

/-- TMR stands in a halt, so the edges are those of AON. -/
theorem HaltedIdle.edgeFor_eq {s : State} (h : HaltedIdle s) (t : Nat) : edgeFor s t = upAon t := by
  simp [edgeFor, tmrRuns, h.halt]

theorem HaltedIdle.passStops_eq {s : State} (h : HaltedIdle s) (t : Nat) : passStops t s = [] := by
  have hc : canTx s = false := by simp [canTx, h.halt]
  have hd : s.sec.ctx.toList.filterMap Ctx.dmaEnd = [] := by
    rw [List.filterMap_eq_nil_iff]
    intro c hc
    obtain ⟨i, hi, rfl⟩ := Vector.mem_iff_getElem.1 (Vector.mem_toList_iff.1 hc)
    exact h.dma ⟨i, hi⟩
  simp [passStops, hc, hd]

theorem HaltedIdle.passRaw_eq {s : State} (h : HaltedIdle s) (t : Nat) : passRaw t s = passClocks t s := by
  simp [passRaw, h.passStops_eq, passTx, h.txEnd]

theorem HaltedIdle.passRaw_base {s : State} (h : HaltedIdle s) (t : Nat) :
    (passRaw t s).tmr.base = max (upAon t) s.tmr.base := by
  rw [h.passRaw_eq, passClocks_base, h.edgeFor_eq]

@[simp] theorem passClocks_link (t : Nat) (s : State) : (passClocks t s).link = s.link := by
  unfold passClocks; dsimp only; split_ifs <;> rfl

@[simp] theorem beginWake_tmr (s : State) : (beginWake s).tmr = s.tmr := by
  unfold beginWake; split <;> rfl

@[simp] theorem beginWake_link (s : State) : (beginWake s).link = s.link := by
  unfold beginWake; split <;> rfl

/-- The wake of a halted part in Run leaves it halted, with nothing that ends. -/
theorem HaltedIdle.wake {s : State} (h : HaltedIdle s) (hm : s.pwr.mode = .run) (t : Nat) :
    HaltedIdle (beginWake (passRaw t s)) := by
  have p := passRaw_passed t s
  have q := p.trans (beginWake_passed (p.mode.trans hm))
  have hl : (beginWake (passRaw t s)).link = s.link := by rw [beginWake_link, h.passRaw_eq, passClocks_link]
  exact ⟨by rw [q.clk, h.halt], by rw [hl, h.txEnd], by rw [q.sec]; exact h.dma⟩

/-- A wake source wakes by the edge up to which it is looked for. -/
theorem firstWake_le {s : State} {t w : Nat} (h : firstWake s t = some w) : w ≤ t := by
  have hw := List.min?_mem h
  simp only [List.mem_append, List.mem_filterMap, Option.ite_none_right_eq_some, Option.some.injEq, Bool.and_eq_true,
    decide_eq_true_eq] at hw
  obtain ⟨c, -, ⟨-, hle⟩, rfl⟩ | ⟨d, -, ⟨-, hle⟩, rfl⟩ := hw
  · exact hle
  · exact hle

theorem upAon_upAon (t : Nat) : upAon (upAon t) = upAon t := by unfold upAon; omega

theorem upAon_mono {a b : Nat} (h : a ≤ b) : upAon a ≤ upAon b := by unfold upAon; omega

/-- Time passes over a halted part in Run to the AON edge at or after the instant, a wake on the way or not. -/
theorem HaltedIdle.elapseTo_base {s : State} (h : HaltedIdle s) (hm : s.pwr.mode = .run) (t : Nat) :
    (elapseTo t s).tmr.base = max (upAon t) s.tmr.base := by
  have hr : (passRaw (upAon t) s).tmr.base = max (upAon t) s.tmr.base := by
    rw [h.passRaw_base, upAon_upAon]
  unfold elapseTo
  dsimp only
  rw [h.edgeFor_eq]
  split_ifs
  · split
    · next w hw =>
      have hle : upAon w ≤ upAon t := (upAon_mono (firstWake_le hw)).trans_eq (upAon_upAon t)
      rw [(h.wake hm w).passRaw_base, beginWake_tmr, h.passRaw_base, upAon_upAon]
      omega
    · exact hr
  · exact hr

/-- A halt that ends leaves the part as time alone leaves it, at the next AON edge. -/
theorem haltOff_eq {s : State} (h : s.clk.halt = true) :
    haltOff s = { elapseTo ((now s / 250 + 1) * 250) s with
      clk := { (elapseTo ((now s / 250 + 1) * 250) s).clk with halt := false } } := by
  simp [haltOff, h, nextEdge, tmrRuns]

/-- A halt that ends keeps the part's parameters and Lode, and leaves nothing in flight where nothing was. -/
theorem haltOff_quiet {s : State} (h : HaltedIdle s) (hm : s.pwr.mode = .run) (hq : Quiet s) :
    Quiet (haltOff s) ∧ (haltOff s).clk.halt = false ∧ (haltOff s).clk.lode = s.clk.lode ∧
      (haltOff s).tmr.base = (now s / 250 + 1) * 250 ∧ (haltOff s).par = s.par := by
  have p := elapseTo_passed (t := (now s / 250 + 1) * 250) hm
  obtain ⟨hs, hh, he, hd⟩ := quiet_of_passed hq p
  rw [haltOff_eq h.halt]
  refine ⟨⟨hs, hh, he, hd⟩, rfl, by rw [p.clk], ?_, p.par⟩
  refine (h.elapseTo_base hm _).trans ?_
  unfold upAon now
  omega

theorem haltOn_eq {s : State} (h : s.clk.lode = .on) : haltOn s = { s with clk := { s.clk with halt := true } } := by
  simp [haltOn, lodeOn, h]

theorem haltOn_quiet {s : State} (hq : Quiet s) : Quiet (haltOn s) := by
  unfold haltOn
  split_ifs
  · exact ⟨hq.slots, hq.held, hq.early, hq.deferred⟩
  · exact hq

/-- Settles O31: the status is that of `debugCheck` case by case; HALT is a write at OPEN, after which only the alarm bits
are judged anew, and a halted part passes time in one stretch to the next AON edge. -/
theorem debugPortActs : Obligations.DebugPortActs := by
  unfold Obligations.DebugPortActs
  intro dt a op s hl r off ended zeros idRead hlode hio
  have ho : debugOn r = true := debugOn_iff.2 ⟨hlode, hio⟩
  have hopen : debugOpenRead a.toNat op = true ↔ idRead := debugOpenRead_iff
  have refused (k : Nat) (hk : k ≠ 0) (hc : debugCheck a.toNat op r = k) :
      exec (.debugAccess dt a op) s = .next (ended k zeros) := by
    rw [exec_debugAccess a op hl ho, debugAccess_refused hc hk]
    cases op <;> simp [ended, zeros, debugZeros, debugEnd, r]
  refine ⟨?_, ?_, ?_, ?_, ?_⟩
  · intro b n hb hc ha hn hk hp
    rw [exec_debugAccess a _ hl ho, debugAccess_read (debugCheck_read hk hp hb hc ha hn) hb]
    simp [ended, debugEnd, off, r, Function.comp_def]
  · intro hid
    have hc := debugCheck_openRead (s := r) (hopen.2 hid)
    obtain ⟨rfl, hw⟩ := hid
    rw [exec_debugAccess a _ hl ho, debugAccess_read hc (blockOf_idWord hw)]
    simp [ended, debugEnd, off, r]
  · intro hid hs
    exact refused 1 (by decide) (debugCheck_locked (mt hopen.1 hid) hs)
  · intro hid hk hp hb
    exact refused 2 (by decide) (debugCheck_badArg (mt hopen.1 hid) hk hp hb)
  · intro hk hp hq hm htx hdma
    constructor
    · intro _
      obtain ⟨h1, h2, h3, h4, h5⟩ := debugEnd_settle_quiet (haltOn_quiet hq)
      rw [haltOn_eq hlode] at h1 h2 h3 h4 h5
      refine ⟨_, (exec_debugHalt hl ho).trans (congrArg _ (debugAccess_haltWord hk hp 1)), ?_⟩
      rw [if_pos (by decide), haltOn_eq hlode]
      exact ⟨h1, h2, h3.trans hlode, h4, h5⟩
    · intro hh
      obtain ⟨hq', g1, g2, g3, g4⟩ := haltOff_quiet ⟨hh, htx, hdma⟩ hm hq
      obtain ⟨h1, h2, h3, h4, h5⟩ := debugEnd_settle_quiet hq'
      refine ⟨_, (exec_debugResume hl ho).trans (congrArg _ (debugAccess_haltWord hk hp 0)), ?_⟩
      rw [if_neg (by decide)]
      exact ⟨h1.trans g1, h2, h3.trans (g2.trans hlode), (congrArg Tmr.base h4).trans g3, h5.trans g4⟩

end Sys2Proof.Machine

/-! SUPPORT. The base: where it stands once time has passed, in fine and in coarse counting, and what a part shows right after
reset (02_lode_clock.md R37, 08_timers.md R173, R174). -/

namespace Sys2Proof.Machine

/-! ## The base once time has passed (08_timers.md R174) -/

theorem edgeFor_fine {s : State} (h : tmrRuns s = true) (t : Nat) : edgeFor s t = t := by simp [edgeFor, h]

theorem edgeFor_coarse {s : State} (h : tmrRuns s = false) (t : Nat) : edgeFor s t = upAon t := by simp [edgeFor, h]

theorem edgeFor_mono (s : State) {a b : Nat} (h : a ≤ b) : edgeFor s a ≤ edgeFor s b := by
  unfold edgeFor
  split_ifs
  · exact h
  · exact upAon_mono h

theorem edgeFor_congr {s t : State} (h : t.clk = s.clk) (e : Nat) : edgeFor t e = edgeFor s e := by
  simp [edgeFor, tmrRuns, lodeOn, h]

@[simp] theorem txDone_tmr (s : State) : (txDone s).tmr = s.tmr := by
  unfold txDone
  split
  · dsimp only
    split <;> rfl
  · rfl

/-- A frame that ends on the way does not change where the base stands. -/
theorem passTx_base (t : Nat) (s : State) : (passTx t s).tmr.base = max (edgeFor s t) s.tmr.base := by
  unfold passTx
  split
  · next e _ =>
    split_ifs with he
    · have hc : (txDone (passClocks e s)).clk = s.clk := by rw [(txDone_passed _).clk, (passClocks_passed e s).clk]
      have hm := edgeFor_mono s he
      rw [passClocks_base, edgeFor_congr hc, txDone_tmr, passClocks_base]
      omega
    · exact passClocks_base t s
  · exact passClocks_base t s

theorem mem_insAsc {x y : Nat} {l : List Nat} : x ∈ insAsc y l ↔ x = y ∨ x ∈ l := by
  induction l with
  | nil => simp [insAsc]
  | cons z l ih =>
    unfold insAsc
    split_ifs
    · simp
    · simp only [List.mem_cons, ih]
      tauto

theorem mem_foldr_insAsc {x : Nat} {l : List Nat} : x ∈ l.foldr insAsc [] ↔ x ∈ l := by
  induction l with
  | nil => simp
  | cons y l ih => simp [mem_insAsc, ih]

/-- No stop on the way lies behind its end. -/
theorem passStops_le {t e : Nat} {s : State} (h : e ∈ passStops t s) : e ≤ t := by
  rw [passStops, mem_foldr_insAsc, List.mem_filter] at h
  exact (of_decide_eq_true h.2).2

/-- Stops on the way that lie no later than `t` leave the base to reach `t`. -/
theorem foldl_passTx_base {t : Nat} {l : List Nat} (hl : ∀ e ∈ l, e ≤ t) (s : State) :
    let u := l.foldl (fun s e => passTx e s) s
    u.clk = s.clk ∧ max (edgeFor s t) u.tmr.base = max (edgeFor s t) s.tmr.base := by
  induction l generalizing s with
  | nil => exact ⟨rfl, rfl⟩
  | cons e l ih =>
    have hc := (passTx_passed e s).clk
    have hb := passTx_base e s
    have hm := edgeFor_mono s (hl e (by simp))
    obtain ⟨ihc, ihb⟩ := ih (fun x hx => hl x (List.mem_cons_of_mem _ hx)) (passTx e s)
    rw [edgeFor_congr hc] at ihb
    exact ⟨ihc.trans hc, ihb.trans (by omega)⟩

theorem passRaw_base (t : Nat) (s : State) : (passRaw t s).tmr.base = max (edgeFor s t) s.tmr.base := by
  obtain ⟨hc, hb⟩ := foldl_passTx_base (fun _ => passStops_le) (t := t) s
  rw [passRaw, passTx_base, edgeFor_congr hc, hb]

/-- A wake starts Lode at most, which does not count before it has locked. -/
theorem beginWake_coarse {s : State} (h : tmrRuns s = false) : tmrRuns (beginWake s) = false := by
  unfold beginWake
  split
  · exact h
  · rfl
  · rfl

theorem beginWake_clk {s : State} (h : s.pwr.mode = .run) : (beginWake s).clk = s.clk := (beginWake_passed h).clk

/-- A wake on the way that does not change how the edges are counted does not change where the base stands. -/
theorem elapseTo_base_of_wake {t : Nat} {s : State}
    (hw : ∀ w, edgeFor (beginWake (passRaw w s)) (edgeFor s t) = edgeFor s (edgeFor s t))
    (he : edgeFor s (edgeFor s t) = edgeFor s t) : (elapseTo t s).tmr.base = max (edgeFor s t) s.tmr.base := by
  have hr : (passRaw (edgeFor s t) s).tmr.base = max (edgeFor s t) s.tmr.base := by rw [passRaw_base, he]
  unfold elapseTo
  dsimp only
  split_ifs
  · split
    · next w hf =>
      have hle := edgeFor_mono s (firstWake_le hf)
      rw [passRaw_base, hw, beginWake_tmr, passRaw_base]
      omega
    · exact hr
  · exact hr

theorem elapseTo_base_run {t : Nat} {s : State} (h : s.pwr.mode = .run) :
    (elapseTo t s).tmr.base = max (edgeFor s t) s.tmr.base := by
  refine elapseTo_base_of_wake (fun w => ?_) ?_
  · have p := passRaw_passed w s
    exact edgeFor_congr ((beginWake_clk (p.mode.trans h)).trans p.clk) _
  · unfold edgeFor
    split_ifs
    · rfl
    · exact upAon_upAon t

theorem elapseTo_base_coarse {t : Nat} {s : State} (h : tmrRuns s = false) :
    (elapseTo t s).tmr.base = max (upAon t) s.tmr.base := by
  rw [← edgeFor_coarse h]
  refine elapseTo_base_of_wake (fun w => ?_) ?_
  · have hr : tmrRuns (passRaw w s) = false := by
      simpa [tmrRuns, lodeOn, (passRaw_passed w s).clk] using h
    rw [edgeFor_coarse (beginWake_coarse hr), edgeFor_coarse h (edgeFor s t)]
  · rw [edgeFor_coarse h, edgeFor_coarse h, upAon_upAon]

theorem upAon_mul (n : Nat) : upAon (n * 250) = n * 250 := by unfold upAon; omega

theorem tmrRuns_iff {s : State} : tmrRuns s = true ↔ s.clk.lode = .on ∧ s.clk.halt = false := by
  simp [tmrRuns, lodeOn]

theorem tmrRuns_eq_false_iff {s : State} : tmrRuns s = false ↔ s.clk.lode ≠ .on ∨ s.clk.halt = true := by
  simp [tmrRuns, lodeOn, imp_iff_not_or]

theorem elapse_fine {dt : Nat} {s : State} (hl : live s = true) (h : tmrRuns s = true) :
    elapse dt s = elapseTo (s.tmr.base + dt) s := by simp [elapse, hl, h]

theorem elapse_coarse {dt : Nat} {s : State} (hl : live s = true) (h : tmrRuns s = false) :
    elapse dt s = elapseTo ((s.tmr.base / 250 + dt) * 250) s := by simp [elapse, hl, h]

theorem elapse_held {dt : Nat} {s : State} (hl : live s = false) : elapse dt s = s := by simp [elapse, hl]

theorem elapse_base_fine {dt : Nat} {s : State} (hl : live s = true) (h : tmrRuns s = true) (hm : s.pwr.mode = .run) :
    (elapse dt s).tmr.base = s.tmr.base + dt := by
  rw [elapse_fine hl h, elapseTo_base_run hm, edgeFor_fine h]
  omega

theorem elapse_base_coarse {dt : Nat} {s : State} (hl : live s = true) (h : tmrRuns s = false) :
    (elapse dt s).tmr.base = max s.tmr.base ((s.tmr.base / 250 + dt) * 250) := by
  rw [elapse_coarse hl h, elapseTo_base_coarse h, upAon_mul, max_comm]

/-- What time changes of an awake part is `Passed`. -/
theorem awakeTimeMovesTheClocks : AwakeTimeMovesTheClocks := by
  intro dt s _ hm
  have p : Passed s (elapse dt s) := elapse_passed hm
  refine ⟨p.rest, ?_, p.link⟩
  rw [p.pwr]

/-- Settles O56: time passes as `Passed` says, and to the edge of the clock that counts; a wake on the way does not change
which clock that is. -/
theorem timePassesAlone : Obligations.TimePassesAlone := by
  refine ⟨awakeTimeMovesTheClocks, fun dt s => ⟨?_, ?_, ?_⟩⟩
  · intro hl hlode hh hm
    exact elapse_base_fine hl (tmrRuns_iff.2 ⟨hlode, hh⟩) hm
  · intro hl h
    exact elapse_base_coarse hl (tmrRuns_eq_false_iff.2 h)
  · exact elapse_held

/-- Settles O57: the reset state is one fixed value, and nothing is in flight in it. -/
theorem resetLeavesEmber : Obligations.ResetLeavesEmber := by
  have hq : Quiet State.reset := ⟨by decide, rfl, rfl, rfl⟩
  unfold Obligations.ResetLeavesEmber
  refine ⟨rfl, rfl, rfl, rfl, rfl, rfl, rfl, rfl, rfl, rfl, by decide, rfl, by decide, by decide, rfl, rfl, rfl, rfl, rfl, hq⟩

end Sys2Proof.Machine

/-! SUPPORT. Writes of the Forge cores to the capture, snapshot, queue and DMA registers: what each changes of the part, and that
none acts while the register bus stands still (02_lode_clock.md R37, R40; 06_front_end_integrators.md R146;
07_sar_and_accumulators.md R164 to R166; 08_timers.md R175, R186; 13_digest_crucible.md R320). -/

namespace Sys2Proof.Machine

/-! ## Writes on the register bus -/

/-- What leaves the sequencer and the supply block alone leaves nothing in flight where nothing was. -/
theorem quiet_congr {s t : State} (h : Quiet s) (hs : t.sprue = s.sprue) (hp : t.pwr = s.pwr) : Quiet t :=
  ⟨by rw [hs]; exact h.slots, by rw [hs]; exact h.held, by rw [hs]; exact h.early, by rw [hp]; exact h.deferred⟩

theorem busAct_up {dt : Nat} {f : State → State} {s u : State} (hl : live s = true) (hb : busUp (elapse dt s) = true)
    (hf : f (elapse dt s) = u) (hu : Quiet u) : busAct dt f s = .next (alarmTrack u) := by
  simp [busAct, act, hl, hb, hf, settle_quiet hu]

theorem busAct_down {dt : Nat} {f : State → State} {s : State} (hl : live s = true) (hb : busUp (elapse dt s) = false) :
    busAct dt f s = .next (elapse dt s) := by
  simp [busAct, act, hl, hb]

/-- The bus has edges only while TMR runs. -/
theorem tmrRuns_of_busUp {s : State} (h : busUp s = true) : tmrRuns s = true := by
  unfold busUp at h
  rw [Bool.and_eq_true] at h
  exact h.1

theorem vget_fin {α : Type} {n : Nat} (v : Vector α n) (i : Fin n) (d : α) : vget v i d = v[i] := by
  simp [vget, Vector.getD]

theorem vset_fin_self {α : Type} {n : Nat} (v : Vector α n) (i : Fin n) (x : α) : (vset v i x)[i] = x := by
  simp [vset]

theorem vset_fin_ne {α : Type} {n : Nat} (v : Vector α n) {i j : Fin n} (h : j ≠ i) (x : α) : (vset v i x)[j] = v[j] := by
  have hv : i.val ≠ j.val := fun e => h (Fin.ext e.symm)
  simp [vset, hv]

/-! What judging the alarm bits leaves alone. -/

@[simp] theorem alarmTrack_cqa (s : State) : (alarmTrack s).cqa = s.cqa := by rw [alarmTrack_eq]

@[simp] theorem alarmTrack_cqb (s : State) : (alarmTrack s).cqb = s.cqb := by rw [alarmTrack_eq]

@[simp] theorem alarmTrack_capAt (s : State) : (alarmTrack s).capAt = s.capAt := by rw [alarmTrack_eq]

@[simp] theorem alarmTrack_capStamp (s : State) : (alarmTrack s).capStamp = s.capStamp := by rw [alarmTrack_eq]

@[simp] theorem alarmTrack_capStampOld (s : State) : (alarmTrack s).capStampOld = s.capStampOld := by rw [alarmTrack_eq]

@[simp] theorem alarmTrack_sar (s : State) : (alarmTrack s).sar = s.sar := by rw [alarmTrack_eq]

@[simp] theorem alarmTrack_gauge (s : State) : (alarmTrack s).gauge = s.gauge := by rw [alarmTrack_eq]

@[simp] theorem alarmTrack_sec (s : State) : (alarmTrack s).sec = s.sec := by rw [alarmTrack_eq]

/-! ## SB_CTRL.CAPTURE (08_timers.md R175) -/

theorem captureShadow0_fine {s : State} (h : tmrRuns s = true) :
    captureShadow0 s = { s with tmr := { s.tmr with shadow0 := s.tmr.base } } := by
  simp [captureShadow0, h]

/-! ## CQ_CTRL.CAPTURE (06_front_end_integrators.md R146) -/

/-- The CBM edges up to the place of edge `k` are `k`. -/
theorem cbmCount_cbmAt (k : Nat) : cbmCount (cbmAt k) = k := by unfold cbmCount cbmAt; omega

theorem tallyAdd_stopped {q : Cq} (h : q.modRun = false) (t : Nat) (d : Int) (n : Nat) :
    (tallyAdd t d n q).tally = q.tally := by
  simp [tallyAdd, h]

/-- The tally of a running modulator at CBM edge `k`. -/
theorem tallyAdd_cbmAt {q : Cq} (h : q.modRun = true) (k : Nat) (d : Int) (n : Nat) :
    (tallyAdd (cbmAt k) d n q).tally = wrap48 (q.tally + bitSum (k - cbmCount q.tallyAt) d) := by
  simp [tallyAdd, h, cbmSince, cbmCount_cbmAt]

theorem captureTallies_merged {s : State} (h : now s < s.capAt) (b : Bits) : captureTallies b s = s := by
  simp [captureTallies, capturing, h]

theorem captureTallies_fine {s : State} (h : s.capAt ≤ now s) (ht : tmrRuns s = true) (b : Bits) :
    let k := cbmCount (now s) + 1
    let t := addBitsTo (cbmAt k) b s
    captureTallies b s = { t with
      cqa := { t.cqa with cap := t.cqa.tally, capOld := s.cqa.cap }
      cqb := { t.cqb with cap := t.cqb.tally, capOld := s.cqb.cap }
      capStamp := cbmStamp k, capStampOld := s.capStamp, capAt := cbmAt k } := by
  have hc : capturing s = false := decide_eq_false (Nat.not_lt.2 h)
  simp [captureTallies, hc, ht, edgeFor]

/-! ## ACC_SNAP and TRK_SNAP (07_sar_and_accumulators.md R164 to R166) -/

theorem bitVec2_toNat_mod {v : BitVec 2} : v.toNat % 2 = 1 ↔ v.getLsbD 0 = true := by simp [BitVec.getLsbD, Nat.testBit]

theorem bitVec2_toNat_div {v : BitVec 2} : v.toNat / 2 % 2 = 1 ↔ v.getLsbD 1 = true := by
  simp [BitVec.getLsbD, Nat.testBit, Nat.shiftRight_eq_div_pow]

theorem snapWrite_clear {v : BitVec 2} (h : v.getLsbD 0 = false) (take : Bool → State → State) (s : State) :
    snapWrite take v.toNat s = s := by
  have hv : ¬v.toNat % 2 = 1 := by rw [bitVec2_toNat_mod, h]; decide
  simp [snapWrite, hv]

theorem snapWrite_take {v : BitVec 2} (h : v.getLsbD 0 = true) (take : Bool → State → State) (s : State) :
    snapWrite take v.toNat s = take (v.getLsbD 1) s := by
  simp [snapWrite, bitVec2_toNat_mod.2 h, bitVec2_toNat_div]

theorem accSnapTake_eq (n : Fin 32) (clear : Bool) (s : State) :
    accSnapTake n clear s = { s with sar := { s.sar with
      accSnap := vset s.sar.accSnap n s.sar.acc[n], snapStamp := vset s.sar.snapStamp n (now s)
      acc := if clear then vset s.sar.acc n Acc.empty else s.sar.acc } } := by
  simp only [accSnapTake, vget_fin]

theorem trkSnapTake_eq (n : Fin 32) (clear : Bool) (s : State) :
    trkSnapTake n clear s = { s with sar := { s.sar with
      trkSnap := vset s.sar.trkSnap n s.sar.trk[n]
      trk := if clear then vset s.sar.trk n Trk.empty else s.sar.trk } } := by
  simp only [trkSnapTake, vget_fin]

/-! ## POP (08_timers.md R186) -/

theorem capqPop_eq (q : Fin 4) (s : State) :
    let x := s.tmr.capq[q]
    let kept := (x.held ++ x.late).filter fun e => decide (now s ≤ e.1)
    let old (e : Nat × Bool) : Bool := decide (e.1 < now s)
    capqPop q s = { s with tmr := { s.tmr with
      capq := vset s.tmr.capq q { x with
        held := kept.take 4, late := [], lost := kept.length - 4, popped := x.held.filter old
        popLost := min 65535 (x.lost + (x.late.filter old).length) } } } := by
  simp only [capqPop, capqAt, vget_fin, Capq.read, satTo, min_comm]

/-! ## GO (13_digest_crucible.md R320) -/

theorem ctxAt_fin (s : State) (n : Fin 6) : ctxAt s n = s.sec.ctx[n] := vget_fin _ _ _

theorem goWrite_err {s : State} {n : Fin 6} (h : s.sec.ctx[n].dlen = 0 ∨ dmaRuns s s.sec.ctx[n] = true) :
    goWrite n s = setCtx n { s.sec.ctx[n] with err := true } s := by
  rw [← ctxAt_fin] at h ⊢
  exact if_pos h

theorem goWrite_closed {s : State} {n : Fin 6} (hd : s.sec.ctx[n].dlen ≠ 0) (hr : dmaRuns s s.sec.ctx[n] = false)
    (hc : s.sec.ctx[n].state = .closed) : goWrite n s = s := by
  rw [← ctxAt_fin] at hd hr hc
  simp [goWrite, hd, hr, hc]

/-- The bytes that a transfer into context `c` brings. -/
def goBytes (s : State) (c : Ctx) : List Byte := (List.range c.dlen).map (dmaByte s c.dmaSrc)

theorem goBytes_length (s : State) (c : Ctx) : (goBytes s c).length = c.dlen := by simp [goBytes]

/-- The open context `c` once a transfer into it has begun: its bytes are absorbed at once, and it runs until its end. -/
def goCtx (s : State) (c : Ctx) : Ctx :=
  { ctxAbsorb (goBytes s c) c with dmaEnd := some (now s + dmaTicks c c.dlen) }

theorem ctxFeed_opened {s : State} {c : Ctx} {b : List Byte} (hb : b ≠ []) (ho : c.state = .opened) :
    ctxFeed s b c = ctxAbsorb b c := by
  simp [ctxFeed, hb, ho]

theorem goWrite_opened {s : State} {n : Fin 6} (hd : s.sec.ctx[n].dlen ≠ 0) (hr : dmaRuns s s.sec.ctx[n] = false)
    (ho : s.sec.ctx[n].state = .opened) :
    goWrite n s = setCtx n (goCtx s s.sec.ctx[n]) { s with drawn := s.drawn + s.sec.ctx[n].dlen } := by
  rw [← ctxAt_fin] at hd hr ho ⊢
  have hb : goBytes s (ctxAt s n) ≠ [] := by
    rwa [← List.length_pos_iff, goBytes_length, Nat.pos_iff_ne_zero]
  rw [goCtx, ← ctxFeed_opened (s := s) hb ho]
  simp [goWrite, hd, hr, ho, goBytes]

theorem goCtx_absorbed (s : State) (c : Ctx) : (goCtx s c).absorbed = (c.absorbed + c.dlen) % 2 ^ 64 := by
  simp [goCtx, ctxAbsorb, goBytes_length]

theorem setCtx_self (n : Fin 6) (c : Ctx) (s : State) : (setCtx n c s).sec.ctx[n] = c := vset_fin_self _ n c

theorem setCtx_other {n i : Fin 6} (h : i ≠ n) (c : Ctx) (s : State) : (setCtx n c s).sec.ctx[i] = s.sec.ctx[i] :=
  vset_fin_ne _ h c

theorem dmaTicks_pos (c : Ctx) {n : Nat} (h : n ≠ 0) : 0 < dmaTicks c n := by unfold dmaTicks; omega

/-- Settles O52: each write is its operation on the part, after which only the alarm bits are judged anew, and the bus takes
none without edges. -/
theorem capturesAndSnapshots : Obligations.CapturesAndSnapshots := by
  unfold Obligations.CapturesAndSnapshots
  intro dt s hl r _
  refine ⟨fun hb hq => ?_, fun hb => ?_⟩
  · have ht : tmrRuns r = true := tmrRuns_of_busUp hb
    have up {f : State → State} {u : State} (hf : f r = u) (hu : Quiet u) : busAct dt f s = .next (alarmTrack u) :=
      busAct_up hl hb hf hu
    refine ⟨?_, fun bits h => ?_, fun bits h => ?_, fun n v => ⟨fun h => ⟨?_, ?_⟩, fun h => ⟨?_, ?_⟩⟩, fun q => ?_,
      fun n => ⟨fun h => ?_, fun hd hr hc => ?_, fun hd hr ho => ?_⟩⟩
    · exact up (captureShadow0_fine ht) (quiet_congr hq rfl rfl)
    · exact up (captureTallies_merged h bits) hq
    · refine ⟨_, up (captureTallies_fine h ht bits) (quiet_congr hq rfl rfl), ?_⟩
      rw [alarmTrack_capAt, alarmTrack_capStamp, alarmTrack_capStampOld, alarmTrack_cqa, alarmTrack_cqb,
        alarmTrack_sar, alarmTrack_tmr, alarmTrack_gauge]
      refine ⟨rfl, rfl, rfl, rfl, rfl, rfl, rfl, fun hm => ?_, fun hm => ?_, fun hm => ?_, rfl, rfl, rfl⟩
      · exact tallyAdd_stopped hm _ _ _
      · exact tallyAdd_cbmAt hm _ _ _
      · exact tallyAdd_cbmAt hm _ _ _
    · exact up (snapWrite_clear h _ r) hq
    · exact up (snapWrite_clear h _ r) hq
    · exact up ((snapWrite_take h _ r).trans (accSnapTake_eq n _ r)) (quiet_congr hq rfl rfl)
    · exact up ((snapWrite_take h _ r).trans (trkSnapTake_eq n _ r)) (quiet_congr hq rfl rfl)
    · exact up (capqPop_eq q r) (quiet_congr hq rfl rfl)
    · exact up (goWrite_err h) (quiet_congr hq rfl rfl)
    · exact up (goWrite_closed hd hr hc) hq
    · refine ⟨_, now r + dmaTicks r.sec.ctx[n] r.sec.ctx[n].dlen,
        up (goWrite_opened hd hr ho) (quiet_congr hq rfl rfl), ?_⟩
      rw [alarmTrack_sec, alarmTrack_tmr, alarmTrack_par, setCtx_self]
      exact ⟨goCtx_absorbed r _, rfl, Nat.lt_add_of_pos_right (dmaTicks_pos _ hd), ho, rfl,
        fun i hi => setCtx_other hi _ _, rfl, rfl, rfl⟩
  · have down (f : State → State) : busAct dt f s = .next r := busAct_down hl hb
    exact ⟨fun _ => down _, down _, fun _ => down _, fun _ => down _, fun _ _ => ⟨down _, down _⟩⟩

end Sys2Proof.Machine

/-! SUPPORT. The events of the clocks and the watchdogs: what the tamper event that a failing clock raises leaves of the part, and
what both cores' reset takes it back to (01_buoy_system.md R19; 02_lode_clock.md R38, R41, R43, R44; 04_staged_start.md R78). -/

namespace Sys2Proof.Machine

/-! ## What a tamper event keeps (14_tamper_quench.md R345) -/

/-- What a tamper event keeps: the clocks, but for the start of Lode where a part that sleeps wakes, the base, the parameters and
that nothing is in flight; of a part in Run also its mode and its stage. -/
structure EventKept (s t : State) : Prop where
  clk   : t.clk = { s.clk with lode := t.clk.lode, lodeStart := t.clk.lodeStart, lockTry := t.clk.lockTry }
  base  : t.tmr.base = s.tmr.base
  par   : t.par = s.par
  quiet : Quiet s → Quiet t
  run   : s.pwr.mode = .run → t.pwr.mode = .run ∧ t.clk = s.clk ∧ t.start = s.start

theorem EventKept.refl (s : State) : EventKept s s := ⟨rfl, rfl, rfl, id, fun h => ⟨h, rfl, rfl⟩⟩

theorem EventKept.trans {s t u : State} (h : EventKept s t) (k : EventKept t u) : EventKept s u where
  clk := by rw [k.clk, h.clk]
  base := k.base.trans h.base
  par := k.par.trans h.par
  quiet := fun q => k.quiet (h.quiet q)
  run := fun m => by
    obtain ⟨m1, c1, s1⟩ := h.run m
    obtain ⟨m2, c2, s2⟩ := k.run m1
    exact ⟨m2, c2.trans c1, s2.trans s1⟩

/-- What leaves the clocks, the stage, the base, the parameters, the sequencer and the supply block alone keeps all of it. -/
theorem EventKept.of_parts {s t : State} (hc : t.clk = s.clk) (hs : t.start = s.start) (hb : t.tmr.base = s.tmr.base)
    (hp : t.par = s.par) (hq : t.sprue = s.sprue) (hw : t.pwr = s.pwr) : EventKept s t :=
  ⟨by rw [hc], hb, hp, fun q => quiet_congr q hq hw, fun h => ⟨by rw [hw, h], hc, hs⟩⟩

/-- An entry that is raised changes the tamper block alone. -/
theorem logPush_eq (s : State) (e : LogEnt) : logPush s e = { s with tamp := (logPush s e).tamp } := by
  unfold logPush
  split_ifs
  · rfl
  · dsimp only
    split <;> rfl

theorem logEvent_eq (typ : Nat) (b : List Byte) (s : State) :
    logEvent typ b s = { s with tamp := (logEvent typ b s).tamp } := logPush_eq _ _

theorem logPush_kept (s : State) (e : LogEnt) : EventKept s (logPush s e) := by
  rw [logPush_eq]
  exact .of_parts rfl rfl rfl rfl rfl rfl

theorem logRaise_kept (typ origin : Nat) (b : List Byte) (s : State) : EventKept s (logRaise typ origin b s) :=
  logPush_kept s _

theorem setSrc_kept (k : TampSrc) (x : Source) (s : State) : EventKept s (setSrc k x s) := by
  cases k <;> exact .of_parts rfl rfl rfl rfl rfl rfl

theorem enterTamper_kept (k : TampSrc) (s : State) : EventKept s (enterTamper k s) := by
  unfold enterTamper
  split
  · exact .of_parts rfl rfl rfl rfl rfl rfl
  · exact .of_parts rfl rfl rfl rfl rfl rfl
  · exact setSrc_kept _ _ _

theorem alarmDue_kept (k : TampSrc) (r : Resp) (s : State) : EventKept s (alarmDue k r s) := by
  unfold alarmDue
  split_ifs <;> exact .of_parts rfl rfl rfl rfl rfl rfl

theorem mapOps_quiet {s : State} (h : Quiet s) (f : Oper → Oper) : Quiet (mapOps f s) :=
  ⟨fun i => by simpa [mapOps] using h.slots i, h.held, h.early, h.deferred⟩

/-- A commit of the part's own waits in the store's queue, under BOW for the end of BOW. -/
theorem commitInternal_kept (l : List Rec) (s : State) : EventKept s (commitInternal l s) := by
  unfold commitInternal enqueue deferOp
  dsimp only
  split_ifs <;> exact .of_parts rfl rfl rfl rfl rfl rfl

theorem setLevel_kept (new : Lock) (cause origin : Nat) (s : State) : EventKept s (setLevel new cause origin s) := by
  unfold setLevel
  split_ifs
  · exact .refl s
  · refine EventKept.trans ?_ (commitInternal_kept _ _)
    refine EventKept.trans ?_ (logRaise_kept _ _ _ _)
    exact .of_parts rfl rfl rfl rfl rfl rfl

theorem tamperOps_kept (s : State) : EventKept s (tamperOps s) :=
  ⟨rfl, rfl, rfl, fun q => mapOps_quiet q _, fun h => ⟨h, rfl, rfl⟩⟩

theorem zeroize_kept (s : State) : EventKept s (zeroize s) := by
  unfold zeroize
  refine EventKept.trans ?_ (setLevel_kept _ _ _ _)
  exact (tamperOps_kept s).trans (.of_parts rfl rfl rfl rfl rfl rfl)

theorem putMark_kept (w : Word) (s : State) : EventKept s (putMark w s) := by
  unfold putMark
  split <;> exact .of_parts rfl rfl rfl rfl rfl rfl

theorem quenchWrite_kept (k : TampSrc) (r : Resp) (stamp : Nat) (s : State) : EventKept s (quenchWrite k r stamp s) := by
  unfold quenchWrite
  dsimp only
  generalize hm : (if hasMark (srcCode k) stamp s = true then s else putMark _ s) = u
  have hu : EventKept s u := by
    rw [← hm]
    split
    · exact .refl s
    · exact putMark_kept _ _
  split_ifs
  · exact hu.trans (.of_parts rfl rfl rfl rfl rfl rfl)
  · exact hu

/-- A wake starts Lode where the part sleeps, and in Run cancels a decided entry alone. -/
theorem beginWake_kept (s : State) : EventKept s (beginWake s) := by
  unfold beginWake
  split
  · exact ⟨rfl, rfl, rfl, fun q => ⟨q.slots, q.held, q.early, q.deferred⟩, fun h => ⟨h, rfl, rfl⟩⟩
  · next hm => exact ⟨rfl, rfl, rfl, fun q => ⟨q.slots, q.held, q.early, q.deferred⟩, fun h => by simp [h] at hm⟩
  · next hm _ => exact ⟨rfl, rfl, rfl, fun q => ⟨q.slots, q.held, q.early, q.deferred⟩, fun h => absurd h hm⟩

/-! The stages of an event. -/

/-- The latch, the count and the stamps of an event. -/
def tamperLatched (k : TampSrc) (v : Nat) (s : State) : State :=
  let t := enterTamper k s
  setSrc k (latchSrc (now s) (responseOf s k) v (!tmrRuns t) t.start.stage.code (srcOf t k)) t

/-- The log entry of an event with its ALARM frame, or the note that the entry is to be written from the latch. -/
def tamperNoted (k : TampSrc) (r : Resp) (stamp : Nat) (s : State) : State :=
  if quenchReady s then alarmDue k r (logPush s (tamperEntry s k r stamp 0))
  else setSrc k { srcOf s k with unlogged := true } s

/-- The zeroization of a Quench, where keys are held. -/
def tamperZeroized (r : Resp) (s : State) : State := if r.quench && keysHeld s then quenchBusy (zeroize s) else s

/-- The mark of a Quench, where the store can be written. -/
def tamperMarked (k : TampSrc) (r : Resp) (stamp : Nat) (s : State) : State :=
  if r.quench && quenchReady s then quenchWrite k r stamp s else s

/-- The wake of a response other than LOG. -/
def tamperWoken (r : Resp) (s : State) : State :=
  if r = .log then s else if lowPower s then beginWake s else { s with pwr := { s.pwr with entry := none } }

theorem applyTamper_eq (k : TampSrc) (v : Nat) (s : State) :
    let r := responseOf s k
    applyTamper k v s =
      tamperWoken r (tamperMarked k r (now s) (tamperZeroized r (tamperNoted k r (now s) (tamperLatched k v s)))) := rfl

theorem tamperLatched_kept (k : TampSrc) (v : Nat) (s : State) : EventKept s (tamperLatched k v s) :=
  (enterTamper_kept k s).trans (setSrc_kept _ _ _)

theorem tamperNoted_kept (k : TampSrc) (r : Resp) (stamp : Nat) (s : State) : EventKept s (tamperNoted k r stamp s) := by
  unfold tamperNoted
  split_ifs
  · exact (logPush_kept _ _).trans (alarmDue_kept _ _ _)
  · exact setSrc_kept _ _ _

theorem tamperZeroized_kept (r : Resp) (s : State) : EventKept s (tamperZeroized r s) := by
  unfold tamperZeroized
  split_ifs
  · exact (zeroize_kept s).trans (.of_parts rfl rfl rfl rfl rfl rfl)
  · exact .refl s

theorem tamperMarked_kept (k : TampSrc) (r : Resp) (stamp : Nat) (s : State) : EventKept s (tamperMarked k r stamp s) := by
  unfold tamperMarked
  split_ifs
  · exact quenchWrite_kept _ _ _ _
  · exact .refl s

theorem tamperWoken_kept (r : Resp) (s : State) : EventKept s (tamperWoken r s) := by
  unfold tamperWoken
  split_ifs
  · exact .refl s
  · exact beginWake_kept s
  · exact ⟨rfl, rfl, rfl, fun q => ⟨q.slots, q.held, q.early, q.deferred⟩, fun m => ⟨m, rfl, rfl⟩⟩

theorem applyTamper_kept (k : TampSrc) (v : Nat) (s : State) : EventKept s (applyTamper k v s) := by
  rw [applyTamper_eq]
  exact ((((tamperLatched_kept k v s).trans (tamperNoted_kept _ _ _ _)).trans (tamperZeroized_kept _ _)).trans
    (tamperMarked_kept _ _ _ _)).trans (tamperWoken_kept _ _)

theorem pulseOver_kept (s : State) : EventKept s (pulseOver s) := by
  unfold pulseOver
  split_ifs <;> exact .of_parts rfl rfl rfl rfl rfl rfl

theorem dpasGuard_kept (s : State) : EventKept s (dpasGuard s) := by
  unfold dpasGuard endPulse
  split_ifs
  · exact (pulseOver_kept s).trans (commitInternal_kept _ _)
  · exact .refl s
  · exact .refl s

theorem alarmTrack_kept (s : State) : EventKept s (alarmTrack s) := by
  rw [alarmTrack_eq]
  exact .of_parts rfl rfl rfl rfl rfl rfl

/-- The event of the clock source, where nothing is in flight. -/
theorem clockEvent_kept {s : State} (h : Quiet s) : EventKept s (clockEvent s) := by
  have k := (applyTamper_kept .clock 0 s).trans (dpasGuard_kept _)
  rw [clockEvent, settle_quiet (k.quiet h)]
  exact k.trans (alarmTrack_kept _)

/-! ## The crystal (02_lode_clock.md R41, R43; 04_staged_start.md R78) -/

theorem badWindows_iff {w1 w2 : Nat} : (badWindow w1 && badWindow w2) = true ↔ CrystalBad w1 w2 := by
  simp [badWindow, CrystalBad]

theorem act_live {dt : Nat} {f : State → State} {s : State} (hl : live s = true) : act dt f s = .next (f (elapse dt s)) := by
  simp [act, hl]

/-- The state in which a failing crystal leaves the clocks. -/
def onLfrcFailed (s : State) : State := { s with clk := { s.clk with xtalFail := true, onLfrc := true, xtalQual := false } }

theorem crystalFailed_eq (n : Nat) (s : State) :
    crystalFailed n s = clockEvent (logEvent 0x04 (leBytes 4 n) (onLfrcFailed s)) := rfl

/-- A failed crystal: AON runs from the LFRC; the log entry and the event of the clock source keep the rest. -/
theorem crystalFailed_spec {s : State} (h : Quiet s) (n : Nat) :
    let t := crystalFailed n s
    t.clk.onLfrc = true ∧ t.clk.xtalFail = true ∧ t.clk.xtalQual = false ∧ t.clk.napDue = s.clk.napDue ∧
      t.tmr.base = s.tmr.base ∧ t.par = s.par := by
  have hq : Quiet (onLfrcFailed s) := quiet_congr h rfl rfl
  have kl : EventKept (onLfrcFailed s) (logEvent 0x04 (leBytes 4 n) (onLfrcFailed s)) := logRaise_kept _ _ _ _
  have k := kl.trans (clockEvent_kept (kl.quiet hq))
  rw [← crystalFailed_eq] at k
  dsimp only
  rw [k.clk]
  exact ⟨rfl, rfl, rfl, rfl, k.base, k.par⟩

theorem exec_crystalFailure (dt w1 w2 n : Nat) (s : State) :
    exec (.crystalFailure dt w1 w2 n) s = execCrystalFailure dt w1 w2 n s := by rfl

theorem exec_crystalQualified (dt : Nat) (s : State) : exec (.crystalQualified dt) s = execCrystalQualified dt s := by rfl

theorem exec_crystalQualifyTimeout (s : State) : exec .crystalQualifyTimeout s = execCrystalQualifyTimeout s := by rfl

theorem crystalFailure_good {dt w1 w2 : Nat} {s : State} (n : Nat) (hl : live s = true) (h : ¬CrystalBad w1 w2) :
    execCrystalFailure dt w1 w2 n s = .next (elapse dt s) := by
  rw [execCrystalFailure, act_live hl, if_neg (mt badWindows_iff.1 h)]

theorem crystalFailure_bad {dt w1 w2 : Nat} {s : State} (n : Nat) (hl : live s = true) (h : CrystalBad w1 w2) :
    execCrystalFailure dt w1 w2 n s = .next (crystalBad n (elapse dt s)) := by
  rw [execCrystalFailure, act_live hl, if_pos (badWindows_iff.2 h)]

theorem crystalQualified_eq {dt : Nat} {s : State} (hl : live s = true) :
    execCrystalQualified dt s = .next (if (elapse dt s).clk.onLfrc then
      { elapse dt s with clk := { (elapse dt s).clk with xtalQual := true } } else elapse dt s) := by
  rw [execCrystalQualified, act_live hl]

/-- The state in which the 10 s of an unqualified crystal end. -/
def napSkipped (s : State) : State := { s with clk := { s.clk with napDue := false } }

theorem crystalQualifyTimeout_eq {s : State} (hl : live s = true) (hn : s.clk.napDue = true) (ho : s.clk.onLfrc = true)
    (hx : s.clk.xtalQual = false) :
    execCrystalQualifyTimeout s = .next (crystalFailed 0 (napSkipped (elapseTo (secTicks 10) s))) := by
  simp [execCrystalQualifyTimeout, actAt, qualifyDue, hl, hn, ho, hx, napSkipped]

theorem crystalEventsAct : CrystalEventsAct := by
  intro dt w1 w2 n s hl r
  refine ⟨fun hg => ?_, fun ho => ⟨?_, fun hb => ?_⟩, fun ho => ?_, ?_, fun hn ho hx hq => ?_⟩
  · exact (exec_crystalFailure ..).trans (crystalFailure_good n hl hg)
  · rw [exec_crystalQualified, crystalQualified_eq hl, if_pos ho]
  · rw [exec_crystalFailure, crystalFailure_bad n hl hb, crystalBad, if_pos ho]
  · rw [exec_crystalQualified, crystalQualified_eq hl, if_neg (by simp [r, ho])]
  · intro w ho hb hq
    obtain ⟨h1, h2, h3, -, h5, h6⟩ := crystalFailed_spec hq n
    refine ⟨_, ?_, h1, h2, h3, h5, h6⟩
    rw [exec_crystalFailure, crystalFailure_bad n hl hb, crystalBad, if_neg (by simp [r, ho])]
  · have hq' : Quiet (napSkipped (elapseTo (secTicks 10) s)) := quiet_congr hq rfl rfl
    obtain ⟨h1, h2, h3, h4, -, -⟩ := crystalFailed_spec hq' 0
    refine ⟨_, ?_, h1, h2, h3, h4⟩
    rw [exec_crystalQualifyTimeout, crystalQualifyTimeout_eq hl hn ho hx]

/-! ## Both cores' reset (01_buoy_system.md R19; 02_lode_clock.md R44; 04_staged_start.md R98) -/

/-- Both cores reset with a reason, before AON or Lode is touched. -/
def coresDown (reason : Nat) (s : State) : State :=
  let c := retain (warmClear (pulseOver s))
  { c with
    pwr := { c.pwr with mode := .run }
    start := { c.start with
      stage := .ember, reason := reason, warmCount := satTo 65535 (c.start.warmCount + 1), life := true
      startBase := now s, romFails := 0, released := false, patchDone := false } }

/-- What both cores' reset takes the part in state `s` to: Ember on the warm path with a reason, in Run, nothing in flight, and the
parameters as they were. -/
structure CoresReset (reason : Nat) (s t : State) : Prop where
  stage    : t.start.stage = .ember
  reason   : t.start.reason = reason
  released : t.start.released = false
  count    : t.start.warmCount = min (s.start.warmCount + 1) 65535
  mode     : t.pwr.mode = .run
  quiet    : Quiet t
  par      : t.par = s.par

/-- What keeps the stage, the mode, the parameters and that nothing is in flight keeps what a reset has done. -/
theorem CoresReset.of_kept {reason : Nat} {s t u : State} (h : CoresReset reason s t) (hs : u.start = t.start)
    (hm : u.pwr.mode = t.pwr.mode) (hp : u.par = t.par) (hq : Quiet u) : CoresReset reason s u :=
  ⟨by rw [hs, h.stage], by rw [hs, h.reason], by rw [hs, h.released], by rw [hs, h.count], hm.trans h.mode, hq,
    hp.trans h.par⟩

theorem pulseOver_start (s : State) : (pulseOver s).start = s.start := by unfold pulseOver; split_ifs <;> rfl

theorem pulseOver_clk (s : State) : (pulseOver s).clk = s.clk := by unfold pulseOver; split_ifs <;> rfl

/-- The retained block is written into one of its two copies, and nothing else changes. -/
theorem retain_eq (s : State) :
    retain s = { s with start := { s.start with retA := (retain s).start.retA, retB := (retain s).start.retB } } := by
  unfold retain
  dsimp only
  split_ifs <;> rfl

@[simp] theorem retain_clk (s : State) : (retain s).clk = s.clk := by rw [retain_eq]

@[simp] theorem retain_pwr (s : State) : (retain s).pwr = s.pwr := by rw [retain_eq]

@[simp] theorem retain_warmCount (s : State) : (retain s).start.warmCount = s.start.warmCount := by rw [retain_eq]

@[simp] theorem retain_tmr (s : State) : (retain s).tmr = s.tmr := by rw [retain_eq]

@[simp] theorem retain_par (s : State) : (retain s).par = s.par := by rw [retain_eq]

@[simp] theorem retain_sprue (s : State) : (retain s).sprue = s.sprue := by rw [retain_eq]

@[simp] theorem warmClear_clk (s : State) :
    (warmClear s).clk = { s.clk with halt := false, attachedAt := none, dbgLast := 0, lockTry := 0 } := rfl

@[simp] theorem warmClear_deferred (s : State) : (warmClear s).pwr.deferred = [] := rfl

@[simp] theorem warmClear_warmCount (s : State) : (warmClear s).start.warmCount = s.start.warmCount := rfl

@[simp] theorem warmClear_base (s : State) : (warmClear s).tmr.base = s.tmr.base := rfl

@[simp] theorem warmClear_par (s : State) : (warmClear s).par = s.par := rfl

@[simp] theorem warmClear_sprue (s : State) : (warmClear s).sprue = { Sprue.reset with nextId := s.sprue.nextId } := rfl

theorem coresDown_quiet (reason : Nat) (s : State) : Quiet (coresDown reason s) := by
  have hs : (coresDown reason s).sprue = { Sprue.reset with nextId := (pulseOver s).sprue.nextId } := by simp [coresDown]
  refine ⟨?_, ?_, ?_, ?_⟩
  · rw [hs]
    intro i
    simp [Sprue.reset]
  · rw [hs]
    rfl
  · rw [hs]
    rfl
  · simp [coresDown]

theorem coresDown_reset (reason : Nat) (s : State) : CoresReset reason s (coresDown reason s) where
  stage := rfl
  reason := rfl
  released := rfl
  count := by simp [coresDown, satTo, pulseOver_start]
  mode := rfl
  quiet := coresDown_quiet reason s
  par := by simp [coresDown, (pulseOver_kept s).par]

@[simp] theorem coresDown_clk (reason : Nat) (s : State) :
    (coresDown reason s).clk = { s.clk with halt := false, attachedAt := none, dbgLast := 0, lockTry := 0 } := by
  simp [coresDown, pulseOver_clk]

@[simp] theorem coresDown_base (reason : Nat) (s : State) : (coresDown reason s).tmr.base = s.tmr.base := by
  simp [coresDown, (pulseOver_kept s).base]

/-! ## AON and Lode at a reset (02_lode_clock.md R38, R43; assumption log 126) -/

theorem returnToCrystal_stay {s : State} (h : s.clk.onLfrc = false ∨ s.clk.xtalQual = false) : returnToCrystal s = s := by
  rcases h with h | h <;> simp [returnToCrystal, h]

/-- A return to the crystal changes the source of AON and raises a log entry at most. -/
theorem returnToCrystal_eq (s : State) :
    returnToCrystal s =
      { s with clk := { s.clk with onLfrc := (returnToCrystal s).clk.onLfrc }, tamp := (returnToCrystal s).tamp } := by
  unfold returnToCrystal
  split_ifs
  · dsimp only
    rw [logEvent_eq]
  · rfl

theorem returnToCrystal_onLfrc {s : State} (hx : s.clk.xtalQual = true) : (returnToCrystal s).clk.onLfrc = false := by
  cases ho : s.clk.onLfrc with
  | false => rw [returnToCrystal_stay (.inl ho), ho]
  | true => simp [returnToCrystal, ho, hx]

/-- Lode starts to lock again, AON back on a qualified crystal. -/
def relocked (s : State) : State := relock (returnToCrystal s)

theorem relocked_eq (s : State) :
    relocked s = { s with
      clk := { s.clk with onLfrc := (returnToCrystal s).clk.onLfrc, lode := .locking, lodeStart := now s }
      tamp := (returnToCrystal s).tamp } := by
  unfold relocked relock now
  rw [returnToCrystal_eq]

theorem CoresReset.relocked {reason : Nat} {s t : State} (h : CoresReset reason s t) : CoresReset reason s (relocked t) := by
  rw [relocked_eq]
  exact h.of_kept rfl rfl rfl (quiet_congr h.quiet rfl rfl)

theorem coreReset_lost (reason : Nat) (s : State) : coreReset reason true s = relocked (coresDown reason s) := rfl

theorem coreReset_held (reason : Nat) (s : State) :
    coreReset reason false s =
      let r := coresDown reason s
      if r.clk.onLfrc && r.clk.xtalQual && r.clk.lode == .on then relocked (elapseTo (upSlow (now r)) r)
      else returnToCrystal r := rfl

/-- Where AON does not return to the crystal, Lode runs on. -/
theorem coreReset_stay (reason : Nat) {s : State} (h : s.clk.onLfrc = false ∨ s.clk.xtalQual = false) :
    coreReset reason false s = coresDown reason s := by
  have hb : (s.clk.onLfrc && s.clk.xtalQual) = false := by rcases h with h | h <;> simp [h]
  have hr : returnToCrystal (coresDown reason s) = coresDown reason s := returnToCrystal_stay (by simpa using h)
  simp [coreReset_held, hb, hr]

/-- Where AON returns to the crystal, Lode stops at the next SLOW edge and starts again. -/
theorem coreReset_back (reason : Nat) {s : State} (hl : s.clk.lode = .on) (ho : s.clk.onLfrc = true)
    (hx : s.clk.xtalQual = true) :
    coreReset reason false s = relocked (elapseTo (upSlow (now s)) (coresDown reason s)) := by
  simp [coreReset_held, hl, ho, hx, now]

theorem le_upSlow (t : Nat) : t ≤ upSlow t := by unfold upSlow; omega

/-- Time passes over a part whose cores have been reset. -/
theorem CoresReset.elapseTo {reason : Nat} {s t : State} (h : CoresReset reason s t) (e : Nat) :
    CoresReset reason s (elapseTo e t) := by
  have p : Passed t (Machine.elapseTo e t) := elapseTo_passed h.mode
  exact h.of_kept p.start p.mode p.par (quiet_of_passed h.quiet p)

/-- A watchdog's reset takes both cores to Ember, and the base on to the next SLOW edge where AON returns to the crystal. -/
theorem coreReset_watchdog {s : State} (hl : s.clk.lode = .on) :
    let t := coreReset 5 false s
    CoresReset 5 s t ∧
      (s.clk.onLfrc = false ∨ s.clk.xtalQual = false → t.tmr.base = s.tmr.base ∧ t.clk.lode = .on) ∧
      (s.clk.onLfrc = true → s.clk.xtalQual = true → t.tmr.base = upSlow (now s) ∧ t.clk.lode = .locking ∧
        t.clk.lodeStart = now t ∧ t.clk.onLfrc = false) := by
  intro t
  have hd := coresDown_reset 5 s
  have stays (h : s.clk.onLfrc = false ∨ s.clk.xtalQual = false) : t = coresDown 5 s := coreReset_stay 5 h
  have returns (ho : s.clk.onLfrc = true) (hx : s.clk.xtalQual = true) :
      t = relocked (elapseTo (upSlow (now s)) (coresDown 5 s)) := coreReset_back 5 hl ho hx
  refine ⟨?_, fun h => ?_, fun ho hx => ?_⟩
  · by_cases h : s.clk.onLfrc = true ∧ s.clk.xtalQual = true
    · rw [returns h.1 h.2]
      exact (hd.elapseTo _).relocked
    · rw [stays (by simpa [imp_iff_not_or] using h)]
      exact hd
  · rw [stays h, coresDown_base, coresDown_clk]
    exact ⟨rfl, hl⟩
  · have p : Passed (coresDown 5 s) (elapseTo (upSlow (now s)) (coresDown 5 s)) := elapseTo_passed hd.mode
    have hr : tmrRuns (coresDown 5 s) = true := tmrRuns_iff.2 (by simp [hl])
    have hq : (elapseTo (upSlow (now s)) (coresDown 5 s)).clk.xtalQual = true := by simp [p.clk, hx]
    have hb : (elapseTo (upSlow (now s)) (coresDown 5 s)).tmr.base = upSlow (now s) := by
      rw [elapseTo_base_run hd.mode, edgeFor_fine hr, coresDown_base]
      exact max_eq_left (le_upSlow _)
    rw [returns ho hx, relocked_eq]
    exact ⟨hb, rfl, rfl, returnToCrystal_onLfrc hq⟩

/-- The part once a loss of lock has been flagged and logged. -/
def lockLost (s : State) : State :=
  logEvent 0x06 (leBytes 1 s.clk.lockTry) { s with clk := { s.clk with lodeUnlock := true } }

theorem lockLost_eq (s : State) :
    lockLost s = { s with clk := { s.clk with lodeUnlock := true }, tamp := (lockLost s).tamp } := logEvent_eq _ _ _

theorem unlockNow_eq (s : State) : unlockNow s = clockEvent (relocked (coresDown 6 (lockLost s))) :=
  congrArg clockEvent (coreReset_lost 6 _)

/-- A loss of lock is flagged and takes both cores to Ember, where Lode locks anew; the event of the clock source keeps that. -/
theorem unlockNow_spec (s : State) :
    let t := unlockNow s
    CoresReset 6 s t ∧ t.clk.lodeUnlock = true ∧ t.clk.lode = .locking ∧ t.tmr.base = s.tmr.base := by
  have hr : CoresReset 6 (lockLost s) (relocked (coresDown 6 (lockLost s))) := (coresDown_reset 6 _).relocked
  have hu : CoresReset 6 s (relocked (coresDown 6 (lockLost s))) :=
    ⟨hr.stage, hr.reason, hr.released, by rw [hr.count, lockLost_eq], hr.mode, hr.quiet, by rw [hr.par, lockLost_eq]⟩
  have k := clockEvent_kept hu.quiet
  obtain ⟨km, kc, ks⟩ := k.run hu.mode
  rw [unlockNow_eq]
  refine ⟨hu.of_kept ks (km.trans hu.mode.symm) k.par (k.quiet hu.quiet), ?_, ?_, ?_⟩
  · rw [kc, relocked_eq, coresDown_clk, lockLost_eq]
  · rw [kc, relocked_eq]
  · rw [k.base, relocked_eq, coresDown_base, lockLost_eq]

theorem exec_lodeUnlock (dt : Nat) (s : State) : exec (.lodeUnlock dt) s = execLodeUnlock dt s := by rfl

theorem exec_coreWatchdog (dt : Nat) (core : Core) (s : State) : exec (.coreWatchdog dt core) s = execCoreWatchdog dt core s := by
  rfl

theorem lodeUnlock_eq {dt : Nat} {s : State} (hl : live s = true) :
    execLodeUnlock dt s =
      .next (if lodeOn (elapse dt s) then unlockNow (elapse dt s) else elapse dt s) := by
  rw [execLodeUnlock, act_live hl]

theorem coreWatchdog_eq {dt : Nat} {core : Core} {s : State} (hl : live s = true) :
    let w := elapseTo (upAon (now (elapse dt s))) (elapse dt s)
    execCoreWatchdog dt core s =
      .next (if lodeOn w && w.start.released && !w.clk.halt && decide (65536 ≤ wdCount core w) then coreReset 5 false w
        else w) := by
  rw [execCoreWatchdog, act_live hl]

theorem watchdogBites_iff {core : Core} {s : State} :
    (lodeOn s && s.start.released && !s.clk.halt && decide (65536 ≤ wdCount core s)) = true ↔
      s.clk.lode = .on ∧ s.clk.halt = false ∧ s.start.released = true ∧ 65536 ≤ wdCount core s := by
  simp only [lodeOn, Bool.and_eq_true, beq_iff_eq, Bool.not_eq_true', decide_eq_true_eq]
  tauto

theorem lossOfLockAndWatchdogReset : LossOfLockAndWatchdogReset := by
  intro dt core s hl
  constructor
  · intro r
    refine ⟨fun h => ?_, fun h => ?_⟩
    · obtain ⟨c, hu, hk, hb⟩ := unlockNow_spec r
      refine ⟨_, ?_, hu, hk, c.stage, c.reason, c.count, c.quiet, hb, by rw [c.par]⟩
      rw [exec_lodeUnlock, lodeUnlock_eq hl, if_pos (by simp [lodeOn, r, h])]
    · rw [exec_lodeUnlock, lodeUnlock_eq hl, if_neg (by simpa [lodeOn] using h)]
  · intro w
    refine ⟨fun h1 h2 h3 h4 => ?_, fun h => ?_⟩
    · obtain ⟨c, hs, hr⟩ := coreReset_watchdog h1
      refine ⟨_, ?_, c.stage, c.reason, c.released, c.count, c.quiet, by rw [c.par], hs, hr⟩
      rw [exec_coreWatchdog, coreWatchdog_eq hl, if_pos (watchdogBites_iff.2 ⟨h1, h2, h3, h4⟩)]
    · rw [exec_coreWatchdog, coreWatchdog_eq hl, if_neg]
      rw [watchdogBites_iff]
      rintro ⟨h1, h2, h3, h4⟩
      rcases h with h | h | h | h
      · exact h h1
      · cases h.symm.trans h2
      · cases h.symm.trans h3
      · exact absurd h4 (Nat.not_le.2 h)

/-- Settles O30: a failing clock is flagged and logged, and its tamper event keeps the clocks, the base and the parameters; both
cores' reset keeps the base but where Lode stops for the crystal. -/
theorem clockEventsAct : Obligations.ClockEventsAct := ⟨crystalEventsAct, lossOfLockAndWatchdogReset⟩

end Sys2Proof.Machine

/-! SUPPORT. The staged start up to Melt: the first Lode start, its retries and its epoch, the ROM digest and the patch, and the
wake that a tamper event begins during Pour where the power mode is Watch (02_lode_clock.md R38; 04_staged_start.md R78 to R101). -/

namespace Sys2Proof.Machine

/-! ## Ember and Lode (02_lode_clock.md R38; 04_staged_start.md R78 to R80, R101) -/

theorem actAt_due {deadline : State → Option Nat} {f : State → State} {s : State} {t : Nat} (hl : live s = true)
    (hd : deadline s = some t) : actAt deadline f s = .next (f (elapseTo t s)) := by
  simp [actAt, hl, hd]

theorem exec_fllLock (s : State) : exec .fllLock s = execFllLock s := by rfl

theorem exec_emberComplete (pin : Bool) (s : State) : exec (.emberComplete pin) s = execEmberComplete pin s := by rfl

theorem exec_lodeLockRetry (s : State) : exec .lodeLockRetry s = execLodeLockRetry s := by rfl

theorem exec_lodeEpoch (dt : Nat) (s : State) : exec (.lodeEpoch dt) s = execLodeEpoch dt s := by rfl

theorem fllDue_unlocked {s : State} (hs : s.start.stage = .ember) (hf : s.clk.fllLock = false) : fllDue s = some 4000 := by
  simp [fllDue, hs, hf]

theorem emberDue_locked {s : State} (hf : s.clk.fllLock = true) (he : s.start.emberDone = false) :
    emberDue s = some 12250 := by
  simp [emberDue, hf, he]

theorem emberOver_free (pin : Bool) {s : State} (hb : s.pwr.bow = false) :
    emberOver pin s =
      startLode { s with start := { s.start with hsel := pin && s.pwr.vddioMin, emberDone := true } } := by
  simp [emberOver, hb]

theorem emberOver_bow (pin : Bool) {s : State} (hb : s.pwr.bow = true) :
    emberOver pin s = { s with start := { s.start with hsel := pin && s.pwr.vddioMin, emberDone := true } } := by
  simp [emberOver, hb]

/-- Lode may be started again: in Run, with no second mismatch of the ROM digest. -/
theorem lockRetryAt_locking {s : State} (hm : s.pwr.mode = .run) (hf : s.start.romFails < 2) (hk : s.clk.lode = .locking) :
    lockRetryAt s = some (s.clk.lodeStart + 13 * 250) := by
  simp [lockRetryAt, hm, hk, Nat.not_le.2 hf]

theorem lockRetryAt_off {s : State} (hm : s.pwr.mode = .run) (hf : s.start.romFails < 2) (hk : s.clk.lode = .off)
    (h0 : 0 < s.clk.lockTry) :
    lockRetryAt s =
      some (if s.clk.lockTry < 3 then upSlow (s.clk.lodeStart + 13 * 250 + 1) else s.clk.lodeStart + 32768 * 250) := by
  simp [lockRetryAt, hm, hk, h0, Nat.not_le.2 hf]

/-- An attempt that has failed, but for the third, stops Lode and counts; the count holds at 3. -/
theorem lockRetry_locking {s : State} (hk : s.clk.lode = .locking) (h : s.clk.lockTry ≠ 2) :
    lockRetry s = { s with clk := { s.clk with lode := .off, lockTry := min (s.clk.lockTry + 1) 3 } } := by
  simp [lockRetry, hk, h, satTo]

/-- The third attempt that has failed also sets start fault 0x1, which is logged. -/
theorem lockRetry_third {s : State} (hk : s.clk.lode = .locking) (h : s.clk.lockTry = 2) :
    lockRetry s = logEvent 0x02 (leBytes 1 1 ++ leBytes 1 3)
      { s with clk := { s.clk with lode := .off, lockTry := 3 }, start := { s.start with fault := 1 } } := by
  simp [lockRetry, hk, h, satTo]

theorem lockRetry_off {s : State} (hk : s.clk.lode = .off) : lockRetry s = startLode s := by simp [lockRetry, hk]

theorem execLodeEpoch_eq {dt : Nat} {s : State} (hl : live s = true) :
    execLodeEpoch dt s =
      let r := elapse dt s
      .next (if lockInTime r then epochNow (elapseTo (upSlow (now r)) r) else r) := by
  rw [execLodeEpoch, act_live hl]

theorem lockInTime_iff {s : State} : lockInTime s = true ↔ s.clk.lode = .locking ∧ now s ≤ s.clk.lodeStart + 3250 := by
  simp [lockInTime]

/-- Before Pour nothing waits for the epoch. -/
theorem epochNow_early {s : State} (h : atLeast s .pour = false) :
    epochNow s = { s with
      clk := { s.clk with lode := .on, epochs := min (s.clk.epochs + 1) 65535 }
      tmr := { s.tmr with epoch := now s }
      tamp := { s.tamp with logWait := s.tamp.logWait.map (unlockEntry s) }
      start := { s.start with fault := if s.start.fault = 1 then 0 else s.start.fault } } := by
  exact if_neg (by simpa [atLeast] using h)

/-- Settles O27: each event is due at its own deadline, and the time up to it keeps what its case rests on, as the part is in
Run. -/
theorem emberStartsLode : Obligations.EmberStartsLode := by
  unfold Obligations.EmberStartsLode
  intro dt pin s hl
  refine ⟨fun hs hf => ?_, fun hf he => ⟨fun hb => ?_, fun hb => ?_⟩, fun hm hf hk => ?_, fun hm hf hk h0 h3 => ?_, ?_⟩
  · rw [exec_fllLock, execFllLock, actAt_due hl (fllDue_unlocked hs hf)]
    rfl
  · rw [exec_emberComplete, execEmberComplete, actAt_due hl (emberDue_locked hf he), emberOver_free pin hb]
    rfl
  · rw [exec_emberComplete, execEmberComplete, actAt_due hl (emberDue_locked hf he), emberOver_bow pin hb]
  · have p : Passed s (elapseTo (s.clk.lodeStart + 13 * 250) s) := elapseTo_passed hm
    have hw : (elapseTo (s.clk.lodeStart + 13 * 250) s).clk.lode = .locking := by rw [p.clk, hk]
    rw [exec_lodeLockRetry, execLodeLockRetry, actAt_due hl (lockRetryAt_locking hm hf hk)]
    refine ⟨fun h => ?_, fun h => ⟨_, rfl, ?_⟩, fun h => ?_⟩
    · rw [lockRetry_locking hw (by rw [p.clk]; omega), p.clk, Nat.min_eq_left (by omega)]
    · rw [lockRetry_third hw (by rw [p.clk, h])]
      exact logEvent_eq _ _ _
    · rw [lockRetry_locking hw (by rw [p.clk]; omega), p.clk, Nat.min_eq_right (by omega)]
  · rw [exec_lodeLockRetry, execLodeLockRetry, actAt_due hl (lockRetryAt_off hm hf hk h0), lockRetry_off]
    · rfl
    · rw [(elapseTo_passed hm).clk, hk]
  · intro r w
    rw [exec_lodeEpoch, execLodeEpoch_eq hl]
    refine ⟨fun h => ?_, fun hk hn hp => ⟨_, congrArg _ (if_pos (lockInTime_iff.2 ⟨hk, hn⟩)), ?_⟩⟩
    · exact congrArg _ (if_neg (by rw [lockInTime_iff, not_and_or, Nat.not_le]; exact h))
    · rw [epochNow_early hp]
      exact ⟨rfl, rfl, rfl, rfl⟩

/-! ## The boot sequencer (04_staged_start.md R85 to R90) -/

theorem exec_romDigestCheck (dt : Nat) (ok : Bool) (s : State) :
    exec (.romDigestCheck dt ok) s = execRomDigestCheck dt ok s := by rfl

theorem exec_patchVerify (dt : Nat) (s : State) : exec (.patchVerify dt) s = execPatchVerify dt s := by rfl

theorem exec_meltReached (dt : Nat) (s : State) : exec (.meltReached dt) s = execMeltReached dt s := by rfl

theorem romCheck_match {s : State} (hb : booting s = true) (hr : s.start.released = false) :
    romCheck true s =
      { s with start := { s.start with released := true }, tmr := { s.tmr with wdA := 0, wdB := 0 } } := by
  simp [romCheck, hb, hr]

theorem romCheck_firstMismatch {s : State} (hb : booting s = true) (hr : s.start.released = false)
    (hf : s.start.romFails = 0) : romCheck false s = { s with start := { s.start with romFails := 1 } } := by
  simp [romCheck, hb, hr, hf]

/-- The part once a second mismatch of the ROM digest has set start fault 0x2 and logged it. -/
def romRejected (s : State) : State :=
  logEvent 0x02 (leBytes 1 2 ++ leBytes 1 s.clk.lockTry) { s with start := { s.start with romFails := 2, fault := 2 } }

theorem romRejected_eq (s : State) :
    romRejected s = { s with start := { s.start with romFails := 2, fault := 2 }, tamp := (romRejected s).tamp } :=
  logEvent_eq _ _ _

theorem romCheck_secondMismatch {s : State} (hb : booting s = true) (hr : s.start.released = false)
    (hf : s.start.romFails = 1) :
    let u := elapseTo (upSlow (now (romRejected s))) (romRejected s)
    romCheck false s = { u with clk := { u.clk with lode := .off } } := by
  simp [romCheck, romRejected, hb, hr, hf]

theorem le_edgeFor (s : State) (t : Nat) : t ≤ edgeFor s t := by
  unfold edgeFor upAon
  split_ifs <;> omega

/-- Lode stops at the next SLOW edge, and until then time passes over a part that has noted start fault 0x2. -/
theorem romCheck_stopsLode {s : State} (hb : booting s = true) (hr : s.start.released = false) (hf : s.start.romFails = 1)
    (hm : s.pwr.mode = .run) :
    let t := romCheck false s
    t.clk = { s.clk with lode := .off } ∧ t.start = { s.start with romFails := 2, fault := 2 } ∧
      t.tmr.base = edgeFor s (upSlow (now s)) ∧ t.par = s.par ∧ t.sec = s.sec ∧ t.nv = s.nv := by
  have he := romRejected_eq s
  have hm' : (romRejected s).pwr.mode = .run := by rw [he, hm]
  have hn : now (romRejected s) = now s := by rw [he]; rfl
  have p : Passed (romRejected s) (elapseTo (upSlow (now s)) (romRejected s)) := elapseTo_passed hm'
  have hb' : (elapseTo (upSlow (now s)) (romRejected s)).tmr.base = edgeFor s (upSlow (now s)) := by
    rw [elapseTo_base_run hm', edgeFor_congr (s := s) (by rw [he]), he]
    exact max_eq_left ((le_upSlow _).trans (le_edgeFor s _))
  dsimp only
  rw [romCheck_secondMismatch hb hr hf, hn]
  dsimp only
  rw [p.clk, p.start, p.par, p.sec, p.nv, hb', he]
  exact ⟨rfl, rfl, rfl, rfl, rfl, rfl⟩

theorem patchCause_startMelt (s : State) : patchCause (startMelt s) = patchCause s := rfl

/-- A patch is checked once, by a boot sequencer that has released the cores. -/
theorem patchCheck_open {s : State} (hb : booting s = true) (hr : s.start.released = true) (hp : s.start.patchDone = false) :
    ¬(!booting s || !s.start.released || s.start.patchDone) = true := by
  simp [hb, hr, hp]

/-- A blank patch area installs none. -/
theorem patchCheck_blank {s : State} (hb : booting s = true) (hr : s.start.released = true) (hp : s.start.patchDone = false)
    (h : patchAt s 0 = 0xFFFFFFFF#32) :
    patchCheck s = { startMelt s with start := { s.start with patchDone := true, patchVer := 0 } } :=
  (if_neg (patchCheck_open hb hr hp)).trans (if_pos h)

/-- A good patch is installed with its version. -/
theorem patchCheck_good {s : State} (hb : booting s = true) (hr : s.start.released = true) (hp : s.start.patchDone = false)
    (h : patchAt s 0 ≠ 0xFFFFFFFF#32) (hc : patchCause s = none) :
    patchCheck s = { startMelt s with
      start := { s.start with patchDone := true, patchVer := (patchAt s 1).toNat % 65536 } } := by
  refine (if_neg (patchCheck_open hb hr hp)).trans ((if_neg h).trans ?_)
  rw [patchCause_startMelt, hc]
  rfl

/-- A bad patch is rejected with start fault 0x3 and its cause is logged. -/
theorem patchCheck_bad {s : State} (hb : booting s = true) (hr : s.start.released = true) (hp : s.start.patchDone = false)
    (h : patchAt s 0 ≠ 0xFFFFFFFF#32) {c : Nat} (hc : patchCause s = some c) :
    patchCheck s = logEvent 0x03 (leBytes 2 ((patchAt s 1).toNat % 65536) ++ leBytes 1 c)
      { startMelt s with start := { s.start with patchDone := true, patchVer := 0, fault := 3 } } := by
  refine (if_neg (patchCheck_open hb hr hp)).trans ((if_neg h).trans ?_)
  rw [patchCause_startMelt, hc]
  rfl

theorem meltReached_eq {dt : Nat} {s : State} (hl : live s = true) (hb : booting (elapse dt s) = true) :
    let r := elapse dt s
    execMeltReached dt s =
      .next (if r.start.patchDone && cqSettled r then { r with start := { r.start with stage := .melt } } else r) := by
  simp [execMeltReached, act_live hl, hb]

theorem cqSettled_iff {s : State} : cqSettled s = true ↔ s.cqa.settle = 0 ∧ s.cqb.settle = 0 := by simp [cqSettled]

/-- Settles O28: each check is one operation on the part that boots, case by case; a rejection is logged as well. -/
theorem bootReachesMelt : Obligations.BootReachesMelt := by
  unfold Obligations.BootReachesMelt
  intro dt s hl r hb
  refine ⟨fun hr => ⟨?_, fun hf => ?_, fun hf hm => ?_⟩, fun hr hp => ⟨fun h => ?_, fun h => ?_⟩, fun hp ha hB => ?_,
    fun h => ?_⟩
  · rw [exec_romDigestCheck, execRomDigestCheck, act_live hl, romCheck_match hb hr]
  · rw [exec_romDigestCheck, execRomDigestCheck, act_live hl, romCheck_firstMismatch hb hr hf]
  · refine ⟨_, ?_, romCheck_stopsLode hb hr hf hm⟩
    rw [exec_romDigestCheck, execRomDigestCheck, act_live hl]
  · rw [exec_patchVerify, execPatchVerify, act_live hl, patchCheck_blank hb hr hp h]
    rfl
  · split
    · next hc =>
      rw [exec_patchVerify, execPatchVerify, act_live hl, patchCheck_good hb hr hp h hc]
      rfl
    · next c hc =>
      rw [exec_patchVerify, execPatchVerify, act_live hl, patchCheck_bad hb hr hp h hc]
      exact ⟨_, rfl, logEvent_eq _ _ _⟩
  · rw [exec_meltReached, meltReached_eq hl hb, if_pos]
    rw [Bool.and_eq_true, cqSettled_iff]
    exact ⟨hp, ha, hB⟩
  · rw [exec_meltReached, meltReached_eq hl hb, if_neg]
    rw [Bool.and_eq_true, cqSettled_iff]
    rintro ⟨hp, ha, hB⟩
    rcases h with h | h | h
    · cases h.symm.trans hp
    · exact h ha
    · exact h hB

/-! ## Pour in a low-power mode (04_staged_start.md R93, R98, R100; 05_supply_and_modes.md R119) -/

/-- A part in Melt after a start of reason 0x4, with Lode on, a copy of the retained block and a configuration image, whose power
mode is Watch. -/
def watchInMelt : State :=
  { State.reset with
    clk := { State.reset.clk with lode := .on }
    pwr := { State.reset.pwr with mode := .watch }
    start := { State.reset.start with
      stage := .melt, reason := 4, retA := { State.reset.start.retA with seq := 1 }, imgWhole := true } }

/-- A supply step of 301 mV that the glitch source sees while the key of slot 0 is unwrapped. -/
def stepAtSlot0 : UnwrapHit := ⟨.glitch 301 0 0, 0⟩

/-- The event is a real one, its response is Q1 and no mark bars the unwrapping, so it wakes the part, and a wake from Watch gives
the start reason 0x7. -/
theorem warmPour_watchInMelt_reason :
    (warmPour ⟨0, 0, 0, 0⟩ ⟨true, true, true, true⟩ (some stepAtSlot0) watchInMelt).start.reason = 7 := by decide +kernel

theorem exec_pour (dt : Nat) (bits : Bits) (crc : Crcs) (hit : Option UnwrapHit) (s : State) :
    exec (.pour dt bits crc hit) s = execPour dt bits crc hit s := by rfl

theorem execPour_warm {dt : Nat} (bits : Bits) (crc : Crcs) (hit : Option UnwrapHit) {s : State} (hl : live s = true)
    (hc : canPour (elapse dt s) = true) (hr : 4 ≤ (elapse dt s).start.reason) :
    execPour dt bits crc hit s = .next (warmPour bits crc hit (elapse dt s)) := by
  rw [execPour, act_live hl, if_pos hc, pourNow, if_neg (by omega)]

/-- Refutes O29: no hypothesis puts the part in Run. With the mode at Watch, where the manual has Lode off but the statement leaves
it on, a GLITCH event while the keys are unwrapped begins a wake, so Pour is reached with reason 0x7 where the start had 0x4. -/
theorem not_pourIsReached : ¬ Obligations.PourIsReached := by
  unfold Obligations.PourIsReached
  intro h
  have he : elapse 0 watchInMelt = watchInMelt := by rfl
  have hq : Quiet watchInMelt := ⟨by decide, rfl, rfl, rfl⟩
  have hl : live watchInMelt = true := rfl
  have hp := h 0 ⟨0, 0, 0, 0⟩ ⟨true, true, true, true⟩ (some stepAtSlot0) watchInMelt hl
  rw [he] at hp
  obtain ⟨⟨t, ht, -, -, -, hreason, -⟩, -, -⟩ := hp hq rfl rfl rfl
  rw [exec_pour, execPour_warm _ _ _ hl (by rw [he]; rfl) (by rw [he]; decide), he] at ht
  injection ht with ht
  rw [← ht, warmPour_watchInMelt_reason] at hreason
  exact absurd hreason (by decide)

end Sys2Proof.Machine

/-! SUPPORT. The supply: the resets that hold the logic and the cold start they lead to, the levels of the supply pins
(04_staged_start.md R76, R82; 05_supply_and_modes.md R103 to R108). -/

namespace Sys2Proof.Machine

/-! ## Time does not touch the supply and NRST -/

theorem Passed.live_eq {s t : State} (h : Passed s t) : live t = live s := by rw [live, live, h.pwr]

theorem beginWake_live (s : State) : live (beginWake s) = live s := by
  unfold beginWake
  split <;> rfl

/-- A part that is live stays so while time passes, whatever its mode, and a wake on the way does not change it. -/
theorem elapseTo_live (t : Nat) (s : State) : live (elapseTo t s) = live s := by
  have raw (e : Nat) (u : State) : live (passRaw e u) = live u := (passRaw_passed e u).live_eq
  unfold elapseTo
  dsimp only
  split_ifs
  · split
    · rw [raw, beginWake_live, raw]
    · exact raw _ _
  · exact raw _ _

theorem elapse_live (dt : Nat) (s : State) : live (elapse dt s) = live s := by
  unfold elapse
  split_ifs
  · rfl
  · exact elapseTo_live _ _
  · exact elapseTo_live _ _

theorem live_iff {s : State} : live s = true ↔ s.pwr.powered = true ∧ s.pwr.nrstLow = false := by simp [live]

/-! ## Cold starts (04_staged_start.md R76; 05_supply_and_modes.md R107) -/

/-- Whether a reset holds the logic or not, the part stands at tick 0 of a cold start of its reason. -/
theorem holdReset_cold (powered nrstLow : Bool) (reason : Nat) (s : State) :
    Cold reason s (holdReset powered nrstLow reason s) where
  reason := rfl
  clk := rfl
  tmr := rfl
  front := ⟨rfl, rfl, rfl⟩
  models := ⟨rfl, rfl, rfl, rfl⟩
  par := rfl
  sar := rfl
  gauge := rfl
  sec := rfl
  ports := ⟨rfl, rfl, rfl⟩
  quiet := ⟨fun i => by simp [holdReset, coldStart, Sprue.reset], rfl, rfl, rfl⟩
  log := rfl
  store := ⟨rfl, rfl, rfl, rfl, rfl, rfl⟩
  dropped := ⟨rfl, rfl, rfl⟩
  pending := rfl

/-- A cold start is a reset that holds the logic no longer. -/
theorem coldStart_cold (reason : Nat) (s : State) : Cold reason s (coldStart reason s) ∧ live (coldStart reason s) = true :=
  ⟨holdReset_cold true false reason s, rfl⟩

theorem exec_powerOn (s : State) : exec .powerOn s = execPowerOn s := by rfl

theorem exec_nrstAssert (dt : Nat) (s : State) : exec (.nrstAssert dt) s = execNrstAssert dt s := by rfl

theorem exec_nrstRelease (dt : Nat) (s : State) : exec (.nrstRelease dt) s = execNrstRelease dt s := by rfl

theorem exec_bor (dt : Nat) (s : State) : exec (.bor dt) s = execBor dt s := by rfl

theorem nrstAssert_live {dt : Nat} {s : State} (hl : live s = true) :
    execNrstAssert dt s = .next (holdReset true true 2 (elapse dt s)) := by
  obtain ⟨-, hn⟩ := live_iff.1 hl
  obtain ⟨hp, -⟩ := live_iff.1 ((elapse_live dt s).trans hl)
  simp [execNrstAssert, nrstDown, hn, hp]

theorem bor_live {dt : Nat} {s : State} (hl : live s = true) :
    execBor dt s = .next (holdReset false s.pwr.nrstLow 1 (elapse dt s)) := by
  simp [execBor, (live_iff.1 hl).1]

theorem resetsStartCold : ResetsStartCold := by
  intro dt s
  refine ⟨fun hp => ?_, fun hp hn => ?_, fun hp hn => ⟨_, ?_, coldStart_cold 1 s⟩, fun hl => ?_,
    fun hp hn => ⟨_, ?_, coldStart_cold s.start.reason s⟩, fun hl => ?_⟩
  · rw [exec_powerOn, execPowerOn, if_pos hp]
  · rw [exec_powerOn, execPowerOn, if_neg (by simp [hp]), if_pos hn]
  · rw [exec_powerOn, execPowerOn, if_neg (by simp [hp]), if_neg (by simp [hn])]
  · exact ⟨_, (exec_nrstAssert dt s).trans (nrstAssert_live hl), holdReset_cold true true 2 _, rfl, rfl⟩
  · simp [exec_nrstRelease, execNrstRelease, hp, hn]
  · intro r
    obtain ⟨-, hs⟩ := live_iff.1 hl
    obtain ⟨-, hr⟩ := live_iff.1 ((elapse_live dt s).trans hl)
    refine ⟨_, (exec_bor dt s).trans (bor_live hl), holdReset_cold _ _ 1 r, rfl, rfl, ?_⟩
    rw [hs, show r.pwr.nrstLow = false from hr]
    rfl

/-! ## Supply levels (05_supply_and_modes.md R103, R105, R108) -/

theorem exec_vddioChange (dt mv : Nat) (s : State) : exec (.vddioChange dt mv) s = execVddioChange dt mv s := by rfl

theorem exec_supplyLadderStep (dt : Nat) (step : Fin 8) (s : State) :
    exec (.supplyLadderStep dt step) s = execSupplyLadderStep dt step s := by rfl

theorem supplyLevelsShow : SupplyLevelsShow := by
  intro dt mv step s hl r
  refine ⟨?_, fun hf => ?_, fun hf => ?_⟩
  · rw [exec_vddioChange, execVddioChange]
  · rw [exec_supplyLadderStep, execSupplyLadderStep, act_live hl, if_pos hf]
  · rw [exec_supplyLadderStep, execSupplyLadderStep, act_live hl, if_neg (by simp [r, hf])]

/-- Settles O25: every reset that holds the logic leaves the state of the cold start to come, and the supply levels are written
by their own commands alone. -/
theorem supplyAndResets : Obligations.SupplyAndResets := ⟨resetsStartCold, supplyLevelsShow⟩

end Sys2Proof.Machine

/-! SUPPORT. The brown-out warning: what it stops, what a commit of the part's own changes, and what its release lets go on
(04_staged_start.md R79; 05_supply_and_modes.md R106 to R111; 10_almanac_policy.md R248). -/

namespace Sys2Proof.Machine

/-! ## A commit of the part's own and the end of a pulse (10_almanac_policy.md R248; 15_ingot_store.md R364) -/

/-- The transaction of an internal commit; its one run after a release of BOW is its retry. -/
def internalTxn (l : List Rec) (s : State) : Txn := ⟨none, now s, .records, l, s.pwr.bow, false⟩

theorem commitInternal_room {l : List Rec} {s : State} (hl : l ≠ []) (hn : s.nv.queue.length < 8) :
    commitInternal l s = { s with nv := { s.nv with queue := s.nv.queue ++ [internalTxn l s] } } := by
  cases hb : s.pwr.bow <;> simp [commitInternal, enqueue, deferOp, internalTxn, hl, hn, hb]

theorem commitInternal_full {l : List Rec} {s : State} (hl : l ≠ []) (hn : ¬s.nv.queue.length < 8) :
    commitInternal l s = { s with nv := { s.nv with held := s.nv.held ++ [internalTxn l s] } } := by
  cases hb : s.pwr.bow <;> simp [commitInternal, enqueue, deferOp, internalTxn, hl, hn, hb]

theorem commitInternal_nil (s : State) : commitInternal [] s = s := rfl

/-- An internal commit waits in the store's queue or, where that is full, for room in it; nothing else changes. -/
theorem commitInternal_eq (l : List Rec) (s : State) :
    commitInternal l s = { s with nv := { s.nv with
      queue := (commitInternal l s).nv.queue, held := (commitInternal l s).nv.held } } := by
  by_cases hl : l = []
  · rw [hl, commitInternal_nil]
  · by_cases hn : s.nv.queue.length < 8
    · rw [commitInternal_room hl hn]
    · rw [commitInternal_full hl hn]

/-- What an internal commit puts into the queue waits for its retry under BOW. -/
theorem commitInternal_bowRetry {l : List Rec} {s : State} (hb : s.pwr.bow = true)
    (h : ∀ x ∈ s.nv.queue, x.bowRetry = true) : ∀ x ∈ (commitInternal l s).nv.queue, x.bowRetry = true := by
  by_cases hl : l = []
  · rwa [hl, commitInternal_nil]
  · by_cases hn : s.nv.queue.length < 8
    · rw [commitInternal_room hl hn]
      intro x hx
      rcases List.mem_append.1 hx with hx | hx
      · exact h x hx
      · rw [List.mem_singleton.1 hx]
        exact hb
    · rwa [commitInternal_full hl hn]

/-- After an internal commit of records the queue is not empty. -/
theorem commitInternal_queue_ne_nil {l : List Rec} (s : State) (hl : l ≠ []) : (commitInternal l s).nv.queue ≠ [] := by
  by_cases hn : s.nv.queue.length < 8
  · rw [commitInternal_room hl hn]
    exact List.concat_ne_nil _ _
  · rw [commitInternal_full hl hn]
    exact fun h => hn (by simp [show s.nv.queue = [] from h])

theorem pulseOver_eq (s : State) :
    pulseOver s = { s with pol := (pulseOver s).pol, tmr := { s.tmr with cdn := (pulseOver s).tmr.cdn } } := by
  unfold pulseOver
  split_ifs <;> rfl

theorem pulseOver_dpas (s : State) : (pulseOver s).pol.dpas = false := by
  cases h : s.pol.dpas <;> simp [pulseOver, h]

theorem endPulse_eq (s : State) :
    endPulse s = { s with
      pol := (pulseOver s).pol
      tmr := { s.tmr with cdn := (pulseOver s).tmr.cdn }
      nv := { s.nv with queue := (endPulse s).nv.queue, held := (endPulse s).nv.held } } := by
  unfold endPulse
  split_ifs with h
  · dsimp only
    rw [commitInternal_eq, pulseOver_eq]
  · rw [pulseOver, if_neg h]

theorem endPulse_off {s : State} (h : s.pol.dpas = false) : endPulse s = s := by simp [endPulse, h]

theorem endPulse_bowRetry {s : State} (hb : s.pwr.bow = true) (h : ∀ x ∈ s.nv.queue, x.bowRetry = true) :
    ∀ x ∈ (endPulse s).nv.queue, x.bowRetry = true := by
  have hp := pulseOver_eq s
  unfold endPulse
  split_ifs
  · exact commitInternal_bowRetry (by rw [hp]; exact hb) (by rw [hp]; exact h)
  · exact h

theorem endPulse_kept (s : State) : EventKept s (endPulse s) := by
  unfold endPulse
  split_ifs
  · exact (pulseOver_kept s).trans (commitInternal_kept _ _)
  · exact .refl s

/-! ## What BOW does to the store (05_supply_and_modes.md R109; 15_ingot_store.md R372) -/

/-- What holding transactions up changes: the store, the operations that wait for it, and where a retry is cut off
the log and the marks of its COMMIT. `first` says that none is a retry. -/
structure StoreHeld (first : Prop) (s t : State) : Prop where
  rest  : t = { s with sprue := t.sprue, par := t.par, tamp := t.tamp, nv := t.nv }
  quiet : Quiet s → Quiet t
  first : first → t.par = s.par ∧ t.tamp = s.tamp

theorem StoreHeld.refl (first : Prop) (s : State) : StoreHeld first s s := ⟨rfl, id, fun _ => ⟨rfl, rfl⟩⟩

theorem StoreHeld.trans {first : Prop} {s t u : State} (h : StoreHeld first s t) (k : StoreHeld first t u) :
    StoreHeld first s u where
  rest := by rw [k.rest, h.rest]
  quiet := fun q => k.quiet (h.quiet q)
  first := fun f => ⟨(k.first f).1.trans (h.first f).1, (k.first f).2.trans (h.first f).2⟩

theorem StoreHeld.mono {p q : Prop} {s t : State} (h : StoreHeld p s t) (hq : q → p) : StoreHeld q s t :=
  ⟨h.rest, h.quiet, fun f => h.first (hq f)⟩

theorem storeHeld_of_nv (first : Prop) (s : State) (n : Nv) : StoreHeld first s { s with nv := n } :=
  ⟨rfl, fun q => quiet_congr q rfl rfl, fun _ => ⟨rfl, rfl⟩⟩

theorem storeHeld_of_mapOps (first : Prop) (f : Oper → Oper) (s : State) : StoreHeld first s (mapOps f s) :=
  ⟨rfl, fun q => mapOps_quiet q f, fun _ => ⟨rfl, rfl⟩⟩

theorem deferOp_held (first : Prop) (t : Txn) (s : State) : StoreHeld first s (deferOp t s) := by
  unfold deferOp
  split
  · exact storeHeld_of_mapOps _ _ _
  · exact .refl _ _

theorem deferOp_nv (t : Txn) (s : State) : (deferOp t s).nv = s.nv := by
  unfold deferOp
  split <;> rfl

/-- A transaction that ends without success gives its operation NVFAIL, or an entry to the log. -/
theorem txnFailed_held (t : Txn) (s : State) : StoreHeld False s (txnFailed t s) := by
  unfold txnFailed
  split
  · refine ⟨rfl, fun q => mapOps_quiet ?_ _, False.elim⟩
    exact quiet_congr q rfl rfl
  · rw [logEvent_eq]
    exact ⟨rfl, fun q => quiet_congr q rfl rfl, False.elim⟩

theorem bowHeld_held (t : Txn) (s : State) : StoreHeld (t.bowRetry = false) s (bowHeld t s) := by
  unfold bowHeld
  split_ifs with h
  · exact (txnFailed_held t s).mono (by simp [h])
  · exact (storeHeld_of_nv _ s _).trans (deferOp_held _ t _)

theorem setJob_held (first : Prop) (j : Option Job) (s : State) : StoreHeld first s (setJob j s) :=
  storeHeld_of_nv first s _

theorem useWord_held (first : Prop) (s : State) : StoreHeld first s (useWord s) := storeHeld_of_nv first s _

/-- The transaction in progress is no retry, where none of those in progress is. -/
theorem bowRetry_of_head {s : State} {j : Job} {js : List Job} {t : Txn} (hj : s.nv.jobs = j :: js) (ht : j.txn = some t)
    (h : ∀ x ∈ s.nv.jobs.filterMap Job.txn, x.bowRetry = false) : t.bowRetry = false :=
  h t (List.mem_filterMap.2 ⟨j, by simp [hj], ht⟩)

theorem bowAbandon_held (s : State) :
    StoreHeld (∀ x ∈ s.nv.jobs.filterMap Job.txn, x.bowRetry = false) s (bowAbandon s) := by
  unfold bowAbandon
  split
  · exact .refl _ s
  · next j js hj =>
    have head {t : Txn} (ht : j.txn = some t) := bowRetry_of_head hj ht
    split_ifs
    · split
      · split_ifs
        · exact .refl _ s
        · exact (setJob_held _ _ s).trans ((bowHeld_held _ _).mono fun h => (head rfl h :))
      · exact setJob_held _ _ s
      · exact .refl _ s
    · split
      · exact ((useWord_held _ s).trans (setJob_held _ _ _)).trans ((bowHeld_held _ _).mono (head rfl))
      · exact (useWord_held _ s).trans (setJob_held _ _ _)
      · exact (setJob_held _ _ s).trans ((bowHeld_held _ _).mono (head rfl))
      · exact .refl _ s

theorem deferAll_held (first : Prop) (l : List Txn) (s : State) :
    StoreHeld first s (l.foldl (fun s t => deferOp t s) s) ∧ (l.foldl (fun s t => deferOp t s) s).nv = s.nv := by
  induction l generalizing s with
  | nil => exact ⟨.refl _ s, rfl⟩
  | cons t l ih =>
    obtain ⟨h, hn⟩ := ih (deferOp t s)
    exact ⟨(deferOp_held _ t s).trans h, hn.trans (deferOp_nv t s)⟩

theorem bowQueue_held (first : Prop) (s : State) : StoreHeld first s (bowQueue s) :=
  (storeHeld_of_nv first s _).trans (deferAll_held first _ _).1

/-- Every queued transaction waits for its retry. -/
theorem bowQueue_bowRetry (s : State) : ∀ x ∈ (bowQueue s).nv.queue, x.bowRetry = true := by
  unfold bowQueue
  dsimp only
  rw [(deferAll_held True _ _).2]
  intro x hx
  obtain ⟨y, -, rfl⟩ := List.mem_map.1 hx
  rfl

/-- What BOW stops of the store: the transaction in progress and the queue, with the operations that wait for them. -/
def bowStore (s : State) : State := mapOps bowAuth (bowQueue (bowAbandon s))

theorem bowStore_held (s : State) :
    StoreHeld (∀ x ∈ s.nv.jobs.filterMap Job.txn, x.bowRetry = false) s (bowStore s) :=
  ((bowAbandon_held s).trans (bowQueue_held _ _)).trans (storeHeld_of_mapOps _ _ _)

theorem bowStore_bowRetry (s : State) : ∀ x ∈ (bowStore s).nv.queue, x.bowRetry = true :=
  bowQueue_bowRetry (bowAbandon s)

/-! ## BOW asserts (05_supply_and_modes.md R106, R108, R109, R111) -/

/-- The transmitter stops, and the link alone changes. -/
theorem linkAbandon_eq (s : State) :
    linkAbandon s = { s with link := (linkAbandon s).link } ∧ (linkAbandon s).link.sending = none ∧
      (linkAbandon s).link.txEnd = none := by
  unfold linkAbandon
  split
  · next h => exact ⟨rfl, h, rfl⟩
  · exact ⟨rfl, rfl, rfl⟩

/-- The part once the warning has been counted, stamped and logged. -/
def bowLogged (s : State) : State :=
  let a := { s with pwr := { s.pwr with
      bow := true, bowSeen := true, bowCount := satTo 65535 (s.pwr.bowCount + 1), bowAt := now s } }
  logEvent 0x07 (bowData a 0) a

theorem bowLogged_eq (s : State) :
    bowLogged s = { s with
      pwr := { s.pwr with bow := true, bowSeen := true, bowCount := min (s.pwr.bowCount + 1) 65535, bowAt := now s }
      tamp := (bowLogged s).tamp } := logEvent_eq _ _ _

theorem bowLogged_entry {s : State} (h : s.tamp.logWait.length < 32) :
    ∃ e ∈ (bowLogged s).tamp.logWait, e.typ = 0x07 ∧ e.stamp = now s := by
  simp [bowLogged, logEvent, logRaise, logPush, h, now]

/-- The part once the store and the transmitter have stopped too. -/
def bowStopped (s : State) : State := linkAbandon (bowStore (bowLogged s))

theorem bowStopped_bow (s : State) : (bowStopped s).pwr.bow = true := by
  rw [bowStopped, (linkAbandon_eq _).1, (bowStore_held _).rest, bowLogged_eq]

theorem bowStopped_quiet {s : State} (h : Quiet s) : Quiet (bowStopped s) := by
  have hb : Quiet (bowLogged s) := by
    rw [bowLogged_eq]
    exact ⟨h.slots, h.held, h.early, h.deferred⟩
  rw [bowStopped, (linkAbandon_eq _).1]
  exact quiet_congr ((bowStore_held _).quiet hb) rfl rfl

theorem bowStopped_bowRetry (s : State) : ∀ x ∈ (bowStopped s).nv.queue, x.bowRetry = true := by
  rw [bowStopped, (linkAbandon_eq _).1]
  exact bowStore_bowRetry (bowLogged s)

/-- A pulse ends as well, and with nothing in flight the alarm bits are judged. -/
theorem bowOn_eq {s : State} (h : Quiet s) : bowOn s = alarmTrack (endPulse (bowStopped s)) := by
  have hg : bowOn s = settle (dpasGuard (bowStopped s)) := rfl
  rw [hg, dpasGuard, bowStopped_bow, Bool.or_true, if_pos rfl, settle_quiet ((endPulse_kept _).quiet (bowStopped_quiet h))]

/-- What BOW leaves of the part, and what it has changed. -/
structure BowAsserted (s t : State) : Prop where
  pwr     : t.pwr = { s.pwr with bow := true, bowSeen := true, bowCount := min (s.pwr.bowCount + 1) 65535, bowAt := now s }
  sending : t.link.sending = none
  txEnd   : t.link.txEnd = none
  dpas    : t.pol.dpas = false
  queue   : ∀ x ∈ t.nv.queue, x.bowRetry = true
  logged  : s.tamp.logWait.length < 32 → (∀ x ∈ s.nv.jobs.filterMap Job.txn, x.bowRetry = false) →
    (∃ e ∈ t.tamp.logWait, e.typ = 0x07 ∧ e.stamp = now s) ∧ t.par = s.par
  base    : t.tmr.base = s.tmr.base
  others  : t.sar = s.sar ∧ t.gauge = s.gauge ∧ t.sec = s.sec

theorem bowOn_asserted {s : State} (h : Quiet s) : BowAsserted s (bowOn s) := by
  have hs : bowStopped s = { s with
      pwr := (bowLogged s).pwr, link := (bowStopped s).link, sprue := (bowStore (bowLogged s)).sprue
      par := (bowStore (bowLogged s)).par, tamp := (bowStore (bowLogged s)).tamp, nv := (bowStore (bowLogged s)).nv } := by
    rw [bowStopped, (linkAbandon_eq _).1, (bowStore_held _).rest, bowLogged_eq]
  obtain ⟨-, hsend, hend⟩ := linkAbandon_eq (bowStore (bowLogged s))
  have he : bowOn s = alarmTrack (endPulse (bowStopped s)) := bowOn_eq h
  rw [alarmTrack_eq] at he
  have hq := endPulse_bowRetry (bowStopped_bow s) (bowStopped_bowRetry s)
  have hd := pulseOver_dpas (bowStopped s)
  rw [he]
  constructor
  case queue => exact hq
  all_goals rw [endPulse_eq]
  case dpas => exact hd
  case sending => exact hsend
  case txEnd => exact hend
  case pwr => rw [hs, bowLogged_eq]
  case base => rw [hs]
  case others => rw [hs]; exact ⟨rfl, rfl, rfl⟩
  case logged =>
    intro hw hj
    have hl := bowLogged_eq s
    obtain ⟨hp, ht⟩ := (bowStore_held (bowLogged s)).first (by rw [hl]; exact hj)
    rw [hs]
    dsimp only
    rw [hp, ht]
    exact ⟨bowLogged_entry hw, by rw [hl]⟩

/-- What a sample of VREG below BOW does at its CBM edge. -/
def bowSampled (s : State) : State :=
  if s.clk.fllLock && !s.pwr.bow && decide (cbmCount s.pwr.bowOffAt + 2 ≤ cbmCount (now s)) then bowOn s else s

theorem exec_bowAssert {dt : Nat} {s : State} (hl : live s = true) :
    exec (.bowAssert dt) s = .next (bowSampled (elapseTo (upCbm (now (elapse dt s))) (elapse dt s))) := by
  show execBowAssert dt s = _
  rw [execBowAssert, act_live hl]
  rfl

theorem bowSampled_due {s : State} (hf : s.clk.fllLock = true) (hb : s.pwr.bow = false)
    (hc : cbmCount s.pwr.bowOffAt + 2 ≤ cbmCount (now s)) : bowSampled s = bowOn s := by
  simp [bowSampled, hf, hb, hc]

theorem bowSampled_early {s : State}
    (h : s.clk.fllLock = false ∨ s.pwr.bow = true ∨ cbmCount (now s) < cbmCount s.pwr.bowOffAt + 2) : bowSampled s = s := by
  rcases h with h | h | h
  · simp [bowSampled, h]
  · simp [bowSampled, h]
  · simp [bowSampled, Nat.not_le.2 h]

/-! ## BOW releases (05_supply_and_modes.md R106, R109, R110; 04_staged_start.md R79) -/

/-- The part once the release has been stamped and logged and what waited for room or for the medium goes on. -/
def bowResumed (s : State) : State :=
  linkAgain (refill { s with
    tamp := { s.tamp with logWait := s.tamp.logWait.map (bowEntry s) }
    pwr := { s.pwr with bow := false, bowOffAt := now s } })

theorem bowResumed_eq (s : State) :
    bowResumed s = { s with
      pwr := { s.pwr with bow := false, bowOffAt := now s }, link := (bowResumed s).link, tamp := (bowResumed s).tamp
      nv := { s.nv with
        queue := s.nv.queue ++ s.nv.held.take (8 - s.nv.queue.length)
        held := s.nv.held.drop (8 - s.nv.queue.length) } } := rfl

theorem lodeHeldBack_iff {s : State} : lodeHeldBack s = true ↔ s.start.emberDone = true ∧ s.clk.lode = .off ∧
    s.clk.lockTry = 0 ∧ s.start.stage = .ember ∧ s.pwr.mode = .run ∧ s.start.romFails < 2 := by
  simp [lodeHeldBack, and_assoc]

theorem bowOff_eq {s : State} (h : Quiet s) :
    bowOff s = alarmTrack (if lodeHeldBack s then startLode (bowResumed s) else bowResumed s) := by
  have hb : bowOff s = settle (if lodeHeldBack s then startLode (bowResumed s) else bowResumed s) := rfl
  have hq : Quiet (bowResumed s) := ⟨h.slots, h.held, h.early, h.deferred⟩
  rw [hb, settle_quiet]
  split_ifs
  · exact quiet_congr hq rfl rfl
  · exact hq

/-- What the release leaves of the part, and what it has changed. -/
structure BowReleased (s t : State) : Prop where
  pwr   : t.pwr = { s.pwr with bow := false, bowOffAt := now s }
  queue : t.nv.queue = s.nv.queue ++ s.nv.held.take (8 - s.nv.queue.length)
  held  : t.nv.held = s.nv.held.drop (8 - s.nv.queue.length)
  start : lodeHeldBack s = true → t.clk = { s.clk with lode := .locking, lodeStart := now s }
  on    : s.clk.lode = .on → t.clk = s.clk ∧ t.sar = s.sar
  tmr   : t.tmr = s.tmr
  par   : t.par = s.par
  sar   : t.sar = { s.sar with refRdy := t.sar.refRdy }
  gauge : t.gauge = s.gauge
  sec   : t.sec = s.sec

theorem bowOff_released {s : State} (h : Quiet s) : BowReleased s (bowOff s) := by
  rw [bowOff_eq h, alarmTrack_eq]
  by_cases hb : lodeHeldBack s = true
  · rw [if_pos hb, bowResumed_eq]
    have hoff : s.clk.lode = .off := (lodeHeldBack_iff.1 hb).2.1
    exact ⟨rfl, rfl, rfl, fun _ => rfl, fun ho => by simp [hoff] at ho, rfl, rfl, rfl, rfl, rfl⟩
  · rw [if_neg hb, bowResumed_eq]
    exact ⟨rfl, rfl, rfl, fun hb' => absurd hb' hb, fun _ => ⟨rfl, rfl⟩, rfl, rfl, rfl, rfl, rfl⟩

/-- What a sample of VREG above BOW does at its AON edge. -/
def bowCleared (s : State) : State :=
  if s.pwr.bow && decide (s.pwr.bowAt / 250 + 8 ≤ now s / 250) then bowOff s else s

theorem exec_bowRelease {dt : Nat} {s : State} (hl : live s = true) :
    exec (.bowRelease dt) s = .next (bowCleared (elapseTo (upAon (now (elapse dt s))) (elapse dt s))) := by
  show execBowRelease dt s = _
  rw [execBowRelease, act_live hl]
  rfl

theorem bowCleared_due {s : State} (hb : s.pwr.bow = true) (hc : s.pwr.bowAt / 250 + 8 ≤ now s / 250) :
    bowCleared s = bowOff s := by
  simp [bowCleared, hb, hc]

theorem bowCleared_early {s : State} (h : s.pwr.bow = false ∨ now s / 250 < s.pwr.bowAt / 250 + 8) : bowCleared s = s := by
  rcases h with h | h
  · simp [bowCleared, h]
  · simp [bowCleared, Nat.not_le.2 h]

/-- Settles O26: at its edge each is one operation on the part, before it only time passes; with nothing in flight only the alarm
bits are judged besides. -/
theorem brownOutWarning : Obligations.BrownOutWarning := by
  unfold Obligations.BrownOutWarning
  intro dt s hl
  constructor
  · intro r
    have hx : exec (.bowAssert dt) s = .next (bowSampled r) := exec_bowAssert hl
    clear_value r
    refine ⟨fun h => hx.trans (congrArg _ (bowSampled_early h)), fun hq hf hb hc hw => ?_⟩
    have a := bowOn_asserted hq
    have hp := a.pwr
    obtain ⟨hsar, hgauge, hsec⟩ := a.others
    exact ⟨bowOn r, hx.trans (congrArg _ (bowSampled_due hf hb hc)), by rw [hp], by rw [hp], by rw [hp], by rw [hp],
      a.sending, a.txEnd, a.dpas, a.queue, a.logged hw, a.base, hsar, hgauge, hsec⟩
  · intro r
    have hx : exec (.bowRelease dt) s = .next (bowCleared r) := exec_bowRelease hl
    clear_value r
    refine ⟨fun h => hx.trans (congrArg _ (bowCleared_early h)), fun hq hb hc => ?_⟩
    have a := bowOff_released hq
    have hp := a.pwr
    exact ⟨bowOff r, hx.trans (congrArg _ (bowCleared_due hb hc)), by rw [hp], by rw [hp], a.queue, a.held,
      fun he ho hk hs hm hf => a.start (lodeHeldBack_iff.2 ⟨he, ho, hk, hs, hm, by omega⟩), a.on, a.tmr, a.par, a.sar,
      a.gauge, a.sec⟩

end Sys2Proof.Machine

/-! SUPPORT. The power modes: how an entry is decided and completes (03_sprue_commands.md R59; 04_staged_start.md R78;
05_supply_and_modes.md R112 to R117, R412). -/

namespace Sys2Proof.Machine

/-! ## What time leaves of what an entry asks for -/

/-- The value a parameter acts with does not change while time passes over a part that is awake. -/
theorem Passed.prm {s t : State} (h : Passed s t) (id : Nat) : prm t id = prm s id := by
  unfold Machine.prm cfgValue cfgActive
  rw [h.link, h.start, h.par]

theorem Passed.isMember {s t : State} (h : Passed s t) : isMember t = isMember s := by
  unfold Machine.isMember
  rw [h.link]

/-- An entry is decided at the end only where one was decided at the start. -/
theorem Passed.entry_isSome {s t : State} (h : Passed s t) {e : Entry} (he : t.pwr.entry = some e) :
    s.pwr.entry.isSome = true := by
  cases hs : s.pwr.entry with
  | none => simp [h.entry hs] at he
  | some x => rfl

/-! ## Wakes (05_supply_and_modes.md R118, R119, R121) -/

theorem beginWake_woken (s : State) : Woken s (beginWake s) := by
  unfold Woken beginWake
  cases s.pwr.mode
  case run => rfl
  case doze => rfl
  all_goals exact ⟨rfl, rfl, rfl, rfl, rfl, rfl, rfl, rfl, rfl⟩

theorem beginWake_mode (s : State) : (beginWake s).pwr.mode = .run := by
  unfold beginWake
  split
  · assumption
  · rfl
  · rfl

theorem beginWake_hold (s : State) : (beginWake s).pwr.hold = s.pwr.hold := by
  unfold beginWake
  split <;> rfl

/-! ## Deciding an entry (05_supply_and_modes.md R114, R116, R117) -/

theorem decideEntry_doze (nap : Bool) (s : State) :
    decideEntry .doze nap s = { s with pwr := { s.pwr with entry := some ⟨.doze, nap⟩ } } := rfl

/-- The coulomb and the Almanac records are committed (05 R114; 09 R200; 10 R236). -/
def recordsCommitted (s : State) : State := commitInternal (almRecs s) (commitInternal (coulRecs s true) s)

theorem recordsCommitted_eq (s : State) :
    recordsCommitted s = { s with nv := { s.nv with
      queue := (recordsCommitted s).nv.queue, held := (recordsCommitted s).nv.held } } := by
  unfold recordsCommitted
  rw [commitInternal_eq, commitInternal_eq]

theorem recordsCommitted_queue_ne_nil (s : State) : (recordsCommitted s).nv.queue ≠ [] :=
  commitInternal_queue_ne_nil _ (by simp [almRecs])

/-- From Pour on a part that is no member ends its pulse and commits its records before Watch and Watch-L. -/
theorem decideEntry_deep {m : Mode} {s : State} (hm : m = .watch ∨ m = .watchL) (hs : isMember s = false)
    (hp : atLeast s .pour = true) (nap : Bool) :
    let t := recordsCommitted (endPulse s)
    decideEntry m nap s = { t with pwr := { t.pwr with entry := some ⟨m, nap⟩ } } := by
  rcases hm with rfl | rfl <;> simp [decideEntry, recordsCommitted, hs, hp]

/-- What the decision of an entry to Watch or Watch-L leaves of the part. -/
structure EntryDecided (e : Entry) (s t : State) : Prop where
  pwr   : t.pwr = { s.pwr with entry := some e }
  clk   : t.clk = s.clk
  base  : t.tmr.base = s.tmr.base
  tmr   : s.pol.dpas = false → t.tmr = s.tmr
  sar   : t.sar = s.sar
  par   : t.par = s.par
  queue : t.nv.queue ≠ []
  quiet : Quiet s → Quiet t

theorem decideEntry_decided {m : Mode} {s : State} (hm : m = .watch ∨ m = .watchL) (hs : isMember s = false)
    (hp : atLeast s .pour = true) (nap : Bool) : EntryDecided ⟨m, nap⟩ s (decideEntry m nap s) := by
  rw [decideEntry_deep hm hs hp]
  constructor
  case queue => exact recordsCommitted_queue_ne_nil _
  case tmr =>
    intro hd
    rw [endPulse_off hd, recordsCommitted_eq]
  case quiet =>
    intro q
    rw [recordsCommitted_eq, endPulse_eq]
    exact ⟨q.slots, q.held, q.early, q.deferred⟩
  all_goals rw [recordsCommitted_eq, endPulse_eq]

/-! ## AUTO_DOZE (05_supply_and_modes.md R116) -/

theorem exec_autoDoze (dt : Nat) (s : State) : exec (.autoDoze dt) s = execAutoDoze dt s := by rfl

theorem execAutoDoze_eq {dt : Nat} {s : State} (hl : live s = true) :
    let w := elapseTo (upSlow (now (elapse dt s))) (elapse dt s)
    execAutoDoze dt s = .next (if mayDoze w then decideEntry .doze false w else w) := by
  rw [execAutoDoze, act_live hl]

/-- The next scheduled event is the nearest of them. -/
theorem nextEvent_le {s : State} {e t : Nat} (he : nextEvent s = some e) (ht : t ∈ eventTimes s) : e ≤ t :=
  (List.min?_eq_some_iff.1 he).2 t ht

theorem nextEvent_none {s : State} (h : nextEvent s = none) : eventTimes s = [] := List.min?_eq_none_iff.1 h

/-- What `quiet` asks of the operations, the commit queue and the transmitter. -/
theorem quiet_idle {s : State} (h : quiet s = true) : ops s = [] ∧ s.nv.queue = [] ∧ s.link.txEnd = none := by
  simp only [quiet, txOn, Bool.and_eq_true, Bool.not_eq_true', Bool.or_eq_false_iff, List.isEmpty_iff,
    Option.isSome_eq_false_iff, Option.isNone_iff_eq_none] at h
  obtain ⟨⟨⟨⟨⟨⟨⟨⟨⟨⟨⟨⟨ho, -⟩, -⟩, -⟩, -⟩, -⟩, -⟩, -⟩, hq⟩, -⟩, -⟩, ht, -⟩, -⟩ := h
  exact ⟨ho, hq, ht⟩

/-- The conditions of R116, one by one. -/
theorem mayDoze_spec {s : State} (h : mayDoze s = true) :
    prm s 0x0730 = 1 ∧ atLeast s .pour = true ∧ s.clk.lode = .on ∧ s.clk.halt = false ∧ s.pwr.mode = .run ∧
      s.pwr.entry = none ∧ ops s = [] ∧ s.pwr.loadA = false ∧ s.pwr.loadB = false ∧ s.nv.queue = [] ∧
      s.link.txEnd = none ∧ ∀ t ∈ eventTimes s, now s + msTicks (prm s 0x0731) ≤ t := by
  simp only [mayDoze, lodeOn, Bool.and_eq_true, Bool.not_eq_true', beq_iff_eq, Option.isNone_iff_eq_none] at h
  obtain ⟨⟨⟨⟨⟨⟨⟨⟨⟨⟨hon, hpour⟩, hlode⟩, hhalt⟩, hmode⟩, hentry⟩, hquiet⟩, ha⟩, hb⟩, -⟩, hnext⟩ := h
  obtain ⟨hops, hqueue, htx⟩ := quiet_idle hquiet
  refine ⟨hon, hpour, hlode, hhalt, hmode, hentry, hops, ha, hb, hqueue, htx, fun t ht => ?_⟩
  cases he : nextEvent s with
  | none => simp [nextEvent_none he] at ht
  | some e =>
    rw [he] at hnext
    exact (of_decide_eq_true hnext).trans (nextEvent_le he ht)

/-! ## Completing an entry (05_supply_and_modes.md R112, R114, R412) -/

/-- An entry waits while the commit queue is not empty. -/
theorem entryReady_queued {s : State} (h : s.nv.queue ≠ []) : entryReady s = false := by
  have hq : s.nv.queue.isEmpty = false := by simpa using h
  simp [entryReady, hq]

theorem tryEnter_none {s : State} (h : s.pwr.entry = none) (bits : Bits) : tryEnter bits s = s := by
  simp [tryEnter, h]

theorem tryEnter_waits {s : State} (h : entryReady s = false) (bits : Bits) : tryEnter bits s = s := by
  unfold tryEnter
  split
  · rw [if_neg (by simp [h])]
  · rfl

theorem tryEnter_ready {e : Entry} {s : State} (he : s.pwr.entry = some e) (h : entryReady s = true) (bits : Bits) :
    tryEnter bits s = enterNow e bits s := by
  simp [tryEnter, he, h]

theorem glintPause_eq (s : State) :
    glintPause s = { s with sar := (glintPause s).sar, glint := (glintPause s).glint } := by
  unfold glintPause
  split_ifs <;> rfl

/-- Doze keeps all but Lode, the reference, Glint's passes and the bin that runs. -/
theorem enterDoze_eq (s : State) :
    enterDoze s = { s with
      clk := { s.clk with lode := .off }
      sar := { (glintPause s).sar with refRdy := false }
      glint := (glintPause s).glint
      alm := { s.alm with binOk := false }
      pwr := { s.pwr with mode := .doze, entry := none, sleptAt := now s, loadA := false, loadB := false } } := by
  unfold enterDoze binSpoil now
  dsimp only
  rw [glintPause_eq]

/-- The part whose pulse and bin are over and whose firmware compares are disarmed (09 R193, R205; 10 R248). -/
def modelStopped (s : State) : State := disarmFw 4 (disarmFw 5 (disarmFw 6 (binSpoil (pulseOver s))))

theorem modelStopped_par (s : State) : (modelStopped s).par = s.par := (pulseOver_kept s).par

theorem modelStopped_xtalQual (s : State) : (modelStopped s).clk.xtalQual = s.clk.xtalQual :=
  congrArg Clk.xtalQual (pulseOver_clk s)

theorem modelStopped_time (s : State) :
    (modelStopped s).tmr.base = s.tmr.base ∧ (modelStopped s).tmr.rtcSec = s.tmr.rtcSec := by
  have hb : (pulseOver s).tmr.base = s.tmr.base := by rw [pulseOver_eq]
  have hr : (pulseOver s).tmr.rtcSec = s.tmr.rtcSec := by rw [pulseOver_eq]
  exact ⟨hb, hr⟩

theorem returnToCrystal_par (s : State) : (returnToCrystal s).par = s.par := by rw [returnToCrystal_eq]

theorem returnToCrystal_tmr (s : State) : (returnToCrystal s).tmr = s.tmr := by rw [returnToCrystal_eq]

/-- The part that enters Watch or Watch-L, before what is not retained is lost: for Watch, AON is back on a qualified crystal. -/
def watchReady (m : Mode) (s : State) : State :=
  if m = .watch then returnToCrystal (modelStopped s) else modelStopped s

theorem watchReady_par (m : Mode) (s : State) : (watchReady m s).par = s.par := by
  unfold watchReady
  split_ifs
  · rw [returnToCrystal_par, modelStopped_par]
  · exact modelStopped_par s

theorem watchReady_time (m : Mode) (s : State) :
    (watchReady m s).tmr.base = s.tmr.base ∧ (watchReady m s).tmr.rtcSec = s.tmr.rtcSec := by
  unfold watchReady
  split_ifs
  · rw [returnToCrystal_tmr]
    exact modelStopped_time s
  · exact modelStopped_time s

theorem watchReady_onLfrc {s : State} (hx : s.clk.xtalQual = true) : (watchReady .watch s).clk.onLfrc = false :=
  returnToCrystal_onLfrc ((modelStopped_xtalQual s).trans hx)

theorem enterWatch_eq (m : Mode) (s : State) :
    let t := warmClear (watchReady m s)
    enterWatch m s = retain { t with
      clk := { t.clk with lode := .off }
      pwr := { t.pwr with mode := m, sleptAt := now t, loadA := false, loadB := false }
      start := { t.start with stage := .ember }
      gauge := { t.gauge with sleepT := t.cqa.tally } } := rfl

/-- What an entry to Watch or Watch-L takes the part to. -/
structure WatchEntered (m : Mode) (s t : State) : Prop where
  lode    : t.clk.lode = .off
  crystal : m = .watch → s.clk.xtalQual = true → t.clk.onLfrc = false
  mode    : t.pwr.mode = m
  entry   : t.pwr.entry = none
  slept   : t.pwr.sleptAt = now s
  stage   : t.start.stage = .ember
  base    : t.tmr.base = s.tmr.base
  rtcSec  : t.tmr.rtcSec = s.tmr.rtcSec
  par     : t.par = s.par
  slots   : t.sprue.slots = Vector.replicate 8 none
  queue   : t.nv.queue = []

theorem enterWatch_entered (m : Mode) (s : State) : WatchEntered m s (enterWatch m s) := by
  obtain ⟨hb, hr⟩ := watchReady_time m s
  rw [enterWatch_eq]
  dsimp only
  rw [retain_eq]
  exact ⟨rfl, fun hm hx => by subst hm; exact watchReady_onLfrc hx, rfl, rfl, hb, rfl, hb, hr, watchReady_par m s, rfl, rfl⟩

/-- The bits of the integrators that have come in meanwhile change nothing that an entry speaks of. -/
theorem WatchEntered.of_addBits {m : Mode} {bits : Bits} {s t : State} (h : WatchEntered m (addBits bits s) t) :
    WatchEntered m s t := by
  obtain ⟨h1, h2, h3, h4, h5, h6, h7, h8, h9, h10, h11⟩ := h
  exact ⟨h1, h2, h3, h4, h5, h6, h7, h8, h9, h10, h11⟩

theorem enterNow_watch {m : Mode} (hm : m = .watch ∨ m = .watchL) (bits : Bits) (s : State) :
    WatchEntered m s (enterNow ⟨m, false⟩ bits s) := by
  rcases hm with rfl | rfl <;> exact (enterWatch_entered _ _).of_addBits

/-- The part in Watch whose handover nap wakes at once. -/
def napping (bits : Bits) (s : State) : State :=
  let t := enterWatch .watch (addBits bits s)
  { t with clk := { t.clk with napDue := false } }

theorem enterNow_nap (bits : Bits) (s : State) : enterNow ⟨.watch, true⟩ bits s = beginWake (napping bits s) := rfl

/-- A wake from Watch starts Lode and the warm path with reason 0x7. -/
theorem beginWake_watch {s : State} (h : s.pwr.mode = .watch) :
    let t := beginWake s
    t.clk = { s.clk with lode := .locking, lodeStart := now s, lockTry := 0 } ∧ t.pwr.mode = .run ∧ t.pwr.entry = none ∧
      t.start.stage = .ember ∧ t.start.reason = 7 := by
  have hw := beginWake_woken s
  simp only [Woken, h] at hw
  obtain ⟨-, hclk, hmode, hentry, hstage, hreason, -⟩ := hw
  exact ⟨hclk, hmode, hentry, hstage, hreason⟩

/-- A handover nap wakes from the crystal. -/
theorem enterNow_nap_wakes {bits : Bits} {s : State} (hx : s.clk.xtalQual = true) :
    let t := enterNow ⟨.watch, true⟩ bits s
    t.clk.lode = .locking ∧ t.clk.onLfrc = false ∧ t.clk.napDue = false ∧ t.pwr.mode = .run ∧ t.pwr.entry = none ∧
      t.start.stage = .ember ∧ t.start.reason = 7 := by
  have he : WatchEntered .watch s (enterWatch .watch (addBits bits s)) := (enterWatch_entered _ _).of_addBits
  have hm : (napping bits s).pwr.mode = .watch := he.mode
  obtain ⟨hclk, hmode, hentry, hstage, hreason⟩ := beginWake_watch hm
  rw [enterNow_nap]
  dsimp only
  rw [hclk]
  exact ⟨rfl, he.crystal rfl hx, rfl, hmode, hentry, hstage, hreason⟩

theorem exec_lowPowerEntry (dt : Nat) (bits : Bits) (s : State) :
    exec (.lowPowerEntry dt bits) s = execLowPowerEntry dt bits s := by rfl

theorem execLowPowerEntry_eq {dt : Nat} (bits : Bits) {s : State} (hl : live s = true) :
    let r := elapse dt s
    execLowPowerEntry dt bits s =
      .next (if r.pwr.entry.isSome then tryEnter bits (elapseTo (upSlow (now r)) r) else r) := by
  rw [execLowPowerEntry, act_live hl]

/-! ## HANDOVER_NAP (04_staged_start.md R78) -/

theorem exec_handoverNap (dt : Nat) (bits : Bits) (s : State) : exec (.handoverNap dt bits) s = execHandoverNap dt bits s := by
  rfl

/-- The conditions of a nap that its decision and its completion rest on. -/
theorem mayNap_spec {s : State} (h : mayNap s = true) : atLeast s .pour = true ∧ s.pwr.mode = .run ∧ s.pwr.entry = none := by
  simp only [mayNap, Bool.and_eq_true, beq_iff_eq, Option.isNone_iff_eq_none] at h
  obtain ⟨⟨⟨⟨⟨⟨⟨⟨⟨⟨-, hpour⟩, -⟩, hmode⟩, -⟩, hentry⟩, -⟩, -⟩, -⟩, -⟩, -⟩ := h
  exact ⟨hpour, hmode, hentry⟩

/-- What a nap does at its SLOW edge. -/
def napAt (bits : Bits) (s : State) : State :=
  let u := if mayNap s then decideEntry .watch true s else s
  match u.pwr.entry with
  | some e => if e.nap then tryEnter bits u else u
  | none => u

theorem execHandoverNap_eq {dt : Nat} (bits : Bits) {s : State} (hl : live s = true) :
    let r := elapse dt s
    execHandoverNap dt bits s = .next (napAt bits (elapseTo (upSlow (now r)) r)) := by
  rw [execHandoverNap, act_live hl]
  rfl

/-- A nap that is decided now waits for the records it commits. -/
theorem napAt_decides {s : State} (h : mayNap s = true) (hs : isMember s = false) (bits : Bits) :
    napAt bits s = decideEntry .watch true s := by
  have hd := decideEntry_decided (.inl rfl) hs (mayNap_spec h).1 true
  have he : (decideEntry .watch true s).pwr.entry = some ⟨.watch, true⟩ := by rw [hd.pwr]
  simp [napAt, h, he, tryEnter_waits (entryReady_queued hd.queue)]

/-- A nap that was decided before completes where nothing holds it. -/
theorem napAt_completes {s : State} (he : s.pwr.entry = some ⟨.watch, true⟩) (bits : Bits) :
    napAt bits s = tryEnter bits s := by
  have hn : mayNap s = false := by
    rw [← Bool.not_eq_true]
    intro h
    simp [(mayNap_spec h).2.2] at he
  simp [napAt, hn, he]

/-! ## IDLE_SLEEP (05_supply_and_modes.md R117) -/

theorem exec_idleSleep (s : State) : exec .idleSleep s = execIdleSleep s := by rfl

theorem atLeast_pour {s : State} : atLeast s .pour = true ↔ 2 ≤ s.start.stage.code := decide_eq_true_iff

/-- The mode that IDLE_SLEEP names. -/
def idleMode (s : State) : Mode := if prm s 0x0732 = 1 then .watch else .watchL

theorem idleMode_deep (s : State) : idleMode s = .watch ∨ idleMode s = .watchL := by
  unfold idleMode
  split_ifs
  · exact .inl rfl
  · exact .inr rfl

theorem execIdleSleep_due {s : State} {t : Nat} (hl : live s = true) (hd : idleDue s = some t) :
    execIdleSleep s = .next (settle (decideEntry (idleMode (elapseTo t s)) false (elapseTo t s))) :=
  actAt_due hl hd

/-- Each entry is decided at its own edge; a nap that is decided now waits for its records. -/
theorem idlePartDecidesToSleep : IdlePartDecidesToSleep := by
  intro dt bits s hl
  constructor
  · intro w
    refine ⟨fun h => ?_, fun h => ?_, mayDoze_spec, fun h hm hp hd => ?_⟩
    · rw [exec_autoDoze, execAutoDoze_eq hl, if_pos h, decideEntry_doze]
    · rw [exec_autoDoze, execAutoDoze_eq hl, if_neg (by simp [w, h])]
    · have hs : isMember w = false := by simp [isMember, hm, hp]
      obtain ⟨hpour, hmode, -⟩ := mayNap_spec h
      have d : EntryDecided ⟨.watch, true⟩ w (decideEntry .watch true w) := decideEntry_decided (.inl rfl) hs hpour true
      refine ⟨_, ?_, by rw [d.pwr], by rw [d.pwr, hmode], d.clk, d.tmr hd, d.sar, d.par⟩
      rw [exec_handoverNap, execHandoverNap_eq bits hl, napAt_decides h hs]
  · intro w hi hp hlode hh hm he hs ha hb hhold hq
    have p : Passed s w := elapseTo_passed hm
    have hdue : idleDue s = some (s.pwr.idleSince + 8192000 * prm s 0x0733) := by
      have h0 : prm s 0x0732 ≠ 0 := by omega
      simp [idleDue, h0, atLeast_pour.2 hp, lodeOn, hlode, hh, hm, he, hs, ha, hb, holdRuns, hhold, secTicks, Nat.mul_comm]
    have d := decideEntry_decided (idleMode_deep w) (p.isMember.trans hs)
      (atLeast_pour.2 (show 2 ≤ w.start.stage.code by rw [p.start]; exact hp)) false
    have hk : idleMode w = if prm s 0x0732 = 1 then .watch else .watchL := by rw [idleMode, p.prm]
    refine ⟨_, (exec_idleSleep s).trans (execIdleSleep_due hl hdue), ?_⟩
    rw [settle_quiet (d.quiet (quiet_of_passed hq p)), alarmTrack_eq]
    dsimp only
    rw [d.pwr, d.clk, d.base, d.sar, d.par, hk]
    exact ⟨rfl, p.mode.trans hm, rfl, rfl, rfl, rfl⟩

/-- An entry that was decided and that nothing holds takes the part to its mode. -/
theorem lowPowerEntryCompletes : LowPowerEntryCompletes := by
  intro dt bits e s hl hm r w
  have p : Passed r w := elapseTo_passed ((elapse_passed hm).mode.trans hm)
  have completes (h : r.pwr.entry.isSome = true) : exec (.lowPowerEntry dt bits) s = .next (tryEnter bits w) := by
    rw [exec_lowPowerEntry, execLowPowerEntry_eq bits hl, if_pos h]
  refine ⟨fun h => ?_, fun h hw => ?_, fun he => ?_⟩
  · rw [exec_lowPowerEntry, execLowPowerEntry_eq bits hl, if_neg (by simp [r, h])]
  · rw [completes h, tryEnter_none hw]
  · have hx := completes (p.entry_isSome he)
    refine ⟨fun hr => by rw [hx, tryEnter_waits hr], fun hr => ?_⟩
    rw [tryEnter_ready he hr] at hx
    refine ⟨fun hd => ⟨_, hx, ?_⟩, fun hd => ⟨_, hx, ?_⟩, fun hd ho hq c hc => ⟨enterNow e bits w, ?_, ?_⟩⟩
    · subst hd
      rw [show enterNow ⟨.doze, false⟩ bits w = enterDoze w from rfl, enterDoze_eq]
      exact ⟨rfl, rfl, rfl, rfl, rfl, rfl, rfl, rfl, rfl, rfl⟩
    · have hw : WatchEntered e.target w (enterNow e bits w) := by
        rcases hd with rfl | rfl
        · exact enterNow_watch (.inl rfl) bits w
        · exact enterNow_watch (.inr rfl) bits w
      exact ⟨hw.lode, hw.mode, hw.entry, hw.slept, hw.stage, hw.base, hw.rtcSec, hw.par, hw.slots, hw.queue⟩
    · rcases hc with rfl | rfl
      · subst hd
        rw [exec_handoverNap, execHandoverNap_eq bits hl, napAt_completes he, tryEnter_ready he hr]
      · exact hx
    · subst hd
      exact enterNow_nap_wakes hq

/-- Settles O32: each entry is decided at its own edge and waits for what R412 names, for a nap its own records; one that nothing
holds takes the part to its mode. -/
theorem sleepIsEntered : Obligations.SleepIsEntered := ⟨idlePartDecidesToSleep, lowPowerEntryCompletes⟩

end Sys2Proof.Machine

/-! SUPPORT. The wake sources: the edges at which they act and the mode in which they find the part (05_supply_and_modes.md R116,
R118, R119, R121; 12_criuc_link.md R287). -/

namespace Sys2Proof.Machine

/-! ## Sources that assert (05_supply_and_modes.md R119) -/

theorem exec_wakeSource (dt : Nat) (k : WakeSrc) {s : State} (hl : live s = true) :
    exec (.wakeSource dt k) s = .next (wakeAny k (elapse dt s)) := act_live hl

/-- Every source but the scheduler and the link wakes at once. -/
theorem wakeAny_source {k : WakeSrc} (hs : k ≠ .scheduler) (hl : ∀ n, k ≠ .link n) (s : State) :
    wakeAny k s = wakeBy k s := by
  unfold wakeAny
  split
  · exact absurd rfl hs
  · exact absurd rfl (hl _)
  · rfl

theorem wakeBy_real {k : WakeSrc} {s : State} (h : wakeReal k s = true) : wakeBy k s = beginWake s := if_pos h

theorem wakeBy_unreal {k : WakeSrc} {s : State} (h : wakeReal k s = false) : wakeBy k s = s := if_neg (by simp [h])

/-! ## The scheduled wake (05_supply_and_modes.md R116, R121) -/

theorem exec_scheduled {c : Instr} {dt : Nat} {s : State} (hl : live s = true)
    (hc : c = .scheduledWake dt ∨ c = .wakeSource dt .scheduler) : exec c s = .next (wakeScheduled (elapse dt s)) := by
  rcases hc with rfl | rfl <;> exact act_live hl

theorem wakeScheduled_none {s : State} (h : s.pwr.mode ≠ .doze ∨ nextEvent s = none) : wakeScheduled s = s := by
  unfold wakeScheduled
  split
  · next hm he => simp [hm, he] at h
  · rfl

theorem wakeScheduled_doze {s : State} {e : Nat} (hm : s.pwr.mode = .doze) (he : nextEvent s = some e)
    (hw : (elapseTo (max (wakeLead e) (upSlow (now s))) s).pwr.mode = .doze) :
    wakeScheduled s = wakeBy .scheduler (elapseTo (max (wakeLead e) (upSlow (now s))) s) := by
  simp [wakeScheduled, hm, he, hw]

/-- A dozing part is woken for an event once its lead has come. -/
theorem wakeReal_scheduler {s : State} (hm : s.pwr.mode = .doze) :
    wakeReal .scheduler s = true ↔ ∃ x, nextEvent s = some x ∧ wakeLead x ≤ now s := by
  simp only [wakeReal, hm, beq_self_eq_true, Bool.true_and]
  cases nextEvent s <;> simp

/-! ## WATCH_WAKE (05_supply_and_modes.md R119) -/

theorem exec_periodicWake (s : State) : exec .periodicWake s = execPeriodicWake s := by rfl

theorem inWatch_iff {s : State} : inWatch s = true ↔ s.pwr.mode = .watch ∨ s.pwr.mode = .watchL := by simp [inWatch]

theorem periodicDue_watch {s : State} (hm : inWatch s = true) (hp : prm s 0x0735 ≠ 0) :
    periodicDue s = some (upAon (s.pwr.sleptAt + secTicks (60 * prm s 0x0735))) := if_pos ⟨hm, hp⟩

/-! ## The carrier (12_criuc_link.md R287) -/

theorem exec_carrier {c : Instr} {dt len : Nat} {s : State} (hl : live s = true)
    (hc : c = .carrierWake dt len ∨ c = .wakeSource dt (.link len)) : exec c s = .next (carrier len (elapse dt s)) := by
  rcases hc with rfl | rfl <;> exact act_live hl

theorem carrierMode_asleep {s : State} (h : s.pwr.mode ≠ .run) : carrierMode s = s.pwr.mode := by
  unfold carrierMode
  split
  · contradiction
  · rfl

theorem carrierMode_run {s : State} (h : s.pwr.entry = none) : carrierMode s = s.pwr.mode := by
  unfold carrierMode
  split
  · next he => simp [h] at he
  · rfl

theorem carrierDue_doze {s : State} {len : Nat} (h : carrierMode s = .doze) :
    carrierDue s len = if 81920 ≤ len then some (upAon (now s + 81920)) else none := by
  simp [carrierDue, h]

/-- The third whole window of 32 AON ticks in a row ends 136 000 ticks after the first begins. -/
theorem carrierDue_watchL {s : State} {len : Nat} (h : carrierMode s = .watchL) :
    carrierDue s len =
      let third := (now s + 63999) / 64000 * 64000 + 136000
      if third ≤ now s + len then some third else none := by
  simp [carrierDue, h, Nat.add_assoc]

/-- Neither Watch nor Run has a carrier detector. -/
theorem carrierDue_none {s : State} {len : Nat} (h : carrierMode s = .watch ∨ carrierMode s = .run) :
    carrierDue s len = none := by
  rcases h with h | h <;> simp [carrierDue, h]

theorem carrier_idle {s : State} {len : Nat} (h : carrierDue s len = none) : carrier len s = s := by
  simp [carrier, h]

/-- A carrier that is long enough wakes a part that still sleeps, and holds it in Run. -/
theorem carrier_wakes {s : State} {len t : Nat} (hd : carrierDue s len = some t) (hm : s.pwr.mode ≠ .run)
    (hw : (elapseTo t s).pwr.mode = s.pwr.mode) (he : prm (elapseTo t s) 0x0901 = 1) :
    carrier len s = holdRun (now (elapseTo t s) + secTicks 1) (beginWake (elapseTo t s)) := by
  have hm' : (elapseTo t s).pwr.mode ≠ .run := by rwa [hw]
  simp [carrier, hd, linkEn, he, carrierMode_asleep hm, carrierMode_asleep hm', hw, lowPower, hm]

/-- What a carrier that wakes the part leaves besides the wake: a hold of 1.000 s. -/
theorem holdRun_beginWake (t : Nat) (s : State) :
    let u := holdRun t (beginWake s)
    u.clk = (beginWake s).clk ∧ u.start = (beginWake s).start ∧ u.tmr = s.tmr ∧ u.pwr.mode = .run ∧
      (s.pwr.hold = .none → u.pwr.hold = .until t) :=
  ⟨rfl, rfl, beginWake_tmr s, beginWake_mode s, fun h => by simp [holdRun, beginWake_hold, h, extendHold]⟩

/-- Settles O33: a source that is real begins a wake, at the edge of the scheduler, of WATCH_WAKE or of the carrier where it has
its own. -/
theorem wakeSourcesWake : Obligations.WakeSourcesWake := by
  unfold Obligations.WakeSourcesWake
  intro dt len k c s hl r
  refine ⟨fun hs hn => ?_, fun hc => ?_, ?_, fun hc => ?_⟩
  · rw [exec_wakeSource dt k hl, wakeAny_source hs hn]
    exact ⟨fun h => ⟨_, congrArg _ (wakeBy_real h), beginWake_woken r⟩, fun h => congrArg _ (wakeBy_unreal h)⟩
  · rw [exec_scheduled hl hc]
    refine ⟨?_, fun h => congrArg _ (wakeScheduled_none h)⟩
    intro e hm he w hw
    rw [wakeScheduled_doze hm he hw]
    refine ⟨fun x hx hle => ⟨_, congrArg _ (wakeBy_real ?_), beginWake_woken w⟩, fun h => congrArg _ (wakeBy_unreal ?_)⟩
    · exact (wakeReal_scheduler hw).2 ⟨x, hx, hle⟩
    · refine Bool.eq_false_iff.2 fun hr => ?_
      obtain ⟨x, hx, hle⟩ := (wakeReal_scheduler hw).1 hr
      exact absurd hle (Nat.not_le.2 (h x hx))
  · intro w hm hp hw
    refine ⟨_, ?_, beginWake_woken w⟩
    rw [exec_periodicWake, execPeriodicWake, actAt_due hl (periodicDue_watch (inWatch_iff.2 hm) hp),
      if_pos (inWatch_iff.2 hw)]
  · rw [exec_carrier hl hc]
    refine ⟨?_, fun hm hlen => ?_, fun hm => ?_, fun hm he => ?_⟩
    · intro at_ h w hw he
      have hr : r.pwr.mode ≠ .run := by rcases h with ⟨hm, -⟩ | ⟨hm, -⟩ <;> simp [hm]
      have hd : carrierDue r len = some at_ := by
        rcases h with ⟨hm, hlen, rfl⟩ | ⟨hm, hle, rfl⟩
        · rw [carrierDue_doze ((carrierMode_asleep hr).trans hm), if_pos hlen]
        · rw [carrierDue_watchL ((carrierMode_asleep hr).trans hm)]
          exact if_pos hle
      exact ⟨_, beginWake w, congrArg _ (carrier_wakes hd hr hw he), beginWake_woken w, holdRun_beginWake _ w⟩
    · have hk : carrierMode r = .doze := (carrierMode_asleep (by simp [hm])).trans hm
      exact congrArg _ (carrier_idle (by rw [carrierDue_doze hk, if_neg (Nat.not_le.2 hlen)]))
    · have hk : carrierMode r = .watch := (carrierMode_asleep (by simp [hm])).trans hm
      exact congrArg _ (carrier_idle (carrierDue_none (.inl hk)))
    · have hk : carrierMode r = .run := (carrierMode_run he).trans hm
      exact congrArg _ (carrier_idle (carrierDue_none (.inr hk)))

end Sys2Proof.Machine

/-! SUPPORT. Protection: what a ladder scan judges, and how an over-current comparator counts, trips and is released
(06_front_end_integrators.md R125 to R136). -/

namespace Sys2Proof.Machine

/-! ## What the alarm bits, the end of a pulse and a wake leave alone -/

@[simp] theorem alarmTrack_afe (s : State) : (alarmTrack s).afe = s.afe := by rw [alarmTrack_eq]

@[simp] theorem alarmTrack_pwr (s : State) : (alarmTrack s).pwr = s.pwr := by rw [alarmTrack_eq]

/-- The guard of the depassivation pulse touches the pulse, its countdown and the store's queue alone (10 R248). -/
theorem dpasGuard_eq (s : State) :
    dpasGuard s = { s with
      pol := (dpasGuard s).pol
      tmr := { s.tmr with cdn := (dpasGuard s).tmr.cdn }
      nv := { s.nv with queue := (dpasGuard s).nv.queue, held := (dpasGuard s).nv.held } } := by
  unfold dpasGuard
  split_ifs
  · rw [endPulse_eq]
  · rfl

@[simp] theorem dpasGuard_afe (s : State) : (dpasGuard s).afe = s.afe := by rw [dpasGuard_eq]

@[simp] theorem dpasGuard_pwr (s : State) : (dpasGuard s).pwr = s.pwr := by rw [dpasGuard_eq]

@[simp] theorem dpasGuard_sar (s : State) : (dpasGuard s).sar = s.sar := by rw [dpasGuard_eq]

@[simp] theorem dpasGuard_gauge (s : State) : (dpasGuard s).gauge = s.gauge := by rw [dpasGuard_eq]

@[simp] theorem dpasGuard_base (s : State) : (dpasGuard s).tmr.base = s.tmr.base := (dpasGuard_kept s).base

/-- A wake changes the clocks, the supply block and the start alone, whatever the mode. -/
theorem beginWake_eq (s : State) :
    beginWake s = { s with clk := (beginWake s).clk, pwr := (beginWake s).pwr, start := (beginWake s).start } := by
  unfold beginWake
  split <;> rfl

@[simp] theorem beginWake_afe (s : State) : (beginWake s).afe = s.afe := by rw [beginWake_eq]

@[simp] theorem beginWake_sar (s : State) : (beginWake s).sar = s.sar := by rw [beginWake_eq]

@[simp] theorem beginWake_gauge (s : State) : (beginWake s).gauge = s.gauge := by rw [beginWake_eq]

/-! ## The ladder scan (06_front_end_integrators.md R129, R130, R136) -/

theorem exec_ladderScan (x : ScanIn) (s : State) : exec (.ladderScan x) s = execLadderScan x s := by rfl

theorem execLadderScan_eq {s : State} (hl : live s = true) (x : ScanIn) :
    execLadderScan x s = .next (alarmTrack (dpasGuard (ladderScan x (elapseTo (s.afe.scanAt + 8000) s)))) := by
  rw [execLadderScan, actAt_due hl rfl]

/-- A scan whose faults are news is a wake source as well. -/
theorem ladderScan_cases (x : ScanIn) (s : State) :
    ladderScan x s = applyScan x s ∨ ladderScan x s = beginWake (applyScan x s) := by
  rw [ladderScan]
  exact (ite_eq_or_eq _ _ _).symm

theorem applyScan_eq (x : ScanIn) (s : State) :
    applyScan x s = { s with par := s.par.applyMoment .scan, afe := (applyScan x s).afe } := by
  rw [applyScan]

/-- A scan leaves its faults; timers, SAR and gauge stay. -/
theorem ladderScan_parts (x : ScanIn) (s : State) :
    (ladderScan x s).afe = (applyScan x s).afe ∧ (ladderScan x s).tmr = s.tmr ∧ (ladderScan x s).sar = s.sar ∧
      (ladderScan x s).gauge = s.gauge := by
  have he : (applyScan x s).tmr = s.tmr ∧ (applyScan x s).sar = s.sar ∧ (applyScan x s).gauge = s.gauge := by
    rw [applyScan_eq]
    exact ⟨rfl, rfl, rfl⟩
  rcases ladderScan_cases x s with h | h
  · rw [h]
    exact ⟨rfl, he⟩
  · rw [h, beginWake_afe, beginWake_tmr, beginWake_sar, beginWake_gauge]
    exact ⟨rfl, he⟩

/-- The parameters a scan judges by are those in force from it on. -/
def scanMoment (s : State) : State := { s with par := s.par.applyMoment .scan }

theorem applyScan_ov (x : ScanIn) (s : State) (i : Fin 16) :
    (applyScan x s).afe.ov[i] = (ovStep (scanMoment s) i (x.cells.getD i 0)).2 := by
  simp [applyScan, scanMoment]

theorem applyScan_uv (x : ScanIn) (s : State) (i : Fin 16) :
    (applyScan x s).afe.uv[i] = (uvStep (scanMoment s) i (x.cells.getD i 0)).2 := by
  simp [applyScan, scanMoment]

theorem toList_getD_fin {α : Type} {n : Nat} (v : Vector α n) (i : Fin n) (d : α) : v.toList.getD i d = v[i] := by
  simp [List.getD]

/-- A fault that stands clears beyond the hysteresis alone. -/
theorem faultStep_standing (scans : Nat) (bad good : Bool) (cnt : Nat) : (faultStep scans bad good cnt true).2 = !good := rfl

/-- A fault sets once enough consecutive scans have been bad. -/
theorem faultStep_absent (scans : Nat) (bad : Prop) [Decidable bad] (good : Bool) (cnt : Nat) :
    (faultStep scans (decide bad) good cnt false).2 = decide (bad ∧ scans ≤ min (cnt + 1) 255) := by
  by_cases h : bad <;> simp [faultStep, h]

section
variable {s : State} {i : Fin 16} (mv : Nat)

theorem ovStep_unused (h : ladderSeries s ≤ i) : (ovStep s i mv).2 = false := by simp [ovStep, h]

theorem ovStep_used (h : i < ladderSeries s) :
    ovStep s i mv = faultStep (limit s 1 0x0305) (decide (limit s 4450 0x0301 < mv))
      (decide (mv + limit s 50 0x0302 < limit s 4450 0x0301)) s.afe.ovCnt[i] s.afe.ov[i] := by
  rw [ovStep, if_neg (Nat.not_le.2 h), toList_getD_fin, toList_getD_fin]

theorem uvStep_unused (h : ladderSeries s ≤ i) : (uvStep s i mv).2 = false := by simp [uvStep, h]

theorem uvStep_ember (h : s.afe.emberLim = true) : (uvStep s i mv).2 = false := by simp [uvStep, h]

theorem uvStep_used (he : s.afe.emberLim = false) (h : i < ladderSeries s) :
    uvStep s i mv = uvJudge s (prm s 0x0303) (prm s 0x0304) mv s.afe.uvCnt[i] s.afe.uv[i] := by
  rw [uvStep, if_neg (by simp [he, h]), toList_getD_fin, toList_getD_fin]

end

/-- The first judgement of a reading inside the band is a fault. -/
theorem uvJudge_first {s : State} {thr hys mv : Nat} (hj : s.afe.uvJudged = false) (h1 : thr ≤ mv) (h2 : mv ≤ thr + hys)
    (cnt : Nat) (fault : Bool) : (uvJudge s thr hys mv cnt fault).2 = true := by
  simp [uvJudge, hj, h1, h2]

theorem uvJudge_later {s : State} (hj : s.afe.uvJudged = true) (thr hys mv cnt : Nat) (fault : Bool) :
    uvJudge s thr hys mv cnt fault =
      faultStep (prm s 0x0305) (decide (mv < thr)) (decide (thr + hys < mv)) cnt fault := by
  simp [uvJudge, hj]

/-- Settles O35: each cell's fault is that of its comparison, under the parameters in force from the scan on; a wake, the end of a
pulse and the alarm bits follow and touch none of it. -/
theorem ladderScanJudgesCells : Obligations.LadderScanJudgesCells := by
  unfold Obligations.LadderScanJudgesCells
  intro x s hl hm w u ember n ov ovHys scans uv uvHys
  have p : Passed s w := elapseTo_passed hm
  obtain ⟨hafe, htmr, hsar, hgauge⟩ := ladderScan_parts x w
  refine ⟨_, (exec_ladderScan x s).trans (execLadderScan_eq hl x), ?_⟩
  rw [alarmTrack_afe, alarmTrack_tmr, alarmTrack_sar, alarmTrack_gauge, dpasGuard_afe, dpasGuard_base, dpasGuard_sar,
    dpasGuard_gauge, hafe, htmr, hsar, hgauge, ← p.afe, p.sar, p.gauge]
  refine ⟨rfl, rfl, rfl, rfl, rfl, rfl, rfl, ?_⟩
  intro i mv
  rw [applyScan_ov, applyScan_uv, show scanMoment w = u from rfl]
  refine ⟨fun hi => ⟨ovStep_unused (s := u) mv hi, uvStep_unused (s := u) mv hi⟩, fun hi => ⟨fun hf => ?_, fun hf => ?_,
    fun he => uvStep_ember (s := u) mv he, fun he hj h1 h2 => ?_, fun he hj => ⟨fun hf => ?_, fun hf => ?_⟩⟩⟩
  · rw [ovStep_used (s := u) mv hi, show u.afe.ov[i] = true from hf]
    rfl
  · rw [ovStep_used (s := u) mv hi, show u.afe.ov[i] = false from hf]
    exact faultStep_absent _ _ _ _
  · rw [uvStep_used (s := u) mv he hi]
    exact uvJudge_first (s := u) (thr := uv) (hys := uvHys) hj h1 h2 _ _
  · rw [uvStep_used (s := u) mv he hi, uvJudge_later (s := u) hj, show u.afe.uv[i] = true from hf]
    rfl
  · rw [uvStep_used (s := u) mv he hi, uvJudge_later (s := u) hj, show u.afe.uv[i] = false from hf, faultStep_absent,
      show scans = prm u 0x0305 from if_neg (by simp [he])]

end Sys2Proof.Machine

/-! SUPPORT. Over-current: how a comparator counts its samples, what a trip leaves of its bank, and how the hold ends
(06_front_end_integrators.md R131 to R133). -/

namespace Sys2Proof.Machine

/-! ## The over-current state of a bank -/

@[simp] theorem ocOf_setOc_self (b : Bank) (o : Oc) (s : State) : ocOf b (setOc b o s) = o := by cases b <;> rfl

theorem ocOf_setOc_other {b other : Bank} (h : other ≠ b) (o : Oc) (s : State) :
    ocOf other (setOc b o s) = ocOf other s := by
  cases b with
  | a =>
    cases other with
    | a => exact absurd rfl h
    | b => rfl
  | b =>
    cases other with
    | a => rfl
    | b => exact absurd rfl h

theorem setOc_eq (b : Bank) (o : Oc) (s : State) : setOc b o s = { s with afe := (setOc b o s).afe } := by cases b <;> rfl

theorem ocOf_congr {s t : State} (h : t.afe = s.afe) (b : Bank) : ocOf b t = ocOf b s := by
  unfold ocOf
  rw [h]

@[simp] theorem limit_setOc (b : Bank) (o : Oc) (s : State) (ember id : Nat) :
    limit (setOc b o s) ember id = limit s ember id := by
  cases b <;> rfl

@[simp] theorem now_setOc (b : Bank) (o : Oc) (s : State) : now (setOc b o s) = now s := by cases b <;> rfl

/-! ## Samples (06_front_end_integrators.md R131) -/

/-- The CBM edges at which a comparator has taken samples since they were last counted. -/
def ocEdges (b : Bank) (c : OcCmp) (s : State) : Nat := cbmCount (now s) - cbmCount ((ocOf b s).countedTo c)

/-- The count that the last `n` samples go on from: samples before them that no command described lay inside. -/
def ocBefore (b : Bank) (c : OcCmp) (n : Nat) (s : State) : Nat :=
  if min n (ocEdges b c s) < ocEdges b c s then 0 else (ocOf b s).cnt c

/-- The samples of a comparator have been counted up to now, and its filter count is `k`. -/
def ocCounted (b : Bank) (c : OcCmp) (k : Nat) (s : State) : State :=
  setOc b (((ocOf b s).setCountedTo c (now s)).setCnt c k) s

section
variable {b : Bank} {c : OcCmp} {uv : Int} {n : Nat} {s : State}

theorem ocSamples_trips (hm : s.cqa.modRun = true) (hb : beyond s b c uv = true) (h1 : 1 ≤ min n (ocEdges b c s))
    (hf : filterLen s c ≤ ocBefore b c n s + min n (ocEdges b c s)) :
    ocSamples b c uv n s = beginWake (trip b c (ocCounted b c (ocBefore b c n s + min n (ocEdges b c s)) s)) := by
  rw [ocSamples, if_neg (by simp [hm])]
  refine (if_pos ?_).trans ?_
  · rw [Bool.and_eq_true, Bool.and_eq_true]
    exact ⟨⟨hb, decide_eq_true (Nat.ne_of_gt h1)⟩, decide_eq_true hf⟩
  · rw [hb]
    rfl

theorem ocSamples_counts (hm : s.cqa.modRun = true) (hb : beyond s b c uv = true)
    (hf : ocBefore b c n s + min n (ocEdges b c s) < filterLen s c) :
    ocSamples b c uv n s = ocCounted b c (ocBefore b c n s + min n (ocEdges b c s)) s := by
  rw [ocSamples, if_neg (by simp [hm])]
  refine (if_neg ?_).trans ?_
  · rw [Bool.and_eq_true]
    exact fun h => absurd (of_decide_eq_true h.2) (Nat.not_le.2 hf)
  · rw [hb]
    rfl

theorem ocSamples_clears (hm : s.cqa.modRun = true) (hb : beyond s b c uv = false) (h1 : 1 ≤ min n (ocEdges b c s)) :
    ocSamples b c uv n s = ocCounted b c 0 s := by
  rw [ocSamples, if_neg (by simp [hm])]
  refine (if_neg (by simp [hb])).trans ?_
  have h0 : ¬min n (cbmCount (now s) - cbmCount ((ocOf b s).countedTo c)) = 0 := Nat.ne_of_gt h1
  rw [hb, if_neg (by decide), if_neg h0]
  rfl

end

/-! ## Trips (06_front_end_integrators.md R131, R132) -/

theorem ocOf_counted (b : Bank) (c : OcCmp) (k : Nat) (s : State) :
    ocOf b (ocCounted b c k s) = ((ocOf b s).setCountedTo c (now s)).setCnt c k :=
  ocOf_setOc_self b _ s

theorem ocOf_counted_other {b other : Bank} (h : other ≠ b) (c : OcCmp) (k : Nat) (s : State) :
    ocOf other (ocCounted b c k s) = ocOf other s :=
  ocOf_setOc_other h _ s

theorem ocOf_trip_other {b other : Bank} (h : other ≠ b) (c : OcCmp) (s : State) :
    ocOf other (trip b c s) = ocOf other s :=
  ocOf_setOc_other h _ s

/-- The bank of a comparator that trips: its filter is clear, the hold runs, and the trip counts towards the latch. -/
def Oc.tripped (o : Oc) (c : OcCmp) (s : State) : Oc :=
  let trips := (o.trips.filter fun t => decide (now s ≤ t + secTicks 60)) ++ [now s]
  { o.setCnt c 0 with
    holdEnd := some (holdEndAt s (nextCbm (now s)))
    assertAt := if o.holdEnd.isSome then o.assertAt else nextCbm (now s)
    holdChg := c == .oc1Chg
    trips := trips
    latch := o.latch || (decide (limit s 3 0x0319 ≠ 0) && decide (limit s 3 0x0319 ≤ trips.length))
    count := satTo 255 (o.count + 1) }

theorem ocOf_trip (b : Bank) (c : OcCmp) (s : State) : ocOf b (trip b c s) = (ocOf b s).tripped c s :=
  ocOf_setOc_self b _ s

/-- What a comparator that trips leaves of its bank, with its samples counted up to now. -/
theorem trip_counted (b : Bank) (c : OcCmp) (k : Nat) (s : State) :
    let o := ocOf b s
    let p := ocOf b (trip b c (ocCounted b c k s))
    p.count = min (o.count + 1) 255 ∧ p.cnt c = 0 ∧ p.holdChg = (c == .oc1Chg) ∧
      p.holdEnd = some ((nextCbm (now s) / 2000 + (limit s 2000 0x0318 * 4096 + 999) / 1000) * 2000) ∧
      (o.holdEnd = none → p.assertAt = nextCbm (now s)) ∧
      p.trips = (o.trips.filter fun t => decide (now s ≤ t + 491520000)) ++ [now s] ∧
      p.latch = (o.latch || (limit s 3 0x0319 != 0 && decide (limit s 3 0x0319 ≤ p.trips.length))) := by
  intro o p
  have hp : p = (((ocOf b s).setCountedTo c (now s)).setCnt c k).tripped c (ocCounted b c k s) := by
    rw [← ocOf_counted]
    exact ocOf_trip b c _
  rw [hp]
  cases c <;>
    simp +contextual [Oc.tripped, Oc.setCnt, Oc.setCountedTo, Oc.cnt, ocCounted, satTo, holdEndAt, secTicks, o, bne,
      beq_eq_decide]

/-- The end of a pulse and the alarm bits leave the banks alone. -/
theorem ocOf_judged (b : Bank) (s : State) : ocOf b (alarmTrack (dpasGuard s)) = ocOf b s :=
  ocOf_congr ((alarmTrack_afe _).trans (dpasGuard_afe s)) b

theorem beginWake_entry (s : State) : (beginWake s).pwr.entry = none := by
  unfold beginWake
  split <;> rfl

theorem exec_protectionTrip (dt : Nat) (b : Bank) (c : OcCmp) (uv : Int) (n : Nat) (s : State) :
    exec (.protectionTrip dt b c uv n) s = execProtectionTrip dt b c uv n s := by rfl

theorem execProtectionTrip_eq {s : State} (hl : live s = true) (dt : Nat) (b : Bank) (c : OcCmp) (uv : Int) (n : Nat) :
    execProtectionTrip dt b c uv n s = .next (alarmTrack (dpasGuard (ocSamples b c uv n (elapse dt s)))) := by
  rw [execProtectionTrip, act_live hl]

/-- A wake, the end of a pulse and the alarm bits leave the banks alone. -/
theorem ocOf_wake_judged (b : Bank) (s : State) : ocOf b (alarmTrack (dpasGuard (beginWake s))) = ocOf b s :=
  (ocOf_judged b _).trans (ocOf_congr (beginWake_afe s) b)

/-- What a trip leaves besides its bank: a decided entry is cancelled, the base and the gauge stay. -/
theorem trip_rest (b : Bank) (c : OcCmp) (k : Nat) (s : State) :
    let t := alarmTrack (dpasGuard (beginWake (trip b c (ocCounted b c k s))))
    t.pwr.entry = none ∧ t.tmr.base = s.tmr.base ∧ t.gauge = s.gauge := by
  dsimp only
  rw [alarmTrack_pwr, alarmTrack_tmr, alarmTrack_gauge, dpasGuard_pwr, dpasGuard_base, dpasGuard_gauge, beginWake_tmr,
    beginWake_gauge, beginWake_entry, trip, ocCounted, setOc_eq, setOc_eq]
  exact ⟨rfl, rfl, rfl⟩

/-! ## The end of the hold (06_front_end_integrators.md R132) -/

theorem exec_protectionHoldEnd (b : Bank) (s : State) :
    exec (.protectionHoldEnd b) s = execProtectionHoldEnd b s := by rfl

theorem execProtectionHoldEnd_due {b : Bank} {s : State} {e : Nat} (hl : live s = true) (he : (ocOf b s).holdEnd = some e) :
    execProtectionHoldEnd b s = .next (alarmTrack (holdOver b (elapseTo e s))) := by
  rw [execProtectionHoldEnd, actAt_due hl he]

/-- Settles O36: the samples of a comparator go on from its count, and what they leave of the bank is that of the trip, of the
count or of a clear filter; a wake, the end of a pulse and the alarm bits follow and touch no bank. -/
theorem overCurrentTripsAndReleases : Obligations.OverCurrentTripsAndReleases := by
  unfold Obligations.OverCurrentTripsAndReleases
  intro dt n b other c uv s hl hm hother r o edges m before
  have done {t : State} (h : ocSamples b c uv n r = t) :
      exec (.protectionTrip dt b c uv n) s = .next (alarmTrack (dpasGuard t)) := by
    rw [exec_protectionTrip, execProtectionTrip_eq hl, h]
  refine ⟨fun hrun hb h1 hf => ?_, fun hrun hb hf => ?_, fun hrun hb h1 => ?_, fun e he => ?_⟩
  · refine ⟨_, done (ocSamples_trips hrun hb h1 hf), ?_⟩
    obtain ⟨hcount, hcnt, hchg, hend, hat, htrips, hlatch⟩ := trip_counted b c (before + m) r
    rw [ocOf_wake_judged, ocOf_wake_judged]
    exact ⟨(ocOf_trip_other hother _ _).trans (ocOf_counted_other hother _ _ _), hcount, hcnt, hchg, hend, hat, htrips,
      hlatch, trip_rest b c (before + m) r⟩
  · refine ⟨_, done (ocSamples_counts hrun hb hf), ?_⟩
    rw [ocOf_judged, ocOf_judged]
    exact ⟨ocOf_counted _ _ _ _, ocOf_counted_other hother _ _ _⟩
  · refine ⟨_, done (ocSamples_clears hrun hb h1), ?_⟩
    rw [ocOf_judged, ocOf_judged]
    exact ⟨ocOf_counted _ _ _ _, ocOf_counted_other hother _ _ _⟩
  · have ha : (elapseTo e s).afe = s.afe := (elapseTo_passed hm).afe
    refine ⟨_, (exec_protectionHoldEnd b s).trans (execProtectionHoldEnd_due hl he), ?_⟩
    rw [ocOf_congr (alarmTrack_afe _), ocOf_congr (alarmTrack_afe _), holdOver, ocOf_setOc_self, ocOf_setOc_other hother,
      ocOf_congr ha, ocOf_congr ha, alarmTrack_eq, setOc_eq]
    exact ⟨rfl, rfl, rfl⟩

end Sys2Proof.Machine

/-! SUPPORT. The integrators: an output boundary, the load it shows, the wake and the calibration that follow from it
(05_supply_and_modes.md R117 to R119, R123; 06_front_end_integrators.md R140, R143, R144; 07_sar_and_accumulators.md R171). -/

namespace Sys2Proof.Machine

/-! ## The integrator of a bank -/

@[simp] theorem cqOf_setCq_self (b : Bank) (q : Cq) (s : State) : cqOf b (setCq b q s) = q := by cases b <;> rfl

@[simp] theorem setCq_pwr (b : Bank) (q : Cq) (s : State) : (setCq b q s).pwr = s.pwr := by cases b <;> rfl

@[simp] theorem setCq_sar (b : Bank) (q : Cq) (s : State) : (setCq b q s).sar = s.sar := by cases b <;> rfl

@[simp] theorem now_setCq (b : Bank) (q : Cq) (s : State) : now (setCq b q s) = now s := by cases b <;> rfl

theorem cqOf_congr {s t : State} (ha : t.cqa = s.cqa) (hb : t.cqb = s.cqb) (b : Bank) : cqOf b t = cqOf b s := by
  unfold cqOf
  rw [ha, hb]

theorem cqOf_beginWake (b : Bank) (s : State) : cqOf b (beginWake s) = cqOf b s :=
  cqOf_congr (by rw [beginWake_eq]) (by rw [beginWake_eq]) b

/-- Time leaves the integrators alone, whatever the mode and with a wake on the way or not. -/
theorem cqOf_elapseTo (b : Bank) (t : Nat) (s : State) : cqOf b (elapseTo t s) = cqOf b s := by
  have raw (e : Nat) (u : State) : cqOf b (passRaw e u) = cqOf b u :=
    cqOf_congr (passRaw_passed e u).cqa (passRaw_passed e u).cqb b
  unfold elapseTo
  dsimp only
  split_ifs
  · split
    · rw [raw, cqOf_beginWake, raw]
    · exact raw _ _
  · exact raw _ _

/-! ## Tallies (06_front_end_integrators.md R140) -/

theorem tallyAdd_running {q : Cq} (h : q.modRun = true) (t : Nat) (d : Int) (n : Nat) :
    (tallyAdd t d n q).tally = wrap48 (q.tally + bitSum (cbmSince t q) d) := by
  simp [tallyAdd, h]

theorem tallyAdd_modRun (t : Nat) (d : Int) (n : Nat) (q : Cq) : (tallyAdd t d n q).modRun = q.modRun := by
  unfold tallyAdd
  split_ifs <;> rfl

theorem addBits_modRun (b : Bank) (bits : Bits) (s : State) : (cqOf b (addBits bits s)).modRun = (cqOf b s).modRun := by
  cases b <;> exact tallyAdd_modRun _ _ _ _

/-! ## Output boundaries (06_front_end_integrators.md R143, R144) -/

theorem winBound_eq (w : Nat) : winBound w = max 32 (min 1048576 w) := by
  unfold winBound
  split_ifs <;> omega

theorem clampI_eq {lo hi : Int} (h : lo ≤ hi) (v : Int) : clampI lo hi v = max lo (min hi v) := by
  unfold clampI
  split_ifs <;> omega

/-- The window and the order that CQ_CFG holds are those in force. -/
def Cq.SettingsInForce (q : Cq) : Prop := q.actWin = max 32 (min 1048576 q.win) ∧ q.actOrder = q.order + 1

/-- The output that a boundary publishes. -/
def outOf (mean : Int) : Int := max (-8388608) (min 8388607 mean)

/-- The integrator past a boundary that publishes. -/
def Cq.published (mean : Int) (q : Cq) : Cq :=
  { q with
    edge := q.edge + q.actWin, settle := 0, outValid := true, new := true, out := outOf mean, lastOut := outOf mean }

section
variable {q : Cq} (mean : Int)

theorem cqBoundary_changed (h : ¬q.SettingsInForce) :
    cqBoundary mean q = { q with
      edge := q.edge + q.actWin, actWin := max 32 (min 1048576 q.win), actOrder := q.order + 1, settle := q.order + 1
      outValid := false } := by
  rw [cqBoundary, winBound_eq]
  exact if_pos (not_and_or.1 h)

theorem cqBoundary_settling (h : q.SettingsInForce) (hs : 2 ≤ q.settle) :
    cqBoundary mean q = { q with edge := q.edge + q.actWin, settle := q.settle - 1 } := by
  rw [cqBoundary, winBound_eq]
  exact (if_neg (not_or.2 ⟨not_not.2 h.1, not_not.2 h.2⟩)).trans (if_pos hs)

theorem cqBoundary_published (h : q.SettingsInForce) (hs : q.settle ≤ 1) : cqBoundary mean q = q.published mean := by
  rw [cqBoundary, winBound_eq, clampI_eq (by decide)]
  exact (if_neg (not_or.2 ⟨not_not.2 h.1, not_not.2 h.2⟩)).trans (if_neg (Nat.not_lt.2 hs))

end

/-! ## Calibration (07_sar_and_accumulators.md R171) -/

theorem calTake_idle {s : State} (h : s.sar.calRun = false) (b : Bank) (q : Cq) : calTake b q s = s := by
  simp [calTake, h]

theorem calTake_takes {b : Bank} {q : Cq} {s : State} (h : s.sar.calRun = true)
    (hp : s.sar.calPair = match b with | .a => 0x30 | .b => 0x31) (hc : s.sar.calCnt < 16) (hv : q.outValid = true) :
    calTake b q s = { s with sar := { s.sar with calCnt := s.sar.calCnt + 1, calSum := s.sar.calSum + q.out } } := by
  cases b <;> simp [calTake, h, hp, hc, hv]

/-! ## What an output shows of the load (05_supply_and_modes.md R117 to R119) -/

/-- The load of a bank is noted; at or above WAKE_MA it restarts idleness. -/
def loadNoted (b : Bank) (l : Bool) (s : State) : State :=
  let p := match b with | .a => { s.pwr with loadA := l } | .b => { s.pwr with loadB := l }
  { s with pwr := if l then { p with idleSince := now s } else p }

theorem cqOf_loadNoted (b : Bank) (l : Bool) (s : State) : cqOf b (loadNoted b l s) = cqOf b s := cqOf_congr rfl rfl b

theorem loadNoted_pwr (b : Bank) (l : Bool) (s : State) :
    loadOf b (loadNoted b l s) = l ∧ (loadNoted b l s).pwr.idleSince = (if l then now s else s.pwr.idleSince) ∧
      (loadNoted b l s).pwr.entry = s.pwr.entry ∧ (loadNoted b l s).pwr.mode = s.pwr.mode := by
  cases b <;> cases l <;> exact ⟨rfl, rfl, rfl, rfl⟩

section
variable {b : Bank} {mean : Int} {s : State}

/-- A boundary that publishes nothing leaves the integrator past it, and no more. -/
theorem cqOutputAt_unpublished (hr : (cqOf b s).modRun = true) (hc : s.sar.calRun = false)
    (hs : (cqBoundary mean (cqOf b s)).settle ≠ 0) :
    cqOutputAt b mean s = setCq b (cqBoundary mean (cqOf b s)) s := by
  have hq (q : Cq) : calTake b q (setCq b q s) = setCq b q s := calTake_idle (by rwa [setCq_sar]) b q
  rw [cqOutputAt, if_neg (by simp [hr])]
  exact (if_pos hs).trans (hq _)

/-- A published output goes to the calibration, and the load it shows is noted; a load wakes a part that sleeps, and where it
has only now risen, cancels a decided entry. -/
theorem cqOutputAt_published {t : State} (hr : (cqOf b s).modRun = true) (h : (cqOf b s).SettingsInForce)
    (hs : (cqOf b s).settle ≤ 1)
    (ht : calTake b ((cqOf b s).published mean) (setCq b ((cqOf b s).published mean) s) = t) :
    let l := loaded b s (outOf mean)
    cqOutputAt b mean s =
      if l && (lowPower s || !loadOf b s) then beginWake (loadNoted b l t) else loadNoted b l t := by
  rw [cqOutputAt, if_neg (by simp [hr]), cqBoundary_published mean h hs, ← ht]
  exact if_neg (not_not.2 rfl)

end

/-- In Run a load that is noted, and what it cancels, leave all but the supply block alone. -/
theorem loadNoted_run {s : State} (hm : s.pwr.mode = .run) (b : Bank) (l rises : Bool) :
    let t := if rises then beginWake (loadNoted b l s) else loadNoted b l s
    t = { s with pwr := t.pwr } ∧ loadOf b t = l ∧ t.pwr.idleSince = (if l then now s else s.pwr.idleSince) ∧
      t.pwr.entry = (if rises then none else s.pwr.entry) := by
  obtain ⟨hload, hidle, hentry, hmode⟩ := loadNoted_pwr b l s
  cases rises with
  | false => exact ⟨rfl, hload, hidle, hentry⟩
  | true =>
    have hw : beginWake (loadNoted b l s) = { s with pwr := { (loadNoted b l s).pwr with entry := none } } := by
      rw [beginWake, hmode.trans hm]
      rfl
    rw [if_pos rfl, hw]
    have hb (p : Pwr) : loadOf b { s with pwr := { p with entry := none } } = loadOf b { s with pwr := p } := by
      cases b <;> rfl
    exact ⟨rfl, (hb _).trans hload, hidle, rfl⟩

/-- A load that wakes a part in Doze starts Lode at this edge. -/
theorem loadNoted_doze {s : State} (hm : s.pwr.mode = .doze) (b : Bank) (l : Bool) :
    let t := beginWake (loadNoted b l s)
    t.pwr.mode = .run ∧ t.clk.lode = .locking ∧ t.clk.lodeStart = now s := by
  obtain ⟨-, -, -, hmode⟩ := loadNoted_pwr b l s
  dsimp only
  rw [beginWake, hmode.trans hm]
  exact ⟨rfl, rfl, rfl⟩

/-- What a load causes leaves the integrators and the SAR alone. -/
theorem loadNoted_parts (b : Bank) (l wakes : Bool) (s : State) :
    let t := if wakes then beginWake (loadNoted b l s) else loadNoted b l s
    cqOf b t = cqOf b s ∧ t.sar = s.sar := by
  cases wakes with
  | false => exact ⟨cqOf_loadNoted b l s, rfl⟩
  | true => exact ⟨(cqOf_beginWake b _).trans (cqOf_loadNoted b l s), beginWake_sar _⟩

theorem exec_cqOutput (b : Bank) (mean : Int) (bits : Bits) (s : State) :
    exec (.cqOutput b mean bits) s = execCqOutput b mean bits s := by rfl

theorem execCqOutput_running {b : Bank} {s : State} (hl : live s = true) (hr : (cqOf b s).modRun = true) (mean : Int)
    (bits : Bits) :
    execCqOutput b mean bits s =
      .next (cqOutputAt b mean (addBits bits (elapseTo (cbmAt ((cqOf b s).edge + (cqOf b s).actWin)) s))) := by
  rw [execCqOutput, actAt_due hl (if_pos hr)]
  rfl

/-- Settles O37: time brings the part to the boundary, the tallies come up to it, and what the boundary then does follows from the
settings in force and from how far the filter has settled. -/
theorem integratorOutputs : Obligations.IntegratorOutputs := by
  unfold Obligations.IntegratorOutputs
  intro b mean bits s hl hr r w q q1 out loads same pub
  have hrr : (cqOf b r).modRun = true := (congrArg Cq.modRun (cqOf_elapseTo b _ s)).trans hr
  have hrw : (cqOf b w).modRun = true := (addBits_modRun b bits r).trans hrr
  have hx : exec (.cqOutput b mean bits) s = .next (cqOutputAt b mean w) :=
    (exec_cqOutput b mean bits s).trans (execCqOutput_running hl hr mean bits)
  refine ⟨?_, fun hc => ?_, fun hc hp hn hs h1 => ?_⟩
  · cases b <;> exact tallyAdd_running hrr _ _ _
  · have hcal : calTake b ((cqOf b w).published mean) pub = pub := calTake_idle (by rwa [setCq_sar]) b _
    have hout (hs : same) (h1 : q.settle ≤ 1) : cqOutputAt b mean w =
        if loads && (lowPower w || !loadOf b w) then beginWake (loadNoted b loads pub) else loadNoted b loads pub :=
      cqOutputAt_published hrw hs h1 hcal
    refine ⟨fun hs => ?_, fun hs h2 => ?_, fun hs h1 hm => ?_, fun hs h1 hm hload => ?_⟩
    · have hb := cqBoundary_changed mean (q := cqOf b w) hs
      rw [hx, cqOutputAt_unpublished hrw hc (by rw [hb]; exact Nat.succ_ne_zero _), hb]
    · have hb := cqBoundary_settling mean (q := cqOf b w) hs h2
      have h0 : (cqOf b w).settle - 1 ≠ 0 := Nat.sub_ne_zero_of_lt h2
      rw [hx, cqOutputAt_unpublished hrw hc (by rw [hb]; exact h0), hb]
    · have hrun : pub.pwr.mode = .run := by rwa [setCq_pwr]
      have hawake : lowPower w = false := by simp [lowPower, hm]
      obtain ⟨hrest, hl, hidle, hentry⟩ := loadNoted_run hrun b loads (loads && !loadOf b w)
      rw [now_setCq, setCq_pwr] at hidle
      rw [setCq_pwr] at hentry
      refine ⟨_, ?_, hrest, hl, hidle, hentry⟩
      rw [hx, hout hs h1, hawake, Bool.false_or]
    · have hdoze : pub.pwr.mode = .doze := by rwa [setCq_pwr]
      have hasleep : lowPower w = true := by simp [lowPower, hm]
      obtain ⟨hmode, hlode, hstart⟩ := loadNoted_doze hdoze b loads
      rw [now_setCq] at hstart
      refine ⟨_, ?_, hmode, hlode, hstart, (cqOf_beginWake b _).trans (cqOf_loadNoted b loads pub)⟩
      rw [hx, hout hs h1, if_pos (by rw [hload, hasleep, Bool.true_or, Bool.true_and])]
  · have hcal := calTake_takes (q := (cqOf b w).published mean) (s := pub) (by rwa [setCq_sar]) (by rwa [setCq_sar])
      (by rwa [setCq_sar]) rfl
    refine ⟨_, hx.trans (congrArg _ (cqOutputAt_published hrw hs h1 hcal)), ?_⟩
    obtain ⟨hcq, hsar⟩ := loadNoted_parts b loads (loads && (lowPower w || !loadOf b w))
      { pub with sar := { pub.sar with calCnt := pub.sar.calCnt + 1, calSum := pub.sar.calSum + out } }
    refine ⟨hcq.trans (cqOf_congr rfl rfl b), hsar.trans ?_⟩
    rw [setCq_sar]

end Sys2Proof.Machine

/-! SUPPORT. A write of VAL of a compare channel: it goes through the setting of the channel, which keeps the five bits of MODE
that are not reserved (00_scope.md R5; 08_timers.md R177, R179; 16_register_parameter_map.md R376, R384). -/

namespace Sys2Proof.Machine

/-- At OPEN, which serves every POKE, a write acts as its operation, after which only the alarm bits are judged anew. -/
theorem pokeAct_opened {dt b off : Nat} {f : State → State} {s u : State} (hl : live s = true)
    (hb : busUp (elapse dt s) = true) (hp : 2 ≤ (elapse dt s).start.stage.code) (hk : (elapse dt s).sec.lock = .opened)
    (hf : f (elapse dt s) = u) (hu : Quiet u) : pokeAct dt b off f s = .next (alarmTrack u) := by
  have hneed : (if pokeOpen b off then 2 else 1) ≤ 2 := by split_ifs <;> decide
  rw [pokeAct, act_live hl]
  simp [hb, atLeast_pour.2 hp, hk, hneed, hf, settle_quiet hu]

theorem regWrite_cmpVal (ch : Fin 8) (v : Nat) (s : State) :
    regWrite 7 (0x100 + 0x10 * ch) v s = cmpSet ch v s.tmr.cmp[ch].mode s := by
  rw [← vget_fin s.tmr.cmp ch Cmp.reset]
  fin_cases ch <;> rfl

theorem pokeInRange_cmpVal (ch : Fin 8) (v : Nat) (s : State) : pokeInRange s 7 (0x100 + 0x10 * ch) v = true := by
  fin_cases ch <;> rfl

theorem exec_cmpRegisterWrite (dt : Nat) (ch : Fin 8) (mode : Bool) (v : Word) (s : State) :
    exec (.cmpRegisterWrite dt ch mode v) s = execCmpRegisterWrite dt ch mode v s := by rfl

theorem execCmpRegisterWrite_val {dt : Nat} {s : State} (hl : live s = true) (hb : busUp (elapse dt s) = true)
    (hq : Quiet (elapse dt s)) (hp : 2 ≤ (elapse dt s).start.stage.code) (hk : (elapse dt s).sec.lock = .opened)
    (ch : Fin 8) (v : Word) :
    execCmpRegisterWrite dt ch false v s =
      .next (alarmTrack (cmpSet ch v.toNat (elapse dt s).tmr.cmp[ch].mode (elapse dt s))) := by
  have hf : (if pokeInRange (elapse dt s) 7 (0x100 + 0x10 * ch) v.toNat
      then regWrite 7 (0x100 + 0x10 * ch) v.toNat (elapse dt s) else elapse dt s) =
      cmpSet ch v.toNat (elapse dt s).tmr.cmp[ch].mode (elapse dt s) := by
    rw [pokeInRange_cmpVal, if_pos rfl, regWrite_cmpVal]
  exact pokeAct_opened hl hb hp hk hf (quiet_congr hq rfl rfl)

/-- The reserved bits of MODE store nothing, whatever they held. -/
theorem cmpSet_mode (ch : Fin 8) (v : Nat) (mode : BitVec 8) (s : State) :
    (cmpSet ch v mode s).tmr.cmp[ch].mode = mode &&& 0x1F := by
  rw [cmpSet, vset_fin_self]

/-- A part at OPEN in Pour, with Lode on, whose compare channel 0 holds a 1 in a reserved bit of MODE. -/
def strayMode : State :=
  { State.reset with
    clk := { State.reset.clk with lode := .on }
    start := { State.reset.start with stage := .pour }
    sec := { State.reset.sec with lock := .opened }
    tmr := { State.reset.tmr with cmp := vset State.reset.tmr.cmp 0 { Cmp.reset with mode := 0x20 } } }

/-- Refutes O53: a write of VAL stores MODE anew without its reserved bits, where the statement leaves MODE as it was. With a
reserved bit set, which no command stores but nothing in the statement excludes, the two differ. -/
theorem not_registerWritesAct : ¬ Obligations.RegisterWritesAct := by
  unfold Obligations.RegisterWritesAct
  intro h
  have he : elapse 0 strayMode = strayMode := by rfl
  have hl : live strayMode = true := rfl
  have hb : busUp (elapse 0 strayMode) = true := by rw [he]; rfl
  have hq : Quiet (elapse 0 strayMode) := by rw [he]; exact ⟨by decide, rfl, rfl, rfl⟩
  have hk : (elapse 0 strayMode).sec.lock = .opened := by rw [he]; rfl
  have hp : 2 ≤ (elapse 0 strayMode).start.stage.code := by rw [he]; decide
  obtain ⟨hup, -⟩ := h 0 0 0 strayMode hl
  obtain ⟨hopen, -⟩ := hup hb hq
  obtain ⟨hcmp, -⟩ := hopen hk hp
  obtain ⟨hval, -⟩ := hcmp 0
  rw [exec_cmpRegisterWrite, execCmpRegisterWrite_val hl hb hq hp hk] at hval
  injection hval with hval
  have hmode := congrArg (fun t : State => t.tmr.cmp[(0 : Fin 8)].mode) hval
  rw [alarmTrack_tmr, alarmTrack_tmr, cmpSet_mode, vset_fin_self, he] at hmode
  exact absurd hmode (by decide)

end Sys2Proof.Machine

/-! SUPPORT. The requests of the SAR block: accumulators, trackers and sequence tables, Flares and calibrations
(07_sar_and_accumulators.md R153, R154, R158, R164, R168 to R171). -/

namespace Sys2Proof.Machine

/-! ## What the operations do (07 R153, R154, R158, R164, R168) -/

/-- The elements that a mask of ACC_CLEAR names are cleared (07 R164). -/
def clearMasked {α : Type} (m : Nat) (x : α) (v : Vector α 32) : Vector α 32 :=
  v.mapIdx fun i a => if m / 2 ^ i % 2 = 1 then x else a

theorem getElem_clearMasked {α : Type} (m : Nat) (x : α) (v : Vector α 32) (i : Fin 32) :
    (clearMasked m x v)[i] = if m.testBit i then x else v[i] := by
  simp [clearMasked, Nat.testBit_eq_decide_div_mod_eq]

theorem runAccClear_eq (o : Oper) (s : State) :
    runAccClear o s = (okWith [], { s with sar := { s.sar with
      acc := clearMasked (leAt o.payload 0 4) Acc.empty s.sar.acc
      trk := clearMasked (leAt o.payload 4 4) Trk.empty s.sar.trk } }) := rfl

theorem runAccRead_eq (o : Oper) (s : State) :
    runAccRead o s = (okWith (accBytes (vget s.sar.acc (o.argN % 0x8000) Acc.empty) (now s)), { s with sar := { s.sar with
      acc := if decide (0x8000 ≤ o.argN) then vset s.sar.acc (o.argN % 0x8000) Acc.empty else s.sar.acc } }) := by
  by_cases h : 0x8000 ≤ o.argN <;> simp [runAccRead, h, modAcc]

theorem runTrkRead_eq (o : Oper) (s : State) :
    runTrkRead o s = (okWith (trkBytes (vget s.sar.trk (o.argN % 0x8000) Trk.empty)), { s with sar := { s.sar with
      trk := if decide (0x8000 ≤ o.argN) then vset s.sar.trk (o.argN % 0x8000) Trk.empty else s.sar.trk } }) := by
  by_cases h : 0x8000 ≤ o.argN <;> simp [runTrkRead, h, modTrk]

theorem runSeqLoad_routine {o : Oper} (h : o.argN = 0) (s : State) :
    runSeqLoad o s = (okWith [], { s with sar := { s.sar with routNext := some ((entriesOf 10 o).map seqOfBytes) } }) := by
  simp [runSeqLoad, h]

theorem runSeqLoad_burst {o : Oper} (h : o.argN = 1) (s : State) :
    runSeqLoad o s = (okWith [], { s with sar := { s.sar with burst := (entriesOf 10 o).map seqOfBytes } }) := by
  simp [runSeqLoad, h]

theorem runSeqStart_remove {o : Oper} (h : o.argN = 0x8000) (s : State) :
    runSeqStart o s = (okWith [], { s with sar := { s.sar with
      routNext := none, routDrop := s.sar.routPos.isSome
      routPort := if s.sar.routPos.isSome then s.sar.routPort else [] } }) := by
  simp [runSeqStart, h]

theorem runSeqStart_burst {o : Oper} (h : o.argN = 1) (s : State) :
    runSeqStart o s = (okWith [], { s with sar := { s.sar with
      burstOn := !s.sar.burst.isEmpty, burstLeft := leAt o.payload 0 4, burstStop := false
      burstPos := seqStart s s.sar.burst } }) := by
  simp [runSeqStart, h]

theorem runSeqStart_stop {o : Oper} (h : o.argN = 0x8001) (s : State) :
    runSeqStart o s = (okWith [], { s with sar := { s.sar with burstStop := s.sar.burstOn } }) := by
  simp [runSeqStart, h]

theorem accumulatorsReadAndClear : AccumulatorsReadAndClear := by
  intro dt p s A
  refine ⟨fun hp => ?_, fun hp => ?_, fun hp => ?_⟩
  · exact answers_of_effect rfl A (.inr rfl) hp (fun _ _ _ _ => runAccRead_eq _ _) rfl rfl rfl
  · exact answers_of_effect rfl A (.inr rfl) hp (fun _ _ _ _ => runTrkRead_eq _ _) rfl rfl rfl
  · exact ⟨clearMasked (leAt p.payload 0 4) Acc.empty (elapse dt s).sar.acc,
      clearMasked (leAt p.payload 4 4) Trk.empty (elapse dt s).sar.trk, answers_of_effect rfl A (.inr rfl) hp
        (fun _ _ _ _ => runAccClear_eq _ _) rfl rfl rfl,
      fun i => ⟨getElem_clearMasked _ _ _ i, getElem_clearMasked _ _ _ i⟩⟩

theorem tablesLoadAndStart : TablesLoadAndStart := by
  intro dt p s A
  have hn {op : Op} {a : BitVec 16} (h : p.arg = a) : (opFor op p (elapse dt s)).argN = a.toNat := congrArg BitVec.toNat h
  refine ⟨fun hp => ⟨fun ha => ?_, fun ha => ?_⟩, fun hp => ⟨fun ha => ?_, fun ha => ?_, fun ha => ?_⟩⟩
  · exact answers_of_effect rfl A (.inr rfl) hp (fun _ _ _ _ => runSeqLoad_routine (hn ha) _) rfl rfl rfl
  · exact answers_of_effect rfl A (.inr rfl) hp (fun _ _ _ _ => runSeqLoad_burst (hn ha) _) rfl rfl rfl
  · exact answers_of_effect rfl A (.inr rfl) hp (fun _ _ _ _ => runSeqStart_remove (hn ha) _) rfl rfl rfl
  · exact answers_of_effect rfl A (.inr rfl) hp (fun _ _ _ _ => runSeqStart_burst (hn ha) _) rfl rfl rfl
  · exact answers_of_effect rfl A (.inr rfl) hp (fun _ _ _ _ => runSeqStart_stop (hn ha) _) rfl rfl rfl

/-- Settles O2: each request is its operation on the SAR block, which touches neither its port nor the sequencer. -/
theorem sarRequestsAct : Obligations.SarRequestsAct := ⟨accumulatorsReadAndClear, tablesLoadAndStart⟩

end Sys2Proof.Machine

/-! SUPPORT. An operation alone in flight that has started and has no status to give yet: the sequencer leaves it alone. A request
that waits in this way keeps its slot without an answer (03_sprue_commands.md R57, R63). -/

namespace Sys2Proof.Machine

/-! ## An operation in flight that owes nothing now -/

/-- The operation has started, and has neither a final status nor a reply to give now. -/
structure Ongoing (o : Oper) : Prop where
  started : o.waiting = false
  open_   : o.final = none
  owes    : o.replied = true ∨ o.interim = none

/-- A fold that keeps its best choice or takes the element at hand answers an element, or the choice it began with. -/
theorem mem_of_foldl_eq_some {α : Type} {f : Option α → α → Option α} (hf : ∀ b y x, f b y = some x → x = y ∨ b = some x)
    {l : List α} {b : Option α} {x : α} (h : l.foldl f b = some x) : x ∈ l ∨ b = some x := by
  induction l generalizing b with
  | nil => exact .inr h
  | cons y l ih =>
    rcases ih h with hm | he
    · exact .inl (List.mem_cons_of_mem y hm)
    · rcases hf b y x he with rfl | hb
      · exact .inl List.mem_cons_self
      · exact .inr hb

/-- The operation whose reply a port owes first is in flight and has not replied. -/
theorem firstOwing_spec {s : State} {p : Port} {x : Oper} (h : firstOwing s p = some x) :
    x ∈ ops s ∧ x.replied = false := by
  unfold firstOwing at h
  have hm := mem_of_foldl_eq_some (fun b y x e => by
    cases b with
    | none => exact .inl (by simpa using e.symm)
    | some z =>
      dsimp only at e
      split_ifs at e
      · exact .inl (by simpa using e.symm)
      · exact .inr e) h
  obtain ⟨hx, hc⟩ := List.mem_filter.1 (hm.resolve_right (by simp))
  exact ⟨hx, by simp_all⟩

/-- No reply leaves where every operation in flight has replied or has no status to give. -/
theorem deliverAll_none {s : State} (h : ∀ x ∈ ops s, x.replied = true ∨ x.interim = none ∧ x.final = none)
    (he : s.sprue.early = []) (n : Nat) : deliverAll n s = s := by
  have hd (p : Port) : deliver p s = none := by
    have h1 : firstEarly s p = none := by simp [firstEarly, he]
    cases h2 : firstOwing s p with
    | none => simp [deliver, h1, h2]
    | some x =>
      obtain ⟨hx, hr⟩ := firstOwing_spec h2
      obtain ⟨hi, hf⟩ := (h x hx).resolve_left (by simp [hr])
      simp [deliver, h1, h2, hi, hf]
  cases n with
  | zero => rfl
  | succ n => simp [deliverAll, hd]

/-- A fold whose every step leaves every state alone does so itself. -/
theorem foldl_fixed {α β : Type} {f : α → β → α} {l : List β} (h : ∀ b ∈ l, ∀ a, f a b = a) (a : α) : l.foldl f a = a := by
  induction l generalizing a with
  | nil => rfl
  | cons b l ih => rw [List.foldl_cons, h b List.mem_cons_self, ih fun x hx => h x (List.mem_cons_of_mem b hx)]

/-- Nor is one handed over. -/
theorem releaseAll_none {s : State} (h : ∀ x ∈ ops s, x.replied = true ∨ x.interim = none ∧ x.final = none) :
    releaseAll s = s :=
  foldl_fixed (fun x hx u => by rcases h x hx with hr | ⟨hi, hf⟩ <;> simp [release, *]) s

theorem Ongoing.pump_eq {s : State} {o : Oper} (h : Ongoing o) (ho : ops s = [o]) (he : s.sprue.early = [])
    (hh : s.sprue.held = []) (n : Nat) : pump n s = s := by
  have hall : ∀ x ∈ ops s, x.replied = true ∨ x.interim = none ∧ x.final = none := by
    simpa [ho, h.open_] using h.owes
  cases n with
  | zero => rfl
  | succ n =>
    have hs : storeAll s = s := by simp [storeAll, ho, h.open_]
    have hn : nextStart s = none := by simp [nextStart, ho, List.filter, startable, h.started]
    simp [pump, deliverAll_none hall he, releaseAll_none hall, hs, takeHeld, hh, hn]

/-- Settling judges no operation but an AUTH_CHAL and a LOG_MARK anew (13 R339; 05 R109). -/
theorem authSettle_other {o : Oper} (h : o.op ≠ .authChal) (s : State) : authSettle s o = s := by simp [authSettle, h]

theorem markSettle_other {o : Oper} (h : o.op ≠ .logMark) (s : State) : markSettle s o = s := by simp [markSettle, h]

/-- Settling, where the operations in flight are neither, is the work of the sequencer and what waits for its replies. -/
theorem settle_pump {s : State} (h : ∀ o ∈ ops s, o.op ≠ .authChal ∧ o.op ≠ .logMark) :
    settle s = runDeferred 8 (pump 32 (alarmTrack s)) := by
  have hops : ops (alarmTrack s) = ops s := by rw [alarmTrack_eq]; rfl
  have h1 : (ops s).foldl authSettle (alarmTrack s) = alarmTrack s :=
    foldl_fixed (fun o ho u => authSettle_other (h o ho).1 u) _
  have h2 : (ops s).foldl markSettle (alarmTrack s) = alarmTrack s :=
    foldl_fixed (fun o ho u => markSettle_other (h o ho).2 u) _
  simp only [settle, hops, h1, h2]

@[simp] theorem alarmTrack_sprue (s : State) : (alarmTrack s).sprue = s.sprue := by rw [alarmTrack_eq]

theorem ops_alarmTrack (s : State) : ops (alarmTrack s) = ops s := ops_congr (by rw [alarmTrack_sprue])

theorem alarmTrack_queue (s : State) : (alarmTrack s).host.queue = s.host.queue := by rw [alarmTrack_host]

/-- With such an operation alone in flight, settling only judges the alarm bits. -/
theorem Ongoing.settle_eq {s : State} {o : Oper} (h : Ongoing o) (ha : o.op ≠ .authChal) (hm : o.op ≠ .logMark)
    (ho : ops s = [o]) (he : s.sprue.early = []) (hh : s.sprue.held = []) (hd : s.pwr.deferred = []) :
    settle s = alarmTrack s := by
  rw [settle_pump (by simp [ho, ha, hm]), h.pump_eq (by rw [ops_alarmTrack, ho]) (by simpa using he) (by simpa using hh),
    runDeferred_nil (by rw [alarmTrack_eq]; exact hd)]

/-! ## A request that waits for what it asked for (03 R57) -/

/-- The arrival of a request changes no more of the host port than any request does. -/
theorem startState_host (op : Op) (p : Pkt) (r : State) :
    (startState op p r).host = { r.host with
      queue := (startState op p r).host.queue, legRej := (startState op p r).host.legRej
      errCode := (startState op p r).host.errCode, ack := (startState op p r).host.ack
      ackWait := (startState op p r).host.ackWait, fullChg := (startState op p r).host.fullChg
      fullDsg := (startState op p r).host.fullDsg, alarms := (startState op p r).host.alarms
      alerts := (startState op p r).host.alerts, notifies := (startState op p r).host.notifies } := by
  rw [startState_eq]

/-- What an operation that waits leaves: the windows of what it is to write (R71). -/
def waitedState (op : Op) (p : Pkt) (r s : State) : State :=
  pruneWindows { s with sprue := { s.sprue with
    windows := s.sprue.windows ++ openWindows (startState op p r) (opFor op p r) } }

/-- The command `c` answers a next state in which the request has no reply yet and its operation goes on in a slot, alone in
flight; the ports and the sequencer have changed as by any request, and everything else stands as in `u`. -/
def Waits (c : Instr) (op : Op) (dt : Nat) (p : Pkt) (s u : State) : Prop :=
  ∃ t, exec c s = .next t ∧ ops t = [{ opFor op p (elapse dt s) with waiting := false }] ∧ PortsOnly (elapse dt s) t ∧
    t.host.queue = (elapse dt s).host.queue ∧ t.field = (elapse dt s).field ∧ t.link = (elapse dt s).link ∧
    t = { u with pwr := t.pwr, host := t.host, field := t.field, link := t.link, sprue := t.sprue }

/-- An admitted request whose run ends in no status yet waits in its slot. -/
theorem submitNow_waits {op : Op} {p : Pkt} {r s2 : State} (A : AdmitsNow p r)
    (hc : opRefusal (startState op p r) (opFor op p r) = none)
    (hrun : runOp (opFor op p r) (runState op p r) = (.wait, s2))
    (hsprue : s2.sprue = (startState op p r).sprue) (hpwr : s2.pwr = (startState op p r).pwr) :
    submitNow op p r = waitedState op p r s2 := by
  have hq := A.quiet
  have e0 := startState_eq op p r
  rw [submitNow_start hq (portOpen_serving A.serving _) (queueShut_room A.room) A.serving.halt (tagBusy_free hq A.tag)]
  generalize ht0 : { arrive p.origin r with sprue := { r.sprue with
        nextId := r.sprue.nextId + 1
        slots := vset r.sprue.slots (portSlot (originPort p.origin)) (some (opFor op p r)) } } = t0
  have hS : startState op p r = modOp r.sprue.nextId (fun x => { x with waiting := false }) (alarmTrack t0) := by
    rw [← ht0]; rfl
  have hst : startOp (opFor op p r) (alarmTrack t0) = waitedState op p r s2 := by
    have e1 : runOp (opFor op p r) (if lockU op then
        { startState op p r with sec := { (startState op p r).sec with lockAt := now (startState op p r) } }
        else startState op p r) = (.wait, s2) := hrun
    simp only [startOp, opFor_id, ← hS, hc, opFor_op, e1, standAnswer, wrote, if_true, waitedState]
  have hops : ops (waitedState op p r s2) = [{ opFor op p r with waiting := false }] := by
    rw [ops_congr (t := startState op p r) (by rw [← hsprue]; rfl)]
    exact ops_startState hq
  have hon : Ongoing { opFor op p r with waiting := false } := ⟨rfl, rfl, .inr rfl⟩
  have hearly : (waitedState op p r s2).sprue.early = [] := by
    show s2.sprue.early = []
    rw [hsprue, e0]; exact hq.early
  have hheld : (waitedState op p r s2).sprue.held = [] := by
    show s2.sprue.held = []
    rw [hsprue, e0]; exact hq.held
  have hdef : (waitedState op p r s2).pwr.deferred = [] := by
    show s2.pwr.deferred = []
    rw [hpwr, e0]; exact hq.deferred
  rw [hst, hon.pump_eq hops hearly hheld, runDeferred_nil hdef]

/-- A request that passes its checks and waits, touching neither its port nor the sequencer. -/
theorem waits_of_effect {c : Instr} {op : Op} {dt : Nat} {p : Pkt} {s u : State}
    (hx : exec c s = act dt (submit op p) s) (A : Asked dt p s) (hc : Passes op p (elapse dt s))
    (hrun : ∀ e i h v, runOp (opFor op p (elapse dt s)) (seen op (elapse dt s) e i h v) =
      (.wait, { u with
        pwr := { (elapse dt s).pwr with entry := e, idleSince := i }
        host := h
        sprue := { (elapse dt s).sprue with nextId := (elapse dt s).sprue.nextId + 1, slots := v } }))
    (hfield : u.field = (elapse dt s).field) (hlink : u.link = (elapse dt s).link) : Waits c op dt p s u := by
  unfold Waits
  generalize hr : elapse dt s = r at *
  have A2 : Admits p r := by rw [← hr]; exact A.2
  have e0 := startState_eq op p r
  have key := hrun (startState op p r).pwr.entry (startState op p r).pwr.idleSince (startState op p r).host
    (startState op p r).sprue.slots
  rw [← runState_seen] at key
  have hops := ops_startState (op := op) (p := p) A2.quiet
  have hw := submitNow_waits A2.toAdmitsNow (opRefusal_startState A2.quiet hc) key (by conv_rhs => rw [e0])
    (by conv_rhs => rw [e0])
  refine ⟨submitNow op p r, by rw [hx, act, if_pos A.1, hr, submit_now A2.alone], ?_⟩
  rw [hw]
  refine ⟨hops, ⟨rfl, ?_, ?_, ?_, rfl⟩, ?_, hfield, hlink, rfl⟩
  · exact startState_host op p r
  · show u.field = _
    rw [hfield]; rfl
  · show u.link = _
    rw [hlink]; rfl
  · show (startState op p r).host.queue = _
    rw [e0]

end Sys2Proof.Machine

/-! SUPPORT. The requests of the converters: a Flare waits for its conversion, a calibration is accepted
(07_sar_and_accumulators.md R158, R168, R170, R171). -/

namespace Sys2Proof.Machine

/-- A Flare joins the queue of Pollux, which it reaches at the second SAR edge (R158; 02 R32). -/
def flareQueued (o : Oper) (s : State) : State :=
  { s with sar := { s.sar with flares := s.sar.flares ++ [⟨o.argN, byteAt o.payload 2, leAt o.payload 0 2,
    byteAt o.payload 3, byteAt o.payload 4, o.id, sarNow s + 2⟩] } }

theorem runFlare_eq (o : Oper) (s : State) : runFlare o s = (.wait, flareQueued o s) := rfl

/-- The calibration that CAL_ZERO or CAL_SPAN starts: of 16 outputs of an integrator, or of CAL_N conversions (R168, R171). -/
theorem runCal_eq (o : Oper) (s : State) :
    runCal o s = (.accepted,
      let v := { s with par := s.par.applyMoment .cal }
      { v with sar := { s.sar with
        calRun := true, calPair := o.arg.toNat
        calN := if o.arg = 0x30 ∨ o.arg = 0x31 then 16 else prm v 0x0E01
        calTs := prm v 0x0E02, calAt := sarNow s + 2, calCnt := 0, calSum := 0 } }) := by
  have hcq : (o.argN == 0x30 || o.argN == 0x31) = decide (o.arg = 0x30 ∨ o.arg = 0x31) := by
    simp [Oper.argN, BitVec.toNat_eq, Bool.beq_eq_decide_eq]
  simp only [runCal, hcq, decide_eq_true_eq]
  rfl

/-- Settles O12: a Flare joins the queue and waits, a calibration is accepted; neither touches its port or the sequencer. -/
theorem conversionRequestsWait : Obligations.ConversionRequestsWait := by
  intro dt p s A r v u
  refine ⟨fun hp => ?_, fun hp => ?_, fun hp => ?_⟩
  · obtain ⟨t, hx, hops, hports, hqueue, hfield, hlink, ht⟩ :=
      waits_of_effect (c := .flare dt p) (u := flareQueued (opFor .flare p r) r) rfl A hp (fun _ _ _ _ => runFlare_eq _ _) rfl rfl
    exact ⟨t, hx, hops, hports, hqueue, by rw [hfield], by rw [hlink], ht⟩
  · exact accepts_of_effect rfl A hp (fun _ _ _ _ => runCal_eq _ _) rfl rfl rfl
  · exact accepts_of_effect rfl A hp (fun _ _ _ _ => runCal_eq _ _) rfl rfl rfl

end Sys2Proof.Machine

/-! SUPPORT. Operations in flight, and what time leaves of them in any mode: one whose status is known has it stored, one that
has an interim status answers it (03_sprue_commands.md R57, R63, R66; 07_sar_and_accumulators.md R168). -/

namespace Sys2Proof.Machine

/-! ## Time in any mode -/

/-- Time over a part passes as over one that is awake, or it wakes a part that sleeps, once. -/
theorem elapseTo_passed_or_wakes (t : Nat) (s : State) : Passed s (elapseTo t s) ∨
    ∃ u, Passed s u ∧ u.pwr.mode ≠ .run ∧ Passed (beginWake u) (elapseTo t s) := by
  by_cases hm : s.pwr.mode = .run
  · exact .inl (elapseTo_passed hm)
  · unfold elapseTo
    dsimp only
    split_ifs
    · split
      · next w _ =>
        have p := passRaw_passed w s
        exact .inr ⟨_, p, by rwa [p.mode], passRaw_passed _ _⟩
      · exact .inl (passRaw_passed _ _)
    · exact .inl (passRaw_passed _ _)

/-- What time keeps of a part in any mode. -/
structure TimeKept (s t : State) : Prop where
  sar      : t.sar = s.sar
  par      : t.par = s.par
  sprue    : t.sprue = s.sprue
  host     : t.host = s.host
  deferred : s.pwr.deferred = [] → t.pwr.deferred = []

theorem Passed.timeKept {s t : State} (h : Passed s t) : TimeKept s t := ⟨h.sar, h.par, h.sprue, h.host, h.left⟩

theorem TimeKept.trans {s t u : State} (h : TimeKept s t) (k : TimeKept t u) : TimeKept s u :=
  ⟨k.sar.trans h.sar, k.par.trans h.par, k.sprue.trans h.sprue, k.host.trans h.host, fun x => k.deferred (h.deferred x)⟩

theorem beginWake_timeKept (s : State) : TimeKept s (beginWake s) := by
  refine ⟨?_, ?_, ?_, ?_, fun h => ?_⟩
  · rw [beginWake_eq]
  · rw [beginWake_eq]
  · rw [beginWake_eq]
  · rw [beginWake_eq]
  · unfold beginWake
    split <;> exact h

theorem elapseTo_timeKept (t : Nat) (s : State) : TimeKept s (elapseTo t s) := by
  rcases elapseTo_passed_or_wakes t s with p | ⟨u, p, -, q⟩
  · exact p.timeKept
  · exact (p.timeKept.trans (beginWake_timeKept u)).trans q.timeKept

/-! ## One operation alone in a slot -/

theorem quiet_of_ops {s : State} (ho : ops s = []) (hh : s.sprue.held = []) (he : s.sprue.early = [])
    (hd : s.pwr.deferred = []) : Quiet s := by
  refine ⟨fun i => ?_, hh, he, hd⟩
  by_contra hne
  obtain ⟨o, hs⟩ := Option.ne_none_iff_exists'.1 hne
  have hm : o ∈ ops s := List.mem_filterMap.2 ⟨some o, Vector.mem_toList_iff.2 (hs ▸ Vector.getElem_mem i.2), rfl⟩
  simp [ho] at hm

theorem slots_of_runs {r : State} {slot : Fin 8} {o : Oper} (h : Runs r slot o) :
    r.sprue.slots = vset (Vector.replicate 8 none) slot (some o) := by
  apply Vector.ext
  intro j hj
  by_cases hs : (⟨j, hj⟩ : Fin 8) = slot
  · subst hs
    exact h.inSlot.trans (vset_fin_self _ ⟨j, hj⟩ _).symm
  · have h1 := h.alone ⟨j, hj⟩ hs
    have h2 := vset_fin_ne (Vector.replicate 8 (none : Option Oper)) hs (some o)
    simp only [Fin.getElem_fin] at h1 h2
    rw [h1, h2, Vector.getElem_replicate]

theorem ops_of_runs {r : State} {slot : Fin 8} {o : Oper} (h : Runs r slot o) : ops r = [o] := by
  rw [ops, slots_of_runs h]
  fin_cases slot <;> rfl

theorem runs_congr {r t : State} {slot : Fin 8} {o : Oper} (h : Runs r slot o) (hs : t.sprue = r.sprue)
    (hd : r.pwr.deferred = [] → t.pwr.deferred = []) : Runs t slot o :=
  ⟨by rw [hs]; exact h.inSlot, by rw [hs]; exact h.alone, h.started, h.open_, by rw [hs]; exact h.held,
    by rw [hs]; exact h.early, hd h.deferred⟩

theorem runningIn_of_runs {r : State} {slot : Fin 8} {o : Oper} (h : Runs r slot o) : runningIn r slot = some o := by
  rw [runningIn, vget_fin, h.inSlot]
  simp [Option.filter, h.started, h.open_]

theorem unanswered_of_runs {r : State} {slot : Fin 8} {o : Oper} (h : Runs r slot o) (hr : o.replied = false)
    (hi : o.interim = none) (hu : o.op ≠ .unlock) : unanswered r slot = some o := by
  rw [unanswered, vget_fin, h.inSlot]
  simp [Option.filter, hr, hi, h.open_, hu]

/-! ## A final status is stored (03 R63, R66) -/

/-- The result of an operation as it is stored for POLL (R66). -/
def resultOf (o : Oper) (f : Byte × List Byte) : Result :=
  ⟨BitVec.ofNat 8 (opCode o.op), o.tag, f.1, f.2, flgUrgent o.flg⟩

theorem hostSignal_eq (x : Result) (s : State) :
    hostSignal x s = { s with host := { s.host with
      alerts := (hostSignal x s).host.alerts, notifies := (hostSignal x s).host.notifies } } := by
  unfold hostSignal
  split_ifs <;> rfl

/-- A result of the native host path joins the stored ones, and its slot is free. -/
theorem storeResult_host {o : Oper} {s : State} (hg : o.origin = .hostNative) (hl : s.sprue.resHost.length < 4)
    (f : Byte × List Byte) :
    storeResult o f s = hostSignal (resultOf o f)
      (freeOp o.id { s with sprue := { s.sprue with resHost := s.sprue.resHost ++ [resultOf o f] } }) := by
  have hd : s.sprue.resHost.length - 3 = 0 := by omega
  simp [storeResult, hg, originPort, logInternal, setResults, resultsOf, resultOf, hd]

/-- Of the whole state it changes the sequencer, and of the host port the causes that the result raises. -/
theorem storeResult_parts {o : Oper} {s : State} (hg : o.origin = .hostNative) (hl : s.sprue.resHost.length < 4)
    (f : Byte × List Byte) :
    storeResult o f s = { s with
      host := { s.host with
        alerts := (storeResult o f s).host.alerts, notifies := (storeResult o f s).host.notifies }
      sprue := { s.sprue with
        resHost := s.sprue.resHost ++ [resultOf o f], slots := (freeOp o.id s).sprue.slots } } := by
  rw [storeResult_host hg hl, hostSignal_eq]
  rfl

/-- The sequencer with one accepted operation in flight whose final status is known: its result is stored. -/
theorem pump_result {s : State} {o : Oper} {f : Byte × List Byte} (ho : ops s = [o]) (he : s.sprue.early = [])
    (hh : s.sprue.held = []) (hr : o.replied = true) (hf : o.final = some f) (hg : o.origin = .hostNative)
    (hl : s.sprue.resHost.length < 4) (n : Nat) : pump (n + 1) s = storeResult o f s := by
  have hall : ∀ x ∈ ops s, x.replied = true ∨ x.interim = none ∧ x.final = none := by simp [ho, hr]
  have hs : storeAll s = storeResult o f s := by simp [storeAll, ho, hf, hr]
  have e := storeResult_parts hg hl f
  have ho' : ops (storeResult o f s) = [] := by
    rw [ops_congr (t := freeOp o.id s) (by rw [e]), ops_freeOp, ho]
    simp
  have hh' : (storeResult o f s).sprue.held = [] := by rw [e]; exact hh
  simp [pump, deliverAll_none hall he, releaseAll_none hall, hs, takeHeld, hh', nextStart, ho']

/-- What the storing of a result leaves of a state. -/
structure ResultStored (o : Oper) (f : Byte × List Byte) (s t : State) : Prop where
  quiet   : Quiet t
  results : t.sprue.resHost = s.sprue.resHost ++ [resultOf o f]
  queue   : t.host.queue = s.host.queue
  rest    : t = { s with host := t.host, sprue := t.sprue }

theorem storeResult_stored {s : State} {o : Oper} {f : Byte × List Byte} (ho : ops s = [o]) (he : s.sprue.early = [])
    (hh : s.sprue.held = []) (hd : s.pwr.deferred = []) (hg : o.origin = .hostNative)
    (hl : s.sprue.resHost.length < 4) : ResultStored o f s (storeResult o f s) := by
  have e := storeResult_parts hg hl f
  have ho' : ops (storeResult o f s) = [] := by
    rw [ops_congr (t := freeOp o.id s) (by rw [e]), ops_freeOp, ho]
    simp
  refine ⟨quiet_of_ops ho' ?_ ?_ ?_, ?_, ?_, ?_⟩
  · rw [e]; exact hh
  · rw [e]; exact he
  · rw [e]; exact hd
  · rw [e]
  · rw [e]
  · rw [e]

/-- Settling stores the result of an accepted operation that is alone in flight and has come to its end. -/
theorem settle_stored {s : State} {o : Oper} {f : Byte × List Byte} (ho : ops s = [o]) (he : s.sprue.early = [])
    (hh : s.sprue.held = []) (hd : s.pwr.deferred = []) (hr : o.replied = true) (hf : o.final = some f)
    (hg : o.origin = .hostNative) (hl : s.sprue.resHost.length < 4) (hop : o.op ≠ .authChal ∧ o.op ≠ .logMark) :
    ResultStored o f s (settle s) := by
  have ho' : ops (alarmTrack s) = [o] := by rw [ops_alarmTrack, ho]
  have he' : (alarmTrack s).sprue.early = [] := by simpa using he
  have hh' : (alarmTrack s).sprue.held = [] := by simpa using hh
  have hd' : (alarmTrack s).pwr.deferred = [] := by simpa using hd
  have hl' : (alarmTrack s).sprue.resHost.length < 4 := by simpa using hl
  have k := storeResult_stored (f := f) ho' he' hh' hd' hg hl'
  rw [settle_pump (by simp [ho, hop]), pump_result ho' he' hh' hr hf hg hl', runDeferred_nil k.quiet.deferred]
  exact ⟨k.quiet, by rw [k.results, alarmTrack_sprue], k.queue.trans (alarmTrack_queue s), by rw [k.rest, alarmTrack_eq]⟩

theorem ops_setFinal {s : State} {o : Oper} (ho : ops s = [o]) (hf : o.final = none) (st : Byte) (b : List Byte) :
    ops (setFinal o.id st b s) = [{ o with final := some (st, b), ponr := true }] := by
  rw [setFinal, modOp, ops_mapOps, ho]
  simp [hf]

/-- An accepted operation alone in flight comes to its end: its result is stored, and its slot is free. -/
theorem settle_setFinal {s : State} {slot : Fin 8} {o : Oper} (h : Runs s slot o) (hr : o.replied = true)
    (hg : o.origin = .hostNative) (hl : s.sprue.resHost.length < 4) (hop : o.op ≠ .authChal ∧ o.op ≠ .logMark)
    (st : Byte) (b : List Byte) : ResultStored o (st, b) s (settle (setFinal o.id st b s)) := by
  have k := settle_stored (f := (st, b)) (ops_setFinal (ops_of_runs h) h.open_ st b) h.early h.held h.deferred hr rfl hg
    hl hop
  exact ⟨k.quiet, k.results, k.queue, k.rest⟩

/-! ## OPERATION_COMPLETE of a calibration (07 R168) -/

theorem exec_operationComplete (dt : Nat) (slot : Fin 8) (s : State) :
    exec (.operationComplete dt slot) s = execOperationComplete dt slot s := by rfl

/-- The operation that runs in the slot comes to what it waited for. -/
theorem operationComplete_runs {dt : Nat} {slot : Fin 8} {s : State} {o : Oper} (hl : live s = true)
    (h : Runs (elapse dt s) slot o) :
    exec (.operationComplete dt slot) s = .next (settle (completeOp o (elapse dt s))) := by
  rw [exec_operationComplete, execOperationComplete, act_live hl, runningIn_of_runs h]

/-- A quotient is rounded to within half of its divisor (R167). -/
theorem roundDiv_near (a : Int) {b : Nat} (hb : 0 < b) : (2 * (roundDiv a b * b - a)).natAbs ≤ b := by
  have key (x : Int) : 2 * ((2 * x + b) / (2 * b) * b) ≤ 2 * x + b ∧ 2 * x - b < 2 * ((2 * x + b) / (2 * b) * b) := by
    have h1 := Int.mul_ediv_self_le (x := 2 * x + b) (k := 2 * b) (by omega)
    have h2 := Int.lt_mul_ediv_self_add (x := 2 * x + b) (k := 2 * b) (by omega)
    rw [mul_assoc, mul_comm (b : Int)] at h1 h2
    omega
  unfold roundDiv
  split_ifs
  · have := key a
    omega
  · have := key (-a)
    rw [neg_mul]
    omega

/-- A zero calibration within ±128 codes gives a new OFFSET. -/
theorem calDone_zero {o : Oper} {s : State} {k : Nat} (hop : o.op = .calZero) (hk : pairOfCode o.argN = some k)
    (h : s.sar.calSum.natAbs ≤ 128 * s.sar.calN) :
    calDone o s = setFinal o.id stOk [] { s with sar := { s.sar with
      calRun := false
      cal := vset s.sar.cal k { vget s.sar.cal k ⟨0, 0⟩ with
        offset := roundDiv (s.sar.calSum * 65536) s.sar.calN } } } := by
  simp only [calDone, hk, hop, if_true, if_pos h]
  rfl

/-- A larger one is RANGE. -/
theorem calDone_zero_range {o : Oper} {s : State} {k : Nat} (hop : o.op = .calZero) (hk : pairOfCode o.argN = some k)
    (h : 128 * s.sar.calN < s.sar.calSum.natAbs) :
    calDone o s = setFinal o.id stRange [] { s with sar := { s.sar with calRun := false } } := by
  simp only [calDone, hk, hop, if_true, if_neg (Nat.not_le.2 h)]

theorem completeOp_calZero {o : Oper} {s : State} (hop : o.op = .calZero) :
    completeOp o s = if s.sar.calCnt = s.sar.calN then calDone o s else s := by
  simp only [completeOp, hop]

theorem operationCompletes : OperationCompletes := by
  intro dt slot o k s hl r h hop hr hg hi hk hn hres ends
  have hx : exec (.operationComplete dt slot) s = .next (settle (completeOp o r)) := operationComplete_runs hl h
  clear_value r
  have hne : o.op ≠ .authChal ∧ o.op ≠ .logMark := by simp [hop]
  have hcode (st : Byte) : resultOf o (st, []) = ⟨0x26, o.tag, st, [], flgUrgent o.flg⟩ := by
    simp only [resultOf, hop]; rfl
  have hend {st : Byte} {cal : Vector Cal 43} (hd : completeOp o r =
      setFinal o.id st [] { r with sar := { r.sar with calRun := false, cal := cal } }) : ends st cal := by
    have h' : Runs { r with sar := { r.sar with calRun := false, cal := cal } } slot o := runs_congr h rfl id
    have e := settle_setFinal h' hr hg hres hne st []
    rw [← hd] at e
    refine ⟨_, hx, e.quiet, e.results.trans (by rw [hcode]), ?_, ?_, ?_, ?_, e.queue⟩
    · rw [e.rest]
    · rw [e.rest]
    · rw [e.rest]
    · rw [e.rest]
  refine ⟨fun hc hsum => ⟨_, roundDiv_near _ hn, hend ?_⟩, fun hc hsum => hend ?_, fun hc => ?_⟩
  · rw [completeOp_calZero hop, if_pos hc, calDone_zero hop hk hsum]
  · rw [completeOp_calZero hop, if_pos hc, calDone_zero_range hop hk hsum]
  · have hon : Ongoing o := ⟨h.started, h.open_, .inl hr⟩
    refine ⟨_, hx, ?_⟩
    rw [completeOp_calZero hop, if_neg hc, hon.settle_eq hne.1 hne.2 (ops_of_runs h) h.early h.held h.deferred]
    exact ⟨by rw [ops_alarmTrack, ops_of_runs h], by rw [alarmTrack_sar], by rw [alarmTrack_tmr], alarmTrack_queue r⟩

end Sys2Proof.Machine

/-! SUPPORT. The interim answer ACCEPTED of an operation in flight (03_sprue_commands.md R57). -/

namespace Sys2Proof.Machine

/-! ## The native host path -/

theorem emit_hostNative (peer : Nat) (x : Reply) (s : State) :
    emit .hostNative peer false x s =
      { s with host := { s.host with queue := s.host.queue ++ [{ x with ready := now s }] } } := rfl

theorem hasRoom_of_length {s : State} (h : s.host.queue.length < 4) (g : Origin) : hasRoom s g = true := by
  simp [hasRoom, hostRdy, h]

theorem suppressed_of_reply {flg : BitVec 4} (h : flgNoReply flg = false) (st : Byte) : suppressed flg st = false := by
  simp [suppressed, h]

/-! ## INTERIM_ACCEPTED (03 R57) -/

theorem exec_interimAccepted (slot : Fin 8) (s : State) : exec (.interimAccepted slot) s = execInterimAccepted slot s := by
  rfl

/-- What the interim answer of an operation of the native host path leaves of a state. -/
structure InterimSent (o : Oper) (st : Byte) (s t : State) : Prop where
  ops   : ops t = [{ o with replied := true }]
  queue : t.host.queue = s.host.queue ++ [{ opReply o st [] with ready := now s }]
  rest  : t = { s with host := t.host, sprue := t.sprue }

/-- Settling with one operation in flight whose interim status its requester has not heard: the native host path gets it. -/
theorem settle_interim {s : State} {o : Oper} {st : Byte} (ho : ops s = [o]) (he : s.sprue.early = [])
    (hh : s.sprue.held = []) (hd : s.pwr.deferred = []) (hw : o.waiting = false) (hf : o.final = none)
    (hi : o.interim = some st) (hr : o.replied = false) (hg : o.origin = .hostNative) (hn : flgNoReply o.flg = false)
    (hq : s.host.queue.length < 4) (hop : o.op ≠ .authChal ∧ o.op ≠ .logMark) : InterimSent o st s (settle s) := by
  have ho' : Machine.ops (alarmTrack s) = [o] := by rw [ops_alarmTrack, ho]
  have hroom : hasRoom (alarmTrack s) o.origin = true := hasRoom_of_length (by rwa [alarmTrack_queue]) _
  have hd' : (modOp o.id (fun x => { x with replied := true }) (alarmTrack s)).pwr.deferred = [] := by
    rw [modOp_eq, alarmTrack_pwr, hd]
  rw [settle_pump (by simp [ho, hop]),
    pump_interim ho' (by simpa using he) (by simpa using hh) hi hf hr hw (by rw [hroom, Bool.or_true]),
    runDeferred_nil (by rw [emit_pwr _ _ _ _ hd', hd']), hg, suppressed_of_reply hn, emit_hostNative]
  generalize hu : modOp o.id (fun x => { x with replied := true }) (alarmTrack s) = u
  have hops : Machine.ops u = [{ o with replied := true }] := by rw [← hu, modOp, ops_mapOps, ho']; simp
  have hrest : u = { s with host := u.host, sprue := u.sprue } := by rw [← hu, modOp_eq, alarmTrack_eq]
  have hqueue : u.host.queue = s.host.queue := by rw [← hu, modOp_eq, alarmTrack_queue]
  have hnow : now u = now s := by rw [hrest]; rfl
  exact ⟨hops, by rw [hqueue, hnow], by rw [hrest]⟩

theorem interimAcceptedAfter200us : InterimAcceptedAfter200us := by
  intro slot o s hl h hop hr hi hg hn hq r
  have hu : o.op ≠ .unlock := by simp [hop]
  have hne : o.op ≠ .authChal ∧ o.op ≠ .logMark := by simp [hop]
  have k := elapseTo_timeKept (o.stamp + 1638) s
  have hR : Runs r slot o := runs_congr h k.sprue k.deferred
  have hx : exec (.interimAccepted slot) s =
      .next (settle (modOp o.id (fun x => { x with interim := some stAccepted }) r)) := by
    rw [exec_interimAccepted, execInterimAccepted,
      actAt_due hl (congrArg (Option.map _) (unanswered_of_runs h hr hi hu)), unanswered_of_runs hR hr hi hu]
  have hqueue : r.host.queue = s.host.queue := by rw [k.host]
  clear_value r
  have ho : ops (modOp o.id (fun x => { x with interim := some stAccepted }) r) = [{ o with interim := some stAccepted }] := by
    rw [modOp, ops_mapOps, ops_of_runs hR]
    simp
  have e := settle_interim ho hR.early hR.held hR.deferred h.started h.open_ rfl hr hg hn (by rwa [← hqueue] at hq) hne
  refine ⟨_, hx, e.ops, e.queue.trans ?_, ?_, ?_, ?_⟩
  · rw [modOp_eq, hqueue]
    simp only [opReply, hop]
    rfl
  · rw [e.rest]; rfl
  · rw [e.rest]; rfl
  · rw [e.rest]; rfl

end Sys2Proof.Machine

/-! SUPPORT. CANCEL, which arrives while the operation it names is in flight: two operations of one port, of which one has
replied (03_sprue_commands.md R50, R54, R63, R69; 15_ingot_store.md R365). -/

namespace Sys2Proof.Machine

/-! ## A second operation in flight -/

/-- Two operations are in flight, in whatever slots. -/
def PairInFlight (s : State) (a b : Oper) : Prop := ops s = [a, b] ∨ ops s = [b, a]

theorem PairInFlight.mem {s : State} {a b x : Oper} (h : PairInFlight s a b) : x ∈ ops s ↔ x = a ∨ x = b := by
  rcases h with h | h
  · simp [h]
  · simp [h, or_comm]

theorem PairInFlight.congr {s t : State} {a b : Oper} (h : PairInFlight s a b) (hs : t.sprue.slots = s.sprue.slots) :
    PairInFlight t a b := by
  rw [PairInFlight, ops_congr hs]
  exact h

theorem PairInFlight.modOp_second {s : State} {a b : Oper} (h : PairInFlight s a b) (hid : a.id ≠ b.id)
    (f : Oper → Oper) : PairInFlight (modOp b.id f s) a (f b) := by
  unfold PairInFlight modOp
  rw [ops_mapOps]
  rcases h with h | h
  · simp [h, hid]
  · simp [h, hid]

theorem PairInFlight.setFinal_second {s : State} {a b : Oper} (h : PairInFlight s a b) (hid : a.id ≠ b.id)
    (hb : b.final = none) (st : Byte) (d : List Byte) :
    PairInFlight (setFinal b.id st d s) a { b with final := some (st, d), ponr := true } := by
  have hm := h.modOp_second hid fun x => match x.final with
    | none => { x with final := some (st, d), ponr := true }
    | some _ => x
  simp only [hb] at hm
  exact hm

theorem PairInFlight.freeOp_second {s : State} {a b : Oper} (h : PairInFlight s a b) (hid : a.id ≠ b.id) :
    ops (freeOp b.id s) = [a] := by
  rw [ops_freeOp]
  rcases h with h | h
  · simp [h, hid]
  · simp [h, hid]

/-- The filter of a list of two that only the second passes. -/
theorem PairInFlight.filter_second {s : State} {a b : Oper} (h : PairInFlight s a b) {p : Oper → Bool}
    (ha : p a = false) (hb : p b = true) : (ops s).filter p = [b] := by
  rcases h with h | h
  · simp [h, ha, hb]
  · simp [h, ha, hb]

/-- Beside one operation in flight there is a slot for one more of the host. -/
theorem freeSlot_of_runs {r : State} {slot : Fin 8} {o : Oper} (h : Runs r slot o) : ∃ i, freeSlot r .host = some i ∧
    ∀ (c : Oper) (t : State), t.sprue.slots = vset r.sprue.slots i (some c) → PairInFlight t o c := by
  refine ⟨if slot = 1 then 4 else 1, ?_, fun c t ht => ?_⟩
  · rw [freeSlot, slots_of_runs h]
    fin_cases slot <;> rfl
  · rw [PairInFlight, ops, ht, slots_of_runs h]
    fin_cases slot
    exacts [.inl rfl, .inl rfl, .inr rfl, .inr rfl, .inr rfl, .inr rfl, .inr rfl, .inr rfl]

/-! ## Arrival beside an operation in flight (03 R54, R63) -/

/-- A request that is admitted stands in its slot. -/
def enteredState (op : Op) (p : Pkt) (i : Nat) (r : State) : State :=
  { arrive p.origin r with sprue := { r.sprue with
    nextId := r.sprue.nextId + 1, slots := vset r.sprue.slots i (some (opFor op p r)) } }

theorem submit_entered {op : Op} {p : Pkt} {r : State} {i : Nat} (hp : portOpen p.origin r = true)
    (hx : earlierComes r p.origin = false) (hq : queueShut p.origin r = false)
    (hf : freeSlot r (originPort p.origin) = some i) (ht : tagBusy r p.origin p.tag = false) :
    submit op p r = settle (enteredState op p i r) := by
  have ha := arrive_eq p.origin r
  have hs : (arrive p.origin r).sprue = r.sprue := by rw [ha]
  have hq' : queueShut p.origin (arrive p.origin r) = false := by rw [ha]; exact hq
  have hf' : freeSlot (arrive p.origin r) (originPort p.origin) = some i := by rw [ha]; exact hf
  have ht' : tagBusy (arrive p.origin r) p.origin p.tag = false := by rw [ha]; exact ht
  have hn : now (arrive p.origin r) = now r := by rw [ha]; rfl
  have hadm : admission (arrive p.origin r) p.origin p.tag = none := by simp [admission, hf', ht']
  have he : enter op p 0 (arrive p.origin r) = enteredState op p i r := by
    have hf2 : freeSlot { arrive p.origin r with
        sprue := { (arrive p.origin r).sprue with nextId := (arrive p.origin r).sprue.nextId + 1 } }
        (originPort p.origin) = some i := hf'
    simp only [enter, hadm]
    rw [hf2]
    simp only [hs, hn]
    rfl
  rw [submit_now hx, submitNow, if_pos hp, arriveOp, hq', he]
  rfl

/-! ## CANCEL starts (03 R69) -/

theorem exec_cancel (dt : Nat) (p : Pkt) (s : State) : exec (.cancel dt p) s = act dt (submit .cancel p) s := by rfl

theorem opRefusal_cancel {s : State} {c : Oper} (hop : c.op = .cancel) (hg : c.origin = .hostNative)
    (hb : c.payload = []) (ha : c.argN < 256) (hs : 2 ≤ s.start.stage.code) : opRefusal s c = none := by
  refine opRefusal_none ?_ ?_ ?_ ?_ ?_ ?_ ?_ ?_ (conflictAt_nil ?_) ?_
  · have hfirst : firstStage c = .melt := by simp only [firstStage, hop]
    rw [hfirst]
    exact decide_eq_true (le_trans (by decide) hs)
  · simp only [quenchHit, hop]
  · simp only [lockoutHit, hop, reduceCtorEq, or_self, if_false]
  · simp only [levelOk, hop]
    rfl
  · simp only [lengthOk, lengthFits, hop, hb, hg]
    rfl
  · simp only [argOk, hop, ha, decide_true]
  · simp only [rangeOk, hop]
  · simp only [remoteHit, coveredSet, hop]
    rfl
  · simp only [targetsOf, hop]
  · simp only [resourceFree, hop]

/-- What CANCEL does to the operation that runs under its TAG, short of its point of no return. -/
theorem runCancel_running {c x : Oper} {s : State} (hx : opTagged s c (BitVec.ofNat 8 c.argN) = some x)
    (hf : x.final = none) (hw : x.waiting = false) (hp : x.ponr = false) (hop : x.op ≠ .dgDesc) :
    runCancel c s = (okWith [], setFinal x.id stSuperseded [] (dropOp x s)) := by
  simp [runCancel, hx, hf, hw, hp, stopDesc, hop]

theorem opTagged_pair {s : State} {o c : Oper} {tag : Byte} (h : PairInFlight s o c) (hid : o.id ≠ c.id)
    (hp : originPort o.origin = originPort c.origin) (ht : o.tag = tag) : opTagged s c tag = some o := by
  rcases h with h | h
  · simp [opTagged, h, hid, hp, ht]
  · simp [opTagged, h, hid, hp, ht]

/-- What a started CANCEL leaves of the operation it ends, and of itself. -/
def cancelledState (o c : Oper) (s : State) : State :=
  setFinal c.id stOk [] (setFinal o.id stSuperseded [] (dropOp o (modOp c.id (fun x => { x with waiting := false }) s)))

/-- A CANCEL starts beside the operation it names. -/
theorem startOp_cancel {s : State} {o c : Oper} (h : PairInFlight s o c) (hid : o.id ≠ c.id) (hop : c.op = .cancel)
    (hg : c.origin = .hostNative) (hgo : o.origin = .hostNative) (hb : c.payload = []) (ht : c.argN = o.tag.toNat)
    (hs : 2 ≤ s.start.stage.code) (hf : o.final = none) (hw : o.waiting = false) (hp : o.ponr = false)
    (hd : o.op ≠ .dgDesc) : startOp c s = pruneWindows (cancelledState o c s) := by
  have hpair := h.modOp_second hid fun x => { x with waiting := false }
  generalize hu : modOp c.id (fun x => { x with waiting := false }) s = u at hpair
  have htag : opTagged u c (BitVec.ofNat 8 c.argN) = some o := by
    have := opTagged_pair (c := { c with waiting := false }) hpair hid (by rw [hg, hgo]) (tag := BitVec.ofNat 8 c.argN)
      (by simp [ht])
    exact this
  have href : opRefusal u c = none := by
    refine opRefusal_cancel hop hg hb (by rw [ht]; exact o.tag.isLt) ?_
    rw [← hu, modOp_eq]; exact hs
  have hrun : runOp c u = (okWith [], setFinal o.id stSuperseded [] (dropOp o u)) := by
    simp only [runOp, hop]
    exact runCancel_running htag hf hw hp hd
  have hwin : openWindows u c = [] := by simp only [openWindows, targetsOf, hop, List.map_nil]
  have hlock : lockU c.op = false := by rw [hop]; rfl
  have hcs : cancelledState o c s = setFinal c.id stOk [] (setFinal o.id stSuperseded [] (dropOp o u)) := by
    rw [← hu]; rfl
  rw [hcs]
  simp only [startOp, hu, href, hlock, Bool.false_eq_true, if_false, hrun, hwin, List.append_nil]
  rfl

/-! ## Its reply, and the result of the other -/

/-- Beside an operation that has replied, one that waits for its start starts next. -/
theorem nextStart_pair {s : State} {o c : Oper} (h : PairInFlight s o c) (hw : o.waiting = false)
    (hc : c.waiting = true) (hf : c.final = none) (hord : flgOrdered c.flg = false) (hl : s.clk.halt = false) :
    nextStart s = some c := by
  have ho : startable s o = false := by simp [startable, hw]
  have hs : startable s c = true := by
    simp only [startable, hc, hf, Option.isNone_none, Bool.and_self, Bool.true_and, List.all_eq_true, h.mem]
    rintro x (rfl | rfl)
    · simp [hw, hord]
    · simp [before_irrefl]
  simp [nextStart, hl, h.filter_second ho hs]

/-- The reply of the one that owes one leaves, and its slot is free. -/
theorem deliverAll_pair {s : State} {o c : Oper} {f : Byte × List Byte} (h : PairInFlight s o c) (hid : o.id ≠ c.id)
    (he : s.sprue.early = []) (hr : o.replied = true) (hc : c.replied = false) (hi : c.interim = none)
    (hf : c.final = some f) (hg : c.origin = .hostNative) (hn : suppressed c.flg f.1 = false)
    (hq : s.host.queue.length < 4) :
    deliverAll 16 s = freeOp c.id (emit .hostNative c.peer false (opReply c f.1 f.2) s) := by
  have hearly (p : Port) : firstEarly s p = none := by simp [firstEarly, he]
  have hhost : firstOwing s .host = some c := by
    rw [firstOwing, h.filter_second (by simp [hr]) (by simp [hg, hc, originPort])]
    rfl
  have hinternal : firstOwing s .internal = none := by
    cases hx : firstOwing s .internal with
    | none => rfl
    | some x =>
      unfold firstOwing at hx
      rcases h with h | h
      · simp [h, hr, hg, originPort] at hx
      · simp [h, hr, hg, originPort] at hx
  have hlog : logInternal c f.1 s = s := by simp [logInternal, hg]
  have hd : deliver .host s = some (freeOp c.id (emit .hostNative c.peer false (opReply c f.1 f.2) s)) := by
    simp only [deliver, hearly, hhost, hi, hf, hn, hlog, hg, hasRoom_of_length hq, Bool.or_true, if_true]
  have hd0 : deliver .internal s = none := by simp [deliver, hearly, hinternal]
  generalize hu : freeOp c.id (emit .hostNative c.peer false (opReply c f.1 f.2) s) = u at hd
  have hops : ops u = [o] := by
    rw [← hu]
    exact (h.congr (t := emit .hostNative c.peer false (opReply c f.1 f.2) s) rfl).freeOp_second hid
  have hue : u.sprue.early = [] := by rw [← hu]; exact he
  have hstep : [Port.internal, .host, .field, .link].findSome? (fun p => deliver p s) = some u := by
    simp [List.findSome?, hd0, hd]
  have hrest := deliverAll_none (s := u) (by simp [hops, hr]) hue 15
  rw [deliverAll, hstep]
  exact hrest

/-- The sequencer goes on from where its replies have left. -/
theorem pump_delivered {s u : State} (hs : deliverAll 16 s = u) (hu : deliverAll 16 u = u) (n : Nat) :
    pump (n + 1) s = pump (n + 1) u := by
  simp only [pump, hs, hu]

/-- The sequencer starts the operation that is next, where nothing waits to leave. -/
theorem pump_starts {s : State} {o : Oper} (hd : deliverAll 16 s = s) (hr : releaseAll s = s) (hs : storeAll s = s)
    (hh : s.sprue.held = []) (hn : nextStart s = some o) (n : Nat) : pump (n + 1) s = pump n (startOp o s) := by
  have ht : takeHeld s = s := by simp [takeHeld, hh]
  rw [pump]
  simp only [hd, hr, hs, ht, hn]

/-- What is in flight once a CANCEL has run: the operation it ended, and itself with its OK. -/
theorem cancelledState_pair {s : State} {o c : Oper} (h : PairInFlight s o c) (hid : o.id ≠ c.id) (ho : o.final = none)
    (hc : c.final = none) : PairInFlight (cancelledState o c s)
      { o with final := some (stSuperseded, []), ponr := true }
      { c with waiting := false, final := some (stOk, []), ponr := true } := by
  have h1 := h.modOp_second hid fun x => { x with waiting := false }
  have h2 : PairInFlight (dropOp o (modOp c.id (fun x => { x with waiting := false }) s)) o { c with waiting := false } :=
    h1.congr rfl
  have h3 := Or.symm (PairInFlight.setFinal_second (Or.symm h2) (Ne.symm hid) ho stSuperseded [])
  exact PairInFlight.setFinal_second h3 (b := { c with waiting := false }) hid hc stOk []

/-- What the end of an operation by a CANCEL leaves of a state: what the operation left behind it is dropped, CANCEL has its
OK, and the result of the other is stored. -/
structure CancelEnds (o c : Oper) (s t : State) : Prop where
  quiet   : Quiet t
  queue   : t.host.queue = s.host.queue ++ [{ opReply c stOk [] with ready := now s }]
  results : t.sprue.resHost = s.sprue.resHost ++ [resultOf o (stSuperseded, [])]
  rest    : t = { dropOp o s with host := t.host, sprue := t.sprue }

theorem settle_cancel {s : State} {o c : Oper} (h : PairInFlight s o c) (hid : o.id ≠ c.id) (hop : c.op = .cancel)
    (hg : c.origin = .hostNative) (hgo : o.origin = .hostNative) (hflg : c.flg = 0) (hb : c.payload = [])
    (ht : c.argN = o.tag.toNat) (hs : 2 ≤ s.start.stage.code) (hl : s.clk.halt = false) (hf : o.final = none)
    (hw : o.waiting = false) (hr : o.replied = true) (hp : o.ponr = false) (hcw : c.waiting = true)
    (hcf : c.final = none) (hcr : c.replied = false) (hci : c.interim = none)
    (hd : o.op ≠ .dgDesc ∧ o.op ≠ .authChal ∧ o.op ≠ .logMark) (hh : s.sprue.held = []) (he : s.sprue.early = [])
    (hdef : s.pwr.deferred = []) (hres : s.sprue.resHost.length < 4) (hq : s.host.queue.length < 4) :
    CancelEnds o c s (settle s) := by
  obtain ⟨hd1, hd2, hd3⟩ := hd
  have hu : PairInFlight (alarmTrack s) o c := h.congr (by rw [alarmTrack_sprue])
  have eu := alarmTrack_eq s
  have hquiet : ∀ x ∈ ops (alarmTrack s), x.replied = true ∨ x.interim = none ∧ x.final = none := by
    intro x hx
    rcases hu.mem.1 hx with rfl | rfl
    · exact .inl hr
    · exact .inr ⟨hci, hcf⟩
  have hstore : storeAll (alarmTrack s) = alarmTrack s := foldl_fixed (fun x hx a => by
    rcases hu.mem.1 hx with rfl | rfl
    · simp [hf]
    · simp [hcf]) _
  have hnext : nextStart (alarmTrack s) = some c :=
    nextStart_pair hu hw hcw hcf (by rw [hflg]; rfl) (by rwa [alarmTrack_clk])
  have hstart : startOp c (alarmTrack s) = pruneWindows (cancelledState o c (alarmTrack s)) :=
    startOp_cancel hu hid hop hg hgo hb ht (by rw [eu]; exact hs) hf hw hp hd1
  have hpump : pump 32 (alarmTrack s) = pump 31 (pruneWindows (cancelledState o c (alarmTrack s))) := by
    rw [← hstart]
    exact pump_starts (deliverAll_none hquiet (by rw [alarmTrack_sprue]; exact he) 16) (releaseAll_none hquiet) hstore
      (by rw [alarmTrack_sprue]; exact hh) hnext 31
  have hwp : PairInFlight (pruneWindows (cancelledState o c (alarmTrack s)))
      { o with final := some (stSuperseded, []), ponr := true }
      { c with waiting := false, final := some (stOk, []), ponr := true } :=
    (cancelledState_pair hu hid hf hcf).congr rfl
  have ew : pruneWindows (cancelledState o c (alarmTrack s)) = { dropOp o (alarmTrack s) with
      sprue := { s.sprue with
        slots := (pruneWindows (cancelledState o c (alarmTrack s))).sprue.slots
        windows := (pruneWindows (cancelledState o c (alarmTrack s))).sprue.windows } } := by
    rw [eu]; rfl
  have hset : settle s = runDeferred 8 (pump 32 (alarmTrack s)) := settle_pump fun x hx => by
    rcases h.mem.1 hx with rfl | rfl
    · exact ⟨hd2, hd3⟩
    · simp [hop]
  rw [hset, hpump]
  generalize pruneWindows (cancelledState o c (alarmTrack s)) = w at hwp ew ⊢
  have hwe : w.sprue.early = [] := by rw [ew]; exact he
  have hwq : w.host.queue = s.host.queue := by rw [ew]; exact alarmTrack_queue s
  have hwn : now w = now s := by rw [ew]; show (alarmTrack s).tmr.base = _; rw [alarmTrack_tmr]; rfl
  have hdel := deliverAll_pair hwp hid hwe hr hcr hci rfl hg (by rw [hflg]; rfl) (by rwa [hwq])
  have hx : ops (freeOp c.id (emit .hostNative c.peer false (opReply c stOk []) w)) =
      [{ o with final := some (stSuperseded, []), ponr := true }] :=
    (hwp.congr (t := emit .hostNative c.peer false (opReply c stOk []) w) rfl).freeOp_second hid
  have ex : freeOp c.id (emit .hostNative c.peer false (opReply c stOk []) w) = { dropOp o (alarmTrack s) with
      host := { (alarmTrack s).host with queue := s.host.queue ++ [{ opReply c stOk [] with ready := now s }] }
      sprue := { s.sprue with
        slots := (freeOp c.id (emit .hostNative c.peer false (opReply c stOk []) w)).sprue.slots
        windows := w.sprue.windows } } := by
    rw [emit_hostNative, hwq, hwn]
    conv_lhs => rw [ew]
    rfl
  have hdel' : deliverAll 16 w = freeOp c.id (emit .hostNative c.peer false (opReply c stOk []) w) := hdel
  generalize freeOp c.id (emit .hostNative c.peer false (opReply c stOk []) w) = x at hx ex hdel'
  have hxe : x.sprue.early = [] := by rw [ex]; exact he
  have hxh : x.sprue.held = [] := by rw [ex]; exact hh
  have hxd : x.pwr.deferred = [] := by rw [ex]; show (alarmTrack s).pwr.deferred = []; rw [alarmTrack_pwr, hdef]
  have hxr : x.sprue.resHost = s.sprue.resHost := by rw [ex]
  have k := storeResult_stored (f := (stSuperseded, [])) hx hxe hxh hxd hgo (by rwa [hxr])
  rw [pump_delivered hdel' (deliverAll_none (by simp [hx, hr]) hxe 16),
    pump_result hx hxe hxh hr rfl hgo (by rwa [hxr]), runDeferred_nil k.quiet.deferred]
  refine ⟨k.quiet, k.queue.trans ?_, k.results.trans (by rw [hxr]; rfl), k.rest.trans ?_⟩
  · rw [ex]
  · rw [ex, eu]; rfl

/-! ## CANCEL (03 R69, 15 R365) -/

/-- No TAG of the port is that of the packet. -/
theorem tagBusy_of_runs {r : State} {slot : Fin 8} {o : Oper} (h : Runs r slot o) {tag : Byte} (ht : tag ≠ o.tag)
    (hres : ∀ x ∈ r.sprue.resHost, x.tag ≠ tag) : tagBusy r .hostNative tag = false := by
  simp [tagBusy, ops_of_runs h, h.held, originPort, resultsOf, Ne.symm ht]
  exact fun _ x hx => hres x hx

/-- No entry of the pending table keeps a mark that is removed, and none loses its value (15 R365). -/
theorem unmark_pending (i : Nat) (p : Par) : (∀ e ∈ (unmark i p).pending, e.mark ≠ some i) ∧
    (unmark i p).pending.map Pend.value = p.pending.map Pend.value := by
  refine ⟨fun e he => ?_, ?_⟩
  · obtain ⟨x, -, rfl⟩ := List.mem_map.1 he
    split_ifs with hm
    · simp
    · exact hm
  · rw [unmark, List.map_map]
    exact List.map_congr_left fun e _ => by simp only [Function.comp]; split_ifs <;> rfl

theorem cancelEndsAnOperation : CancelEndsAnOperation := by
  intro dt p slot o s hl r S h hop hponr hr hi hgo hgp hflg hpay harg htag hres hlen hq hid hx
  obtain ⟨i, hfree, hpair⟩ := freeSlot_of_runs h
  have hsub : exec (.cancel dt p) s = .next (settle (enteredState .cancel p i r)) := by
    rw [exec_cancel, act_live hl, submit_entered (portOpen_serving S _) (by rwa [hgp]) (queueShut_room fun _ => hq)
      (by rwa [hgp]) (by rw [hgp]; exact tagBusy_of_runs h htag hres)]
  clear_value r
  have ea := arrive_eq p.origin r
  have eo : opReply (opFor .cancel p r) stOk [] = { answerOf .cancel p r stOk [] with ready := 0 } := rfl
  have et : enteredState .cancel p i r = { r with
      pwr := { r.pwr with entry := (arrive p.origin r).pwr.entry, idleSince := (arrive p.origin r).pwr.idleSince }
      sprue := (enteredState .cancel p i r).sprue } := by
    rw [enteredState]
    conv_lhs => rw [ea]
  have hne : o.op ≠ .dgDesc ∧ o.op ≠ .authChal ∧ o.op ≠ .logMark := by simp [hop]
  have k := settle_cancel (hpair (opFor .cancel p r) (enteredState .cancel p i r) rfl) (Nat.ne_of_lt hid) rfl hgp hgo hflg hpay
    harg (by rw [et]; exact S.stage) (by rw [et]; exact S.halt) h.open_ h.started hr hponr rfl rfl rfl rfl hne h.held h.early
    (by rw [et]; exact h.deferred) hlen (by rw [et]; exact hq)
  obtain ⟨hmark, hvalue⟩ := unmark_pending o.id r.par
  refine ⟨_, hsub, k.quiet, k.queue.trans ?_, k.results.trans ?_, ?_, ?_, ?_, ?_, ?_, ?_⟩
  · rw [et, eo]; rfl
  · simp only [resultOf, hop]; rfl
  · rw [k.rest, et]; rfl
  · rw [k.rest, et]; exact hmark
  · rw [k.rest, et]; exact hvalue
  · rw [k.rest, et]; rfl
  · rw [k.rest, et]; rfl
  · rw [k.rest, et]; rfl

/-- Settles O13: the end of an operation, its interim answer and its cancellation are each one change of its slot, after which
the sequencer stores its result or sends its reply. -/
theorem operationsEnd : Obligations.OperationsEnd :=
  ⟨operationCompletes, interimAcceptedAfter200us, cancelEndsAnOperation⟩

end Sys2Proof.Machine

/-! SUPPORT. What the conversions of the SAR block change, and what enters accumulators and trackers
(07_sar_and_accumulators.md R147, R160, R162, R166). -/

namespace Sys2Proof.Machine

/-! ## What a conversion changes -/

/-- What converters change of a part at one edge: themselves and the tap mux, the accumulators, trackers and auto-ranged
gains, a calibration, counted SAR-done edges, and what the front end takes from conversions. -/
structure Converted (s t : State) : Prop where
  rest  : t = { s with sar := t.sar, afe := t.afe, tmr := t.tmr }
  sar   : t.sar = { s.sar with
    castor := t.sar.castor, pollux := t.sar.pollux, tap := t.sar.tap, tapFree := t.sar.tapFree, pairAt := t.sar.pairAt
    acc := t.sar.acc, trk := t.sar.trk, fullDrop := t.sar.fullDrop, pairDrop := t.sar.pairDrop
    autoA := t.sar.autoA, autoB := t.sar.autoB, autoCntA := t.sar.autoCntA, autoCntB := t.sar.autoCntB }
  timer : t.tmr = { s.tmr with cdn := t.tmr.cdn, tout0 := t.tmr.tout0, tout1 := t.tmr.tout1 }

theorem Converted.refl (s : State) : Converted s s := ⟨rfl, rfl, rfl⟩

theorem Converted.trans {s t u : State} (h : Converted s t) (k : Converted t u) : Converted s u where
  rest := by rw [k.rest, h.rest]
  sar := by rw [k.sar, h.sar]
  timer := by rw [k.timer, h.timer]

theorem Converted.par {s t : State} (h : Converted s t) : t.par = s.par := by rw [h.rest]
theorem Converted.sprue {s t : State} (h : Converted s t) : t.sprue = s.sprue := by rw [h.rest]
theorem Converted.pwr {s t : State} (h : Converted s t) : t.pwr = s.pwr := by rw [h.rest]
theorem Converted.host {s t : State} (h : Converted s t) : t.host = s.host := by rw [h.rest]
theorem Converted.glint {s t : State} (h : Converted s t) : t.glint = s.glint := by rw [h.rest]
theorem Converted.clk {s t : State} (h : Converted s t) : t.clk = s.clk := by rw [h.rest]
theorem Converted.now {s t : State} (h : Converted s t) : now t = now s := by rw [Machine.now, h.timer, Machine.now]
theorem Converted.cal {s t : State} (h : Converted s t) : t.sar.cal = s.sar.cal := by rw [h.sar]
theorem Converted.burst {s t : State} (h : Converted s t) : t.sar.burst = s.sar.burst := by rw [h.sar]
theorem Converted.flares {s t : State} (h : Converted s t) : t.sar.flares = s.sar.flares := by rw [h.sar]

theorem Converted.prm {s t : State} (h : Converted s t) (id : Nat) : prm t id = prm s id := by rw [h.rest]; rfl

theorem castorDone_converted (d : Dest) (done : Nat) (s : State) : Converted s (castorDone d done s) := ⟨rfl, rfl, rfl⟩

theorem polluxDone_converted (d : Dest) (done : Nat) (s : State) : Converted s (polluxDone d done s) := ⟨rfl, rfl, rfl⟩

theorem biasStep_eq (tbl : List SeqEntry) (pos : Option SeqPos) (at_ : Nat) (s : State) :
    biasStep tbl pos at_ s = { s with afe := (biasStep tbl pos at_ s).afe } := by
  unfold biasStep
  split
  · rfl
  · split_ifs <;> rfl

theorem biasStep_converted (tbl : List SeqEntry) (pos : Option SeqPos) (at_ : Nat) (s : State) :
    Converted s (biasStep tbl pos at_ s) := by
  rw [biasStep_eq]
  exact ⟨rfl, rfl, rfl⟩

/-- Edges that are counted change the countdowns and the pins they drive. -/
def Counted (s t : State) : Prop :=
  t = { s with tmr := { s.tmr with cdn := t.tmr.cdn, tout0 := t.tmr.tout0, tout1 := t.tmr.tout1 } }

theorem Counted.trans {s t u : State} (h : Counted s t) (k : Counted t u) : Counted s u := by
  unfold Counted at *
  rw [k, h]

theorem Counted.converted {s t : State} (h : Counted s t) : Converted s t := by
  rw [h]
  exact ⟨rfl, rfl, rfl⟩

theorem Counted.sar {s t : State} (h : Counted s t) : t.sar = s.sar := by rw [h]

theorem cdnEdgesAt_counted (src m : Nat) (s : State) (i : Nat) : Counted s (cdnEdgesAt src m s i) := by
  unfold cdnEdgesAt cdnToutAct Counted
  dsimp only
  split_ifs <;> rfl

theorem foldl_cdnEdgesAt_counted (src m : Nat) (l : List Nat) (s : State) :
    Counted s (l.foldl (cdnEdgesAt src m) s) := by
  induction l generalizing s with
  | nil => rfl
  | cons i l ih => exact (cdnEdgesAt_counted src m s i).trans (ih _)

theorem cdnEdges_counted (src m : Nat) (s : State) : Counted s (cdnEdges src m s) := by
  unfold cdnEdges
  split_ifs
  · exact foldl_cdnEdgesAt_counted src m _ s
  · rfl

theorem sarDone_counted (u : Adc) (done : Nat) (s : State) : Counted s (sarDone u done s) := by
  unfold sarDone
  split_ifs
  · rfl
  · exact cdnEdges_counted 3 1 s

/-- No countdown counts an event source: its edges change nothing. -/
theorem cdnEdges_uncounted {src : Nat} {s : State} (h : ∀ i : Fin 4, cdnSrc s.tmr.cdn[i].actSrc ≠ src) (m : Nat) :
    cdnEdges src m s = s := by
  have hi (i : Nat) : cdnEdgesAt src m s i = s := by
    refine if_pos ?_
    rcases lt_or_ge i 4 with hlt | hge
    · exact .inl ((vget_fin s.tmr.cdn ⟨i, hlt⟩ Cdn.reset).symm ▸ h ⟨i, hlt⟩)
    · exact .inr (by simp [vget, Vector.getD, Nat.not_lt.2 hge, Cdn.reset])
  unfold cdnEdges
  split_ifs
  · exact List.foldl_fixed' hi _
  · rfl

theorem sarDone_uncounted {s : State} (h : ∀ i : Fin 4, cdnSrc s.tmr.cdn[i].actSrc ≠ 3) (u : Adc) (done : Nat) :
    sarDone u done s = s := by
  unfold sarDone
  rw [cdnEdges_uncounted h, ite_self]

theorem modAcc_converted (i : Nat) (f : Acc → Acc) (s : State) : Converted s (modAcc i f s) := ⟨rfl, rfl, rfl⟩

theorem accTake_converted (i : Nat) (x : Int) (y : Option Int) (s : State) : Converted s (accTake i x y s) := by
  unfold accTake
  split_ifs <;> exact ⟨rfl, rfl, rfl⟩

/-- A tracker after a conversion that has ended in `m`, with the stamp of its hold edge. -/
def Trk.take (m : Smp) (stamp : Nat) (t : Trk) : Trk :=
  match m with
  | .good x => Trk.add x stamp t
  | .high => Trk.clip true t
  | .low => Trk.clip false t

/-- A conversion changes its tracker, and of the front end what the die temperature says. -/
theorem trkTake_eq (chan i stamp : Nat) (m : Smp) (s : State) : trkTake chan i stamp m s = { s with
    afe := (trkTake chan i stamp m s).afe
    sar := { s.sar with trk := vset s.sar.trk i ((vget s.sar.trk i Trk.empty).take m stamp) } } := by
  cases m with
  | good x =>
    unfold trkTake
    dsimp only
    split_ifs <;> rfl
  | high => rfl
  | low => rfl

theorem trkTake_converted (chan i stamp : Nat) (m : Smp) (s : State) : Converted s (trkTake chan i stamp m s) := by
  rw [trkTake_eq]
  exact ⟨rfl, rfl, rfl⟩

theorem autoTake_converted (e : SeqEntry) (chan gain raw : Nat) (s : State) : Converted s (autoTake e chan gain raw s) := by
  unfold autoTake
  split_ifs <;> exact ⟨rfl, rfl, rfl⟩

/-- A good sample reaches its tracker, then its accumulator. -/
theorem takeOne_good {chan gain raw : Nat} {x : Int} {s : State} (h : sampleOf s chan gain raw = .good x)
    (acc trk stamp : Nat) :
    takeOne chan gain acc trk stamp raw s = accTake acc x none (trkTake chan trk stamp (.good x) s) := by
  simp only [takeOne, h]

/-- A clipped conversion marks its tracker and raises OVR of its accumulator. -/
theorem takeOne_clipped {chan gain raw : Nat} {m : Smp} {s : State} (h : sampleOf s chan gain raw = m)
    (hm : m = .high ∨ m = .low) (acc trk stamp : Nat) :
    takeOne chan gain acc trk stamp raw s = accOvr acc (trkTake chan trk stamp m s) := by
  rcases hm with rfl | rfl <;> simp only [takeOne, h]

theorem takeOne_converted (chan gain acc trk stamp raw : Nat) (s : State) :
    Converted s (takeOne chan gain acc trk stamp raw s) := by
  have ht (m : Smp) : Converted s (trkTake chan trk stamp m s) := trkTake_converted chan trk stamp m s
  cases h : sampleOf s chan gain raw with
  | good x => rw [takeOne_good h]; exact (ht _).trans (accTake_converted _ _ _ _)
  | high => rw [takeOne_clipped h (.inl rfl)]; exact (ht _).trans (modAcc_converted _ _ _)
  | low => rw [takeOne_clipped h (.inr rfl)]; exact (ht _).trans (modAcc_converted _ _ _)

/-- A conversion at a fixed gain changes no auto-ranged gain (R161). -/
theorem autoTake_fixed {e : SeqEntry} (h : bitsOf e.mode.toNat 2 0 ≠ 4) (chan gain raw : Nat) (s : State) :
    autoTake e chan gain raw s = s := if_pos h

/-! ## A sample in its accumulator and tracker (R160, R162, R166) -/

/-- An accumulator after a conversion that has ended in `m`. -/
def Acc.take (m : Smp) (a : Acc) : Acc :=
  match m with
  | .good x => Acc.add x none a
  | _ => { a with ovr := min (a.ovr + 1) 65535 }

theorem sampleOf_congr {s t : State} (h : t.sar.cal = s.sar.cal) (chan gain raw : Nat) :
    sampleOf t chan gain raw = sampleOf s chan gain raw := by
  unfold sampleOf calOf
  rw [h]

theorem trkTake_acc (chan i stamp : Nat) (m : Smp) (s : State) : (trkTake chan i stamp m s).sar.acc = s.sar.acc := by
  rw [trkTake_eq]

theorem trkTake_trk (chan i stamp : Nat) (m : Smp) (s : State) :
    (trkTake chan i stamp m s).sar.trk = vset s.sar.trk i ((vget s.sar.trk i Trk.empty).take m stamp) := by
  rw [trkTake_eq]

theorem trkTake_tmr (chan i stamp : Nat) (m : Smp) (s : State) : (trkTake chan i stamp m s).tmr = s.tmr := by
  rw [trkTake_eq]

theorem accTake_acc {i : Fin 32} {s : State} (h : s.sar.acc[i].count < 16777216) (x : Int) :
    (accTake i x none s).sar.acc = vset s.sar.acc i (s.sar.acc[i].take (.good x)) := by
  have hfull : s.sar.acc[i].full = false := by simpa [Acc.full] using h
  rw [accTake, if_neg (Nat.not_le.2 i.isLt), vget_fin, if_neg (Bool.eq_false_iff.1 hfull)]
  simp only [modAcc, vget_fin]
  rfl

theorem accTake_trk (i : Nat) (x : Int) (y : Option Int) (s : State) : (accTake i x y s).sar.trk = s.sar.trk := by
  unfold accTake
  split_ifs <;> rfl

theorem accOvr_acc (i : Fin 32) (s : State) {m : Smp} (hm : m = .high ∨ m = .low) :
    (accOvr i s).sar.acc = vset s.sar.acc i (s.sar.acc[i].take m) := by
  rcases hm with rfl | rfl <;> simp only [accOvr, modAcc, vget_fin] <;> rfl

/-- A conversion at an accumulator that is not full: its sample enters it, or raises its OVR. -/
theorem takeOne_acc {acc : Fin 32} {s : State} (h : s.sar.acc[acc].count < 16777216) (chan gain trk stamp raw : Nat) :
    (takeOne chan gain acc trk stamp raw s).sar.acc =
      vset s.sar.acc acc (s.sar.acc[acc].take (sampleOf s chan gain raw)) := by
  have ha (m : Smp) : (trkTake chan trk stamp m s).sar.acc = s.sar.acc := trkTake_acc chan trk stamp m s
  cases hm : sampleOf s chan gain raw with
  | good x => rw [takeOne_good hm, accTake_acc (by rwa [ha]), ha]
  | high => rw [takeOne_clipped hm (.inl rfl), accOvr_acc _ _ (.inl rfl), ha]
  | low => rw [takeOne_clipped hm (.inr rfl), accOvr_acc _ _ (.inr rfl), ha]

theorem takeOne_trk (chan gain acc trk stamp raw : Nat) (s : State) :
    (takeOne chan gain acc trk stamp raw s).sar.trk =
      vset s.sar.trk trk ((vget s.sar.trk trk Trk.empty).take (sampleOf s chan gain raw) stamp) := by
  cases hm : sampleOf s chan gain raw with
  | good x => rw [takeOne_good hm, accTake_trk, trkTake_trk]
  | high => rw [takeOne_clipped hm (.inl rfl)]; exact trkTake_trk chan trk stamp .high s
  | low => rw [takeOne_clipped hm (.inr rfl)]; exact trkTake_trk chan trk stamp .low s

theorem accTake_tmr (i : Nat) (x : Int) (y : Option Int) (s : State) : (accTake i x y s).tmr = s.tmr := by
  unfold accTake
  split_ifs <;> rfl

theorem takeOne_tmr (chan gain acc trk stamp raw : Nat) (s : State) :
    (takeOne chan gain acc trk stamp raw s).tmr = s.tmr := by
  cases hm : sampleOf s chan gain raw with
  | good x => rw [takeOne_good hm, accTake_tmr, trkTake_tmr]
  | high => rw [takeOne_clipped hm (.inl rfl)]; exact trkTake_tmr chan trk stamp .high s
  | low => rw [takeOne_clipped hm (.inr rfl)]; exact trkTake_tmr chan trk stamp .low s

end Sys2Proof.Machine

/-! SUPPORT. Passes of the Routine and the Burst: where they stand, and one conversion of them
(07_sar_and_accumulators.md R147, R153 to R160). -/

namespace Sys2Proof.Machine

/-! ## Positions (R150, R155) -/

theorem seqStart_done {s : State} {tbl : List SeqEntry} {p : SeqPos} (h : seqStart s tbl = some p) : p.done = 0 := by
  obtain ⟨w, -, rfl⟩ := Option.map_eq_some_iff.1 h
  rfl

theorem kindAt_first {tbl : List SeqEntry} {p : SeqPos} (h : p.done = 0) : kindAt tbl p ≠ .pollux := by
  unfold kindAt
  split_ifs <;> simp_all

/-- Behind a conversion of Castor alone no half of an interleave pair follows. -/
theorem seqNext_kind {s : State} {tbl : List SeqEntry} {p q : SeqPos} (h : seqNext s tbl p = some q)
    (hk : kindAt tbl p = .solo) : kindAt tbl q ≠ .pollux := by
  unfold seqNext at h
  split_ifs at h
  · have hq : kindAt tbl q = kindAt tbl p := by
      obtain rfl := Option.some.inj h
      unfold kindAt at hk ⊢
      split_ifs at hk ⊢
      simp_all
    rw [hq, hk]
    decide
  · obtain ⟨w, -, rfl⟩ := Option.map_eq_some_iff.1 h
    exact kindAt_first rfl

theorem seqNext_congr {s t : State} (h : prm t 0x0201 = prm s 0x0201) (tbl : List SeqEntry) (p : SeqPos) :
    seqNext t tbl p = seqNext s tbl p := by
  simp only [seqNext, workList, workChans, ignoredChan, h]

/-! ## A stretch of a pass (R155, R159) -/

theorem seqLose_kept {tbl : List SeqEntry} {p : SeqPos} (h : kindAt tbl p ≠ .pollux) (s : State) :
    seqLose tbl p s = (some p, s) := by
  simp [seqLose, slotLost, h]

theorem seqRun_nil {tbl : List SeqEntry} {p : SeqPos} (h : kindAt tbl p ≠ .pollux) (s : State) :
    seqRun tbl (some p) [] s = (some p, s) := seqLose_kept h s

/-- The state in which one conversion of a pass leaves the part: TBIAS stands as the next position wants it. -/
def afterConversion (tbl : List SeqEntry) (p : SeqPos) (raw twin : Nat) (s : State) : State :=
  let t := seqConvert tbl p raw twin s
  biasStep tbl (seqNext t tbl p) (max t.sar.castor.free t.sar.pollux.free) t

/-- One conversion of Castor alone, where no Flare waits: the pass then stands at the next position. -/
theorem seqRun_solo {tbl : List SeqEntry} {p : SeqPos} {s : State} (hk : kindAt tbl p = .solo) (hf : s.sar.flares = [])
    (raw twin : Nat) : seqRun tbl (some p) [(raw, twin)] s =
      (seqNext (seqConvert tbl p raw twin s) tbl p, afterConversion tbl p raw twin s) := by
  have hl := seqLose_kept (by simp [hk] : kindAt tbl p ≠ .pollux) s
  have hff : flareFirst s tbl p = false := by simp [flareFirst, flareBy, hf]
  rw [seqRun]
  simp only [hl, hff, Bool.false_eq_true, if_false]
  cases hn : seqNext (seqConvert tbl p raw twin s) tbl p with
  | none => simp only [seqRun, afterConversion, hn]
  | some q => rw [seqRun_nil (seqNext_kind hn hk), afterConversion, hn]

/-- The edge at which the conversion of a position completes. -/
def completionAt (tbl : List SeqEntry) (p : SeqPos) (s : State) : Nat :=
  sarStamp s (slotStart s tbl p + (tbl.getD p.entry SeqEntry.none).sample + 16)

/-- The state of a conversion of Castor alone, before its sample is taken: at its completion edge, with the converter free. -/
def castorHolds (tbl : List SeqEntry) (p : SeqPos) (s : State) : State :=
  let e := tbl.getD p.entry SeqEntry.none
  let done := slotStart s tbl p + e.sample + 16
  let w := elapseTo (completionAt tbl p s) s
  sarDone w.sar.pollux done (castorDone (destOf w e p.chan) done w)

theorem seqConvert_solo {tbl : List SeqEntry} {p : SeqPos} (hk : kindAt tbl p = .solo) (raw twin : Nat) (s : State) :
    let e := tbl.getD p.entry SeqEntry.none
    let w := elapseTo (completionAt tbl p s) s
    let d := destOf w e p.chan
    seqConvert tbl p raw twin s = autoTake e d.chan d.gain raw
      (takeOne d.chan d.gain d.acc d.trk (sarStamp w (slotStart s tbl p + e.sample)) raw (castorHolds tbl p s)) := by
  simp only [seqConvert, hk]
  rfl

theorem castorHolds_converted (tbl : List SeqEntry) (p : SeqPos) (s : State) :
    Converted (elapseTo (completionAt tbl p s) s) (castorHolds tbl p s) :=
  (castorDone_converted _ _ _).trans (sarDone_counted _ _ _).converted

theorem seqConvert_converted {tbl : List SeqEntry} {p : SeqPos} (hk : kindAt tbl p = .solo) (raw twin : Nat) (s : State) :
    Converted (elapseTo (completionAt tbl p s) s) (seqConvert tbl p raw twin s) := by
  rw [seqConvert_solo hk]
  exact ((castorHolds_converted tbl p s).trans (takeOne_converted _ _ _ _ _ _ _)).trans (autoTake_converted _ _ _ _ _)

theorem afterConversion_converted {tbl : List SeqEntry} {p : SeqPos} (hk : kindAt tbl p = .solo) (raw twin : Nat)
    (s : State) : Converted (elapseTo (completionAt tbl p s) s) (afterConversion tbl p raw twin s) :=
  (seqConvert_converted hk raw twin s).trans (biasStep_converted _ _ _ _)

/-! ## The end of a Routine pass (R153; 08 R185) -/

/-- The end of a Routine pass changes the ports' entries, and captures its last edge. -/
theorem routEnd_eq (s : State) : routEnd s = { s with
    tmr := (routEnd s).tmr
    sar := { s.sar with routPort := (routEnd s).sar.routPort, routDrop := (routEnd s).sar.routDrop } } := by
  unfold routEnd capqPushFine
  dsimp only
  split_ifs <;> rfl

theorem routEnd_tmr {s : State} (h : prm s 0x0C04 = 1 ∨ tmrRuns s = false) : (routEnd s).tmr = s.tmr := by
  have hc : (if capq3 s false then capqPushFine 3 (passStamp s) s else s) = s := by
    rcases h with h | h
    · simp [capq3, h, bit]
    · simp [capqPushFine, h]
  unfold routEnd
  rw [hc]
  dsimp only
  split_ifs <;> rfl

theorem routStand_eq (x : Option SeqPos × State) : routStand x = { x.2 with
    tmr := (routStand x).tmr
    sar := { x.2.sar with
      routPos := x.1, routPort := (routStand x).sar.routPort, routDrop := (routStand x).sar.routDrop } } := by
  unfold routStand
  dsimp only
  split_ifs
  · exact routEnd_eq _
  · rfl

/-- A pass that stands where it stood. -/
theorem routStand_kept {p : SeqPos} {s : State} (h : s.sar.routPos = some p) : routStand (some p, s) = s := by
  show { s with sar := { s.sar with routPos := some p } } = s
  rw [← h]

theorem routStand_tmr {x : Option SeqPos × State} (h : prm x.2 0x0C04 = 1 ∨ tmrRuns x.2 = false) :
    (routStand x).tmr = x.2.tmr := by
  unfold routStand
  dsimp only
  split_ifs
  · exact routEnd_tmr h
  · rfl

end Sys2Proof.Machine

/-! SUPPORT. The reference, a Routine pass that falls due, and its conversions (07_sar_and_accumulators.md R147 to R167). -/

namespace Sys2Proof.Machine

theorem exec_referenceSettled (dt : Nat) (s : State) : exec (.referenceSettled dt) s = execReferenceSettled dt s := by rfl

theorem exec_routinePass (dt : Nat) (codes : List (Nat × Nat)) (s : State) :
    exec (.routinePass dt codes) s = execRoutinePass dt codes s := by rfl

theorem exec_sarConversion (conv : Conv) (s : State) : exec (.sarConversion conv) s = execSarConversion conv s := by rfl

/-! ## A Routine pass falls due (R153, R157) -/

/-- A pass boundary with no new reference. -/
theorem passBoundary_sameRef {s : State} (h : s.sar.refSel = prm { s with par := s.par.applyMoment .pass } 0x0440) :
    passBoundary s = { s with par := s.par.applyMoment .pass } := if_pos h.symm

theorem routinePassAt_waits {s : State} (h : ∀ due, s.sar.routDue = some due → routMay due s = false)
    (codes : List (Nat × Nat)) : routinePassAt codes s = s := by
  unfold routinePassAt
  split
  · next due hd _ => simp [h due hd]
  · rfl

/-- What the start of a Routine pass changes. -/
theorem routStart_eq (due : Nat) (s : State) : routStart due s = { s with
    afe := (routStart due s).afe
    sar := { s.sar with
      routPort := s.sar.routNext.getD s.sar.routPort, routNext := none, passAt := sarNow s
      routDue := some (due + ((now s - due) / msTicks (prm s 0x0441) + 1) * msTicks (prm s 0x0441))
      routLate := (routStart due s).sar.routLate
      routPos := seqStart s (s.sar.routFw ++ s.sar.routNext.getD s.sar.routPort) } } := by
  unfold routStart
  rw [biasStep_eq]
  rfl

theorem routinePassAt_starts {s : State} {due : Nat} {p : SeqPos} (hd : s.sar.routDue = some due)
    (hp : s.sar.routPos = none) (hm : routMay due s = true) (hr : sarReady (passBoundary s) = true)
    (hs : seqStart (passBoundary s)
      ((passBoundary s).sar.routFw ++ (passBoundary s).sar.routNext.getD (passBoundary s).sar.routPort) = some p) :
    routinePassAt [] s = routStart due (passBoundary s) := by
  have e := routStart_eq due (passBoundary s)
  have hpos : (routStart due (passBoundary s)).sar.routPos = some p := by rw [e]; exact hs
  rw [routinePassAt, hd, hp]
  simp only [hm, hr, if_true, hpos]
  rw [seqRun_nil (kindAt_first (seqStart_done hs)), routStand_kept hpos]

/-! ## One conversion of a Routine pass (R147, R155, R160, R162, R166) -/

theorem getD_of_getElem? {α : Type} {l : List α} {i : Nat} {x d : α} (h : l[i]? = some x) : l.getD i d = x := by
  rw [List.getD_eq_getElem?_getD, h, Option.getD_some]

/-- An entry with no MODE flag converts on Castor alone. -/
theorem kindAt_plain {tbl : List SeqEntry} {p : SeqPos} {e : SeqEntry} (he : tbl[p.entry]? = some e) (hm : e.mode = 0) :
    kindAt tbl p = .solo := by
  have ht : isTwin e = false := by rw [isTwin, hm]; rfl
  have hi : isIntlv e = false := by rw [isIntlv, hm]; rfl
  simp [kindAt, twinAt, he, ht, hi]

/-- A conversion of an entry with no MODE flag takes one sample at gain 0. -/
theorem seqConvert_plain {tbl : List SeqEntry} {p : SeqPos} {e : SeqEntry} (he : tbl[p.entry]? = some e)
    (hm : e.mode = 0) (raw twin : Nat) (s : State) :
    seqConvert tbl p raw twin s = takeOne (e.chan + p.chan) 0 (offIdx e.acc p.chan) (offIdx e.trk p.chan)
      (sarStamp (elapseTo (completionAt tbl p s) s) (slotStart s tbl p + e.sample)) raw (castorHolds tbl p s) := by
  have hfix : bitsOf e.mode.toNat 2 0 ≠ 4 := by rw [hm]; decide
  have hgain (u : State) (c : Nat) : gainOf u e c = 0 := by rw [gainOf, hm]; rfl
  rw [seqConvert_solo (kindAt_plain he hm), getD_of_getElem? he, autoTake_fixed hfix]
  simp only [destOf, hgain]

theorem castorHolds_acc (tbl : List SeqEntry) (p : SeqPos) (s : State) :
    (castorHolds tbl p s).sar.acc = s.sar.acc ∧ (castorHolds tbl p s).sar.trk = s.sar.trk := by
  have k := elapseTo_timeKept (completionAt tbl p s) s
  unfold castorHolds
  rw [(sarDone_counted _ _ _).sar]
  have ha := congrArg Sar.acc k.sar
  have ht := congrArg Sar.trk k.sar
  exact ⟨ha, ht⟩

theorem castorHolds_tmr {tbl : List SeqEntry} {p : SeqPos} {s : State}
    (h : ∀ i : Fin 4, cdnSrc (elapseTo (completionAt tbl p s) s).tmr.cdn[i].actSrc ≠ 3) :
    (castorHolds tbl p s).tmr = (elapseTo (completionAt tbl p s) s).tmr := by
  unfold castorHolds
  dsimp only
  rw [sarDone_uncounted (by exact h)]
  rfl

theorem castorHolds_sample (tbl : List SeqEntry) (p : SeqPos) (s : State) (chan gain raw : Nat) :
    sampleOf (castorHolds tbl p s) chan gain raw = sampleOf s chan gain raw :=
  sampleOf_congr ((castorHolds_converted tbl p s).cal.trans
    (congrArg Sar.cal (elapseTo_timeKept (completionAt tbl p s) s).sar)) _ _ _

section
variable {tbl : List SeqEntry} {p : SeqPos} {e : SeqEntry} (he : tbl[p.entry]? = some e) (hm : e.mode = 0)
  (raw twin : Nat) (s : State)
include he hm

theorem seqConvert_acc (hacc : e.acc + p.chan < 32) (hfull : ∀ i : Fin 32, s.sar.acc[i].count < 16777216) :
    (seqConvert tbl p raw twin s).sar.acc = vset s.sar.acc (e.acc + p.chan)
      ((vget s.sar.acc (e.acc + p.chan) Acc.empty).take (sampleOf s (e.chan + p.chan) 0 raw)) := by
  have hi : offIdx e.acc p.chan = (⟨e.acc + p.chan, hacc⟩ : Fin 32).val := if_neg (by omega)
  have ha := (castorHolds_acc tbl p s).1
  rw [seqConvert_plain he hm, hi, takeOne_acc (by rw [ha]; exact hfull _), ha, castorHolds_sample,
    ← vget_fin _ _ Acc.empty]

theorem seqConvert_trk : (seqConvert tbl p raw twin s).sar.trk = vset s.sar.trk (offIdx e.trk p.chan)
      ((vget s.sar.trk (offIdx e.trk p.chan) Trk.empty).take (sampleOf s (e.chan + p.chan) 0 raw)
        (sarStamp (elapseTo (completionAt tbl p s) s) (slotStart s tbl p + e.sample))) := by
  rw [seqConvert_plain he hm, takeOne_trk, (castorHolds_acc tbl p s).2, castorHolds_sample]

theorem seqConvert_tmr (h : ∀ i : Fin 4, cdnSrc (elapseTo (completionAt tbl p s) s).tmr.cdn[i].actSrc ≠ 3) :
    (seqConvert tbl p raw twin s).tmr = (elapseTo (completionAt tbl p s) s).tmr := by
  rw [seqConvert_plain he hm, takeOne_tmr, castorHolds_tmr h]

end

/-- An element of a vector in which one has been written, in range or not. -/
theorem getElem_vset {α : Type} {n : Nat} (v : Vector α n) (j : Nat) (x : α) (i : Fin n) :
    (vset v j x)[i] = if i.val = j then x else v[i] := by
  by_cases h : i.val = j
  · subst h
    rw [if_pos rfl, vset_fin_self]
  · have h' : ¬ j = i.val := Ne.symm h
    simp [vset, h, h']

/-- A woken part has no TMR edges, and a part that was awake has kept its parameters. -/
theorem elapseTo_prm_or_coarse (t id : Nat) (s : State) :
    prm (elapseTo t s) id = prm s id ∨ tmrRuns (elapseTo t s) = false := by
  rcases elapseTo_passed_or_wakes t s with p | ⟨u, -, hm, q⟩
  · exact .inl (p.prm id)
  · have hb : (beginWake u).clk.lode = .locking := by
      unfold beginWake
      split
      · next h => exact absurd h hm
      · rfl
      · rfl
    exact .inr (by simp [tmrRuns, lodeOn, q.clk, hb])

theorem sequenceConverts {r : State} {p : SeqPos} {e : SeqEntry} {code : Nat} (hp : r.sar.routPos = some p)
    (he : (routTable r)[p.entry]? = some e) (hm : e.mode = 0) (hacc : e.acc + p.chan < 32)
    (htrk : e.trk = 0xFF ∨ e.trk + p.chan < 32) (hq : Quiet r) (hf : r.sar.flares = [])
    (hfull : ∀ i : Fin 32, r.sar.acc[i].count < 16777216) (hcap : prm r 0x0C04 = 1) :
    let w := elapseTo (completionAt (routTable r) p r) r
    let m := sampleOf r (e.chan + p.chan) 0 code
    (∀ i : Fin 4, cdnSrc w.tmr.cdn[i].actSrc ≠ 3) →
    let t := settle (seqConversion code 0 r)
    t.sar.routPos = seqNext w (routTable r) p ∧ t.tmr = w.tmr ∧
    (∀ i : Fin 32, t.sar.acc[i] = if i.val = e.acc + p.chan then r.sar.acc[i].take m else r.sar.acc[i]) ∧
    ∀ i : Fin 32, t.sar.trk[i] = if e.trk ≠ 0xFF ∧ i.val = e.trk + p.chan then
      r.sar.trk[i].take m (sarStamp w (slotStart r (routTable r) p + e.sample)) else r.sar.trk[i] := by
  intro w m hcdn t
  have hk := kindAt_plain he hm
  have kt : TimeKept r w := elapseTo_timeKept _ _
  have kx : Converted w (afterConversion (routTable r) p code 0 r) := afterConversion_converted hk _ _ _
  have hprm : prm (afterConversion (routTable r) p code 0 r) 0x0C04 = 1 ∨
      tmrRuns (afterConversion (routTable r) p code 0 r) = false := by
    have := elapseTo_prm_or_coarse (completionAt (routTable r) p r) 0x0C04 r
    rw [kx.prm, tmrRuns, lodeOn, kx.clk]
    rwa [hcap] at this
  have hn : seqNext (seqConvert (routTable r) p code 0 r) (routTable r) p = seqNext w (routTable r) p :=
    seqNext_congr ((seqConvert_converted hk code 0 r).prm _) _ _
  have hseq : seqConversion code 0 r =
      routStand (seqNext w (routTable r) p, afterConversion (routTable r) p code 0 r) := by
    rw [seqConversion, hp, Option.isSome_some, if_pos rfl, seqRun_solo hk hf, hn]
  have hx : afterConversion (routTable r) p code 0 r =
      { seqConvert (routTable r) p code 0 r with afe := (afterConversion (routTable r) p code 0 r).afe } :=
    biasStep_eq _ _ _ _
  have hr := routStand_eq (seqNext w (routTable r) p, afterConversion (routTable r) p code 0 r)
  have hquiet : Quiet (seqConversion code 0 r) := by
    have hs : (seqConversion code 0 r).sprue = r.sprue := by rw [hseq, hr]; exact kx.sprue.trans kt.sprue
    have hd : (seqConversion code 0 r).pwr.deferred = [] := by
      rw [hseq, hr]; exact (congrArg Pwr.deferred kx.pwr).trans (kt.deferred hq.deferred)
    exact ⟨by rw [hs]; exact hq.slots, by rw [hs]; exact hq.held, by rw [hs]; exact hq.early, hd⟩
  have ht : t = alarmTrack (routStand (seqNext w (routTable r) p, afterConversion (routTable r) p code 0 r)) := by
    rw [← hseq]; exact settle_quiet hquiet
  have hacc' : t.sar.acc = (seqConvert (routTable r) p code 0 r).sar.acc := by rw [ht, alarmTrack_sar, hr, hx]
  have htrk' : t.sar.trk = (seqConvert (routTable r) p code 0 r).sar.trk := by rw [ht, alarmTrack_sar, hr, hx]
  refine ⟨by rw [ht, alarmTrack_sar, hr], ?_, fun i => ?_, fun i => ?_⟩
  · rw [ht, alarmTrack_tmr, routStand_tmr hprm, hx]
    exact seqConvert_tmr he hm code 0 r hcdn
  · rw [hacc', seqConvert_acc he hm code 0 r hacc hfull, getElem_vset]
    split_ifs with h
    · rw [← h, vget_fin]
    · rfl
  · rw [htrk', seqConvert_trk he hm code 0 r, getElem_vset]
    rcases htrk with h | h
    · have : i.val ≠ offIdx e.trk p.chan := by
        have h255 : offIdx e.trk p.chan = 0xFF := if_pos h
        omega
      rw [if_neg this, if_neg (by simp [h])]
    · have ho : offIdx e.trk p.chan = e.trk + p.chan := if_neg (by omega)
      have hne : e.trk ≠ 0xFF := by omega
      rw [ho]
      simp only [ne_eq, hne, not_false_eq_true, true_and]
      split_ifs with h
      · rw [← h, vget_fin]
      · rfl

/-! ## Samples of cell taps (R149, R160, R167) -/

theorem sampleOf_cell {r : State} {cell code : Nat} (hcode : code < 4095) (h1 : 1 ≤ cell) (h16 : cell ≤ 16)
    (hy : (calSample (calOf r (cell - 1)) code).natAbs ≤ 524287) :
    sampleOf r cell 0 code = .good (calSample (calOf r (cell - 1)) code) := by
  have hshunt : isShunt cell = false := by simp [isShunt]; omega
  have hpair : pairIdx cell 0 = some (cell - 1) := by
    simp [pairIdx, h1, h16, show cell ≠ 0x18 by omega, show cell ≠ 0x19 by omega]
  simp only [sampleOf, hshunt, hpair, Option.getD_some, Bool.false_and, Bool.false_eq_true, if_false]
  rw [if_neg (by omega), if_neg (by omega), if_neg (by omega)]

theorem sampleOf_full (r : State) (c g : Nat) : sampleOf r c g 4095 = .high := by simp [sampleOf]

/-! ## The reference and Routine passes -/

theorem passesAndConversions : PassesAndConversions := by
  intro dt s hl hlode r b tbl
  have hon : lodeOn r = true := by simpa [lodeOn] using hlode
  have hact (codes : List (Nat × Nat)) :
      exec (.routinePass dt codes) s = .next (settle (routinePassAt codes r)) := by
    rw [exec_routinePass, execRoutinePass, act_live hl]
  have href : exec (.referenceSettled dt) s =
      .next (if refSettled r then { r with sar := { r.sar with refRdy := true } } else r) := by
    rw [exec_referenceSettled, execReferenceSettled, act_live hl]
  have hconv (conv : Conv) (h0 : dt = 0) : exec (.sarConversion conv) s = .next (sarConversionAt conv r) := by
    rw [exec_sarConversion, execSarConversion, act_live hl, ← h0]
  have hloff : r.clk.lode ≠ .off := by simp [show r.clk.lode = .on from hlode]
  clear_value r
  refine ⟨fun h => ?_, fun h1 h2 => ?_, fun due p hd hp hdue hrdy hq hb hsel hper hstart => ?_,
    fun due hd hnow hq => ?_, fun hb hpol hq => ?_,
    ?_, fun code cell hcode h1 h16 => sampleOf_cell hcode h1 h16, sampleOf_full r⟩
  · rw [href, if_pos]
    simpa [refSettled, hloff] using h
  · rw [href, if_neg]
    simp [refSettled, h1, h2]
  · have hb' : passBoundary r = b := passBoundary_sameRef hsel
    have hmay : routMay due r = true := by simp [routMay, hon, hdue, hb]
    have hready : sarReady b = true := by simp [sarReady, b, hrdy]; exact hon
    have hrun : routinePassAt [] r = routStart due b := by
      rw [← hb']
      exact routinePassAt_starts hd hp hmay (by rw [hb']; exact hready) (by rw [hb']; exact hstart)
    have e := routStart_eq due b
    have hquiet : Quiet (routStart due b) := by rw [e]; exact quiet_congr hq rfl rfl
    refine ⟨alarmTrack (routStart due b), by rw [hact, hrun, settle_quiet hquiet], ?_⟩
    rw [alarmTrack_sar, alarmTrack_gauge, e]
    exact ⟨rfl, rfl, hstart, rfl, rfl, rfl, rfl⟩
  · rw [hact, routinePassAt_waits, settle_quiet hq]
    intro x hx
    obtain rfl := Option.some.inj (hd.symm.trans hx)
    simp [routMay, Nat.not_le.2 hnow]
  · rw [hact, routinePassAt_waits, settle_quiet hq]
    intro x _
    simp [routMay, hb, hpol]
  · intro p e code h0 hp he hm _ hacc htrk hq hrdy hf hfull hcap start w m hcdn
    have hready : sarReady r = true := by simp [sarReady, hon, hrdy]
    have hw : w = elapseTo (completionAt (routTable r) p r) r := by
      rw [completionAt, getD_of_getElem? he]
    refine ⟨settle (seqConversion code 0 r), by rw [hconv _ h0, sarConversionAt, if_pos hready], ?_⟩
    have k := sequenceConverts (code := code) hp he hm hacc htrk hq hf hfull hcap (by rw [← hw]; exact hcdn)
    rw [← hw] at k
    exact k

end Sys2Proof.Machine

/-! SUPPORT. Burst passes, a Flare and the conversions of a calibration (07_sar_and_accumulators.md R147, R154, R157, R158,
R168). -/

namespace Sys2Proof.Machine

theorem exec_burstPass (dt : Nat) (codes : List (Nat × Nat)) (s : State) :
    exec (.burstPass dt codes) s = execBurstPass dt codes s := by rfl

/-! ## Burst passes (R154, R157) -/

theorem burstPassAt_waits {s : State} (h : burstMay s = false) (resume : Bool) (codes : List (Nat × Nat)) :
    burstPassAt resume codes s = s := by simp [burstPassAt, h]

theorem burstMay_iff {s : State} {p : SeqPos} (hp : s.sar.burstPos = some p) (hs : seqStart s s.sar.burst ≠ some p)
    (hon : lodeOn s = true) (hb : s.sar.burstOn = true) (hr : s.sar.routPos = none) :
    burstMay s = true ∧ burstFresh s = false := by
  have hf : burstFresh s = false := by simp [burstFresh, hp, Ne.symm hs]
  exact ⟨by simp [burstMay, hon, hb, hp, hr, hf], hf⟩

/-- The state in which a Burst pass goes on. -/
def burstResumed (s : State) : State :=
  let t := { s with sar := { s.sar with passAt := sarNow s } }
  biasStep t.sar.burst t.sar.burstPos (sarNow t) t

theorem burstPassAt_resumes {s : State} (hm : burstMay s = true) (hf : burstFresh s = false) (hr : sarReady s = true)
    (codes : List (Nat × Nat)) :
    burstPassAt true codes s = burstStand (seqRun s.sar.burst s.sar.burstPos codes (burstResumed s)) := by
  simp only [burstPassAt, hm, hf, hr, if_true, Bool.or_true, Bool.false_eq_true, if_false]
  rfl

theorem burstResumed_eq (s : State) : burstResumed s =
    { s with afe := (burstResumed s).afe, sar := { s.sar with passAt := 4 * now s } } := by
  rw [burstResumed, biasStep_eq]
  rfl

theorem burstStand_kept {p : SeqPos} {s : State} (h : s.sar.burstPos = some p) : burstStand (some p, s) = s := by
  show { s with sar := { s.sar with burstPos := some p } } = s
  rw [← h]

/-- The end of the last Burst pass. -/
theorem burstEnd_last {s : State} (h : s.sar.burstLeft = 1) : burstEnd s = { s with
    tmr := (burstEnd s).tmr
    sar := { s.sar with burstOn := false, burstStop := false, burstLeft := 0, burstPos := none } } := by
  unfold burstEnd capqPushFine
  dsimp only
  split_ifs <;> simp_all [capqPushAt]

theorem glintApply_off {s : State} (h : prm { s with par := s.par.applyMoment .burst } 0x0520 = 0)
    (hg : s.glint.on = false) : glintApply s = { s with par := s.par.applyMoment .burst } := by
  simp [glintApply, h, glintStop, hg]

/-- The one entry of a table has been converted to its end. -/
theorem seqNext_last {s : State} {e : SeqEntry} {p : SeqPos} (h0 : p.entry = 0) (hc : p.chan + 1 = e.span)
    (hd : p.done + 1 = e.repeat_) : seqNext s [e] p = none := by
  have hnot : ∀ w ∈ workList s [e], ¬ (0 < w.1 ∨ w.1 = 0 ∧ p.chan < w.2) := by
    intro w hw
    simp only [workList, workEntries, List.flatMap_cons, List.flatMap_nil, List.append_nil, List.mem_map] at hw
    obtain ⟨k, hk, rfl⟩ := hw
    have hlt : k < e.span := by simpa using List.mem_range.1 (List.mem_of_mem_filter hk)
    omega
  have hfind : (workList s [e]).find? (fun w => decide (p.entry < w.1) || (p.entry == w.1 && decide (p.chan < w.2))) = none :=
    List.find?_eq_none.2 fun w hw => by
      have := hnot w hw
      simp [h0]
      omega
  have hrep : ¬ p.done + 1 < ([e].getD p.entry SeqEntry.none).repeat_ := by simp [h0, hd]
  rw [seqNext, if_neg hrep, hfind]
  rfl

theorem kindAt_single {e : SeqEntry} {p : SeqPos} (h0 : p.entry = 0) (hi : isIntlv e = false) :
    kindAt [e] p = .solo := by
  simp [kindAt, twinAt, h0, hi]

theorem prm_of_parts {s t : State} (hl : t.link.cfg = s.link.cfg ∧ t.link.role = s.link.role ∧ t.link.split = s.link.split)
    (hs : t.start = s.start) (hp : t.par = s.par) (id : Nat) : prm t id = prm s id := by
  obtain ⟨hc, hr, hsp⟩ := hl
  unfold prm cfgValue cfgActive
  rw [hc, hr, hsp, hs, hp]

/-- The last pass of a Burst of one entry comes to its end, and the Burst stops. -/
theorem burstEnds {r : State} {e : SeqEntry} {p : SeqPos} {code : Nat} (hmode : r.pwr.mode = .run)
    (hrdy : sarReady r = true) (hb : r.sar.burst = [e]) (hp : r.sar.burstPos = some p) (h0 : p.entry = 0)
    (hc : p.chan + 1 = e.span) (hd : p.done + 1 = e.repeat_) (hi : isIntlv e = false)
    (hmay : burstMay r = true ∧ burstFresh r = false) (hl : r.sar.burstLeft = 1) (hf : r.sar.flares = []) (hq : Quiet r)
    (hg : r.glint.on = false) (hen : prm { r with par := r.par.applyMoment .burst } 0x0520 = 0) :
    let t := settle (burstPassAt true [(code, 0)] r)
    t.sar.burstOn = false ∧ t.sar.burstPos = none ∧ t.sar.burstLeft = 0 ∧ t.sar.burst = [e] := by
  intro t
  have hk := kindAt_single (p := p) h0 hi
  have eb := burstResumed_eq r
  have hrun : burstPassAt true [(code, 0)] r = burstStand (none, afterConversion [e] p code 0 (burstResumed r)) := by
    rw [burstPassAt_resumes hmay.1 hmay.2 hrdy, hb, hp, seqRun_solo hk (by rw [eb]; exact hf), seqNext_last h0 hc hd]
  have kw : Passed (burstResumed r) (elapseTo (completionAt [e] p (burstResumed r)) (burstResumed r)) :=
    elapseTo_passed (by rw [eb]; exact hmode)
  have kx := afterConversion_converted hk code 0 (burstResumed r)
  generalize elapseTo (completionAt [e] p (burstResumed r)) (burstResumed r) = w at kw kx
  generalize afterConversion [e] p code 0 (burstResumed r) = x at hrun kx
  have hleft : x.sar.burstLeft = 1 := by rw [kx.sar, kw.sar, eb]; exact hl
  have hburst : x.sar.burst = [e] := by rw [kx.burst, kw.sar, eb]; exact hb
  have hsprue : x.sprue = r.sprue := by rw [kx.sprue, kw.sprue, eb]
  have hdef : x.pwr.deferred = [] := by rw [kx.pwr]; exact kw.left (by rw [eb]; exact hq.deferred)
  have hglint : x.glint.on = false := by rw [kx.glint, kw.glint, eb]; exact hg
  have hx : x.link = w.link ∧ x.start = w.start ∧ x.par = r.par := by
    rw [kx.par, kw.par, eb, kx.rest]
    exact ⟨rfl, rfl, rfl⟩
  obtain ⟨hlink, hstart, hpar⟩ := hx
  have ee := burstEnd_last (s := { x with sar := { x.sar with burstPos := none } }) hleft
  have hstand : burstPassAt true [(code, 0)] r = glintApply (burstEnd { x with sar := { x.sar with burstPos := none } }) :=
    hrun
  generalize burstEnd { x with sar := { x.sar with burstPos := none } } = y at ee hstand
  have hen' : prm { y with par := y.par.applyMoment .burst } 0x0520 = 0 := by
    rw [← hen]
    refine prm_of_parts ?_ ?_ ?_ _
    · rw [ee]
      show x.link.cfg = r.link.cfg ∧ x.link.role = r.link.role ∧ x.link.split = r.link.split
      rw [hlink, kw.link, eb]
      exact ⟨rfl, rfl, rfl⟩
    · rw [ee]
      exact hstart.trans (kw.start.trans (by rw [eb]))
    · rw [ee]
      exact congrArg (Par.applyMoment .burst) hpar
  rw [glintApply_off hen' (by rw [ee]; exact hglint)] at hstand
  have hquiet : Quiet (burstPassAt true [(code, 0)] r) := by
    rw [hstand, ee]
    exact ⟨fun i => by rw [hsprue]; exact hq.slots i, by rw [hsprue]; exact hq.held, by rw [hsprue]; exact hq.early, hdef⟩
  have ht : t.sar = y.sar := by
    show (settle _).sar = _
    rw [settle_quiet hquiet, alarmTrack_sar, hstand]
  rw [ht, ee]
  exact ⟨rfl, rfl, rfl, hburst⟩

/-! ## The answer of an operation in flight (03 R47, R57) -/

/-- What the answer of an operation alone in flight leaves of a state, on the native host path. -/
structure Answered (o : Oper) (f : Byte × List Byte) (s t : State) : Prop where
  quiet : Quiet t
  queue : t.host.queue = s.host.queue ++ [{ opReply o f.1 f.2 with ready := now s }]
  rest  : t = { s with host := t.host, sprue := t.sprue }

theorem settle_answered {s : State} {o : Oper} {f : Byte × List Byte} (ho : ops s = [o]) (he : s.sprue.early = [])
    (hh : s.sprue.held = []) (hd : s.pwr.deferred = []) (hi : o.interim = none) (hf : o.final = some f)
    (hr : o.replied = false) (hg : o.origin = .hostNative) (hn : flgNoReply o.flg = false) (hq : s.host.queue.length < 4)
    (hop : o.op ≠ .authChal ∧ o.op ≠ .logMark) : Answered o f s (settle s) := by
  have ho' : ops (alarmTrack s) = [o] := by rw [ops_alarmTrack, ho]
  have hroom : hasRoom (alarmTrack s) o.origin = true := hasRoom_of_length (by rwa [alarmTrack_queue]) _
  have hpump := pump_final ho' (by simpa using he) (by simpa using hh) hi hf hr (.inl (by simp [hg]))
    (by rw [hroom, Bool.or_true]) 31
  rw [suppressed_of_reply hn, hg] at hpump
  have eu := emit_hostNative o.peer (opReply o f.1 f.2) (alarmTrack s)
  generalize emit .hostNative o.peer false (opReply o f.1 f.2) (alarmTrack s) = u at hpump eu
  have hsprue : u.sprue = s.sprue := by rw [eu]; exact alarmTrack_sprue s
  have hdef : u.pwr.deferred = [] := by rw [eu]; show (alarmTrack s).pwr.deferred = []; rw [alarmTrack_pwr, hd]
  have hops : ops (freeOp o.id u) = [] := by
    rw [ops_freeOp, ops_congr (t := s) (by rw [hsprue]), ho]
    simp
  rw [settle_pump (by simp [ho, hop]), hpump, runDeferred_nil (s := freeOp o.id u) hdef]
  refine ⟨quiet_of_ops hops ?_ ?_ hdef, ?_, ?_⟩
  · rw [freeOp_eq, hsprue]; exact hh
  · rw [freeOp_eq, hsprue]; exact he
  · rw [freeOp_eq, eu, alarmTrack_queue, now, alarmTrack_tmr]
    rfl
  · rw [freeOp_eq, eu, alarmTrack_eq]

/-- An operation alone in flight that owes its reply comes to its end. -/
theorem settle_setFinal_answered {s : State} {slot : Fin 8} {o : Oper} (h : Runs s slot o) (hi : o.interim = none)
    (hr : o.replied = false) (hg : o.origin = .hostNative) (hn : flgNoReply o.flg = false) (hq : s.host.queue.length < 4)
    (hop : o.op ≠ .authChal ∧ o.op ≠ .logMark) (st : Byte) (b : List Byte) :
    Answered o (st, b) s (settle (setFinal o.id st b s)) := by
  have k := settle_answered (f := (st, b)) (ops_setFinal (ops_of_runs h) h.open_ st b) h.early h.held h.deferred hi rfl hr
    hg hn hq hop
  exact ⟨k.quiet, k.queue, k.rest⟩

/-! ## A Flare (R147, R158) -/

/-- The state in which the sample of a Flare is taken, at its completion edge. -/
def flareTaken (f : Flare) (q : List Flare) (code : Nat) (s : State) : State :=
  let done := flareStart s f + f.sample + 16
  let w := elapseTo (sarStamp s done) s
  takeOne f.chan f.gain f.acc f.trk (sarStamp w (flareStart s f + f.sample)) code
    (sarDone w.sar.castor done
      (polluxDone ⟨f.chan, f.gain, f.acc, f.trk⟩ done { w with sar := { w.sar with flares := q } }))

theorem flareTaken_converted (f : Flare) (q : List Flare) (code : Nat) (s : State) :
    let w := elapseTo (sarStamp s (flareStart s f + f.sample + 16)) s
    Converted { w with sar := { w.sar with flares := q } } (flareTaken f q code s) :=
  ((polluxDone_converted _ _ _).trans (sarDone_counted _ _ _).converted).trans (takeOne_converted _ _ _ _ _ _ _)

/-- The Flare at the head of the queue converts at its own edge and leaves the queue; its operation ends with the stamp of
the hold edge. -/
theorem flareConversion_eq {r : State} {f : Flare} {q : List Flare} (hf : r.sar.flares = f :: q) (code : Nat) :
    flareConversion code r = setFinal f.opId stOk
      (leBytes 8 (sarStamp (elapseTo (sarStamp r (flareStart r f + f.sample + 16)) r) (flareStart r f + f.sample)))
      (flareTaken f q code r) := by
  rw [flareConversion, hf]
  rfl

/-- Its reply carries that stamp. -/
theorem flareAnswered {r : State} {f : Flare} {q : List Flare} {slot : Fin 8} {o : Oper} (hf : r.sar.flares = f :: q)
    (h : Runs r slot o) (hid : o.id = f.opId) (hop : o.op = .flare) (hg : o.origin = .hostNative) (hi : o.interim = none)
    (hr : o.replied = false) (hn : flgNoReply o.flg = false) (hq : r.host.queue.length < 4) (code : Nat) :
    let w := elapseTo (sarStamp r (flareStart r f + f.sample + 16)) r
    let t := settle (flareConversion code r)
    Quiet t ∧ t.sar.flares = q ∧ t.host.queue = r.host.queue
      ++ [⟨o.id, 0x25, o.tag, stOk, o.arg, leBytes 8 (sarStamp w (flareStart r f + f.sample)), now w⟩] := by
  intro w t
  have kw : TimeKept r w := elapseTo_timeKept _ _
  have ky : Converted { w with sar := { w.sar with flares := q } } (flareTaken f q code r) := flareTaken_converted f q code r
  have hy : flareConversion code r =
      setFinal o.id stOk (leBytes 8 (sarStamp w (flareStart r f + f.sample))) (flareTaken f q code r) := by
    rw [hid]; exact flareConversion_eq hf code
  generalize flareTaken f q code r = y at ky hy
  clear_value w
  have hR : Runs y slot o := runs_congr h (ky.sprue.trans kw.sprue) fun hd => by
    rw [ky.pwr]; exact kw.deferred hd
  have hqy : y.host.queue = r.host.queue := by rw [ky.host, ← kw.host]
  have hny : now y = now w := ky.now
  have k := settle_setFinal_answered hR hi hr hg hn (by rw [hqy]; exact hq) (by simp [hop]) stOk
    (leBytes 8 (sarStamp w (flareStart r f + f.sample)))
  have ht : t = settle (setFinal o.id stOk (leBytes 8 (sarStamp w (flareStart r f + f.sample))) y) := congrArg settle hy
  have hreply : BitVec.ofNat 8 (opCode o.op) = 0x25 := by rw [hop]; rfl
  rw [ht]
  refine ⟨k.quiet, ?_, k.queue.trans ?_⟩
  · rw [k.rest]
    exact ky.flares
  · rw [hqy, hny, opReply, hreply]

/-! ## A calibration (R168) -/

/-- The edge at which the next conversion of a calibration completes. -/
def calEdge (s : State) : Nat :=
  sarStamp s (doneAt (settleFrom s s.sar.pollux (s.sar.calPair % 256) (s.sar.calPair / 256)
    (max s.sar.pollux.free s.sar.calAt)) s.sar.calTs)

/-- One conversion of a calibration adds its code. -/
theorem calConvert_converted {r : State} (hc : isShunt (r.sar.calPair % 256) = false) (code : Nat) :
    let w := elapseTo (calEdge r) r
    Converted { w with sar := { w.sar with calCnt := w.sar.calCnt + 1, calSum := w.sar.calSum + code } }
      (calConvert code r) := by
  intro w
  have hcode : (if isShunt (r.sar.calPair % 256) then (code : Int) - 2048 else code) = code := by
    rw [hc]
    rfl
  unfold calConvert
  dsimp only
  rw [hcode]
  exact (polluxDone_converted _ _ _).trans (sarDone_counted _ _ _).converted

theorem calConvert_acc (r : State) (code : Nat) : (calConvert code r).sar.acc = r.sar.acc := by
  have k := congrArg Sar.acc (elapseTo_timeKept (calEdge r) r).sar
  unfold calConvert
  rw [(sarDone_counted _ _ _).sar]
  exact k

theorem calibrationCounts {r : State} {slot : Fin 8} {o : Oper} (h : Runs r slot o) (hop : o.op = .calZero)
    (hr : o.replied = true) (hrun : r.sar.calRun = true) (hn : r.sar.calCnt < r.sar.calN) (h1 : 1 ≤ r.sar.calPair)
    (h16 : r.sar.calPair ≤ 16) (hf : r.sar.flares = []) (hp : r.sar.routPos = none) (hb : r.sar.burstOn = false)
    (code : Nat) :
    let t := settle (calConversions [code] r)
    ops t = [o] ∧ t.sar.calCnt = r.sar.calCnt + 1 ∧ t.sar.calSum = r.sar.calSum + code ∧ t.sar.acc = r.sar.acc := by
  intro t
  have hmay : calMay r = true := by
    simp [calMay, hrun, hn, polluxNeeded, hp, hb, flareBy, hf]
    omega
  have hshunt : isShunt (r.sar.calPair % 256) = false := by simp [isShunt]; omega
  have hone : calConversions [code] r = calConvert code r := by
    rw [calConversions, if_pos hmay]
    rfl
  have k := elapseTo_timeKept (calEdge r) r
  have kc := calConvert_converted hshunt code
  have hacc := calConvert_acc r code
  have hR : Runs (calConvert code r) slot o := runs_congr h (kc.sprue.trans k.sprue) fun hd => by
    rw [kc.pwr]; exact k.deferred hd
  have ho := ops_of_runs hR
  have ht : t = alarmTrack (calConvert code r) := by
    show settle _ = _
    rw [hone]
    exact Ongoing.settle_eq ⟨h.started, h.open_, .inl hr⟩ (by simp [hop]) (by simp [hop]) ho hR.early hR.held hR.deferred
  rw [ht, ops_alarmTrack, alarmTrack_sar]
  refine ⟨ho, ?_, ?_, hacc⟩
  · rw [kc.sar]
    exact congrArg (·.calCnt + 1) k.sar
  · rw [kc.sar]
    exact congrArg (·.calSum + (code : Int)) k.sar

/-! ## The Burst, Flares and calibrations -/

theorem burstAndFlare : BurstAndFlare := by
  intro dt code s hl hlode hmode r hrdy
  have hon : lodeOn r = true := by simpa [lodeOn] using hlode
  have hready : sarReady r = true := by simp [sarReady, hon, hrdy]
  have hact (codes : List (Nat × Nat)) : exec (.burstPass dt codes) s = .next (settle (burstPassAt true codes r)) := by
    rw [exec_burstPass, execBurstPass, act_live hl]
  have hconv (conv : Conv) (h0 : dt = 0) : exec (.sarConversion conv) s = .next (sarConversionAt conv r) := by
    rw [exec_sarConversion, execSarConversion, act_live hl, ← h0]
  have hmode' : r.pwr.mode = .run := hmode
  clear_value r
  refine ⟨fun p hp hs hb hr hpol hq => ?_, fun h hq => ?_, fun e p hb hp h0 hc hd hi hs hbon hleft hr hf hq hg hen => ?_,
    ?_, ?_⟩
  · obtain ⟨hmay, hfresh⟩ := burstMay_iff hp hs hon hb hr
    have hk : kindAt r.sar.burst p ≠ .pollux := by simpa [polluxSlot] using hpol
    have e := burstResumed_eq r
    have hrun : burstPassAt true [] r = burstResumed r := by
      rw [burstPassAt_resumes hmay hfresh hready, hp, seqRun_nil hk, burstStand_kept (by rw [e]; exact hp)]
    have hquiet : Quiet (burstResumed r) := by rw [e]; exact quiet_congr hq rfl rfl
    refine ⟨alarmTrack (burstResumed r), by rw [hact, hrun, settle_quiet hquiet], ?_⟩
    rw [alarmTrack_sar, alarmTrack_tmr, alarmTrack_par, e]
    exact ⟨rfl, rfl, rfl⟩
  · have hmay : burstMay r = false := by
      rcases h with h | h | h
      · simp [burstMay, h]
      · simp [burstMay, h]
      · simp [burstMay, h]
    rw [hact, burstPassAt_waits hmay, settle_quiet hq]
  · exact ⟨_, hact _, burstEnds hmode' hready hb hp h0 hc hd hi (burstMay_iff hp hs hon hbon hr) hleft hf hq hg hen⟩
  · intro f q slot o h0 hf h hid hop hg hi hrep hn hq start w
    refine ⟨settle (flareConversion code r), by rw [hconv _ h0, sarConversionAt, if_pos hready], ?_⟩
    exact flareAnswered hf h hid hop hg hi hrep hn hq code
  · intro slot o h0 h hop hrep hrun hcnt h1 h16 hf hp hb
    refine ⟨settle (calConversions [code] r), by rw [hconv _ h0, sarConversionAt, if_pos hready], ?_⟩
    exact calibrationCounts h hop hrep hrun hcnt h1 h16 hf hp hb code

/-- Settles O38: a pass, a Flare or a calibration moves by one conversion at its own edge, which changes the SAR block,
counted edges and the front end alone. -/
theorem sequencesRun : Obligations.SequencesRun := ⟨passesAndConversions, burstAndFlare⟩

end Sys2Proof.Machine

/-! SUPPORT. Glint: what a slice boundary and a closed after-window change of a bank, and what they leave of the other
(09_gauge_model.md R212 to R215, R220). -/

namespace Sys2Proof.Machine

/-! ## The rings, through the events of a bank (R212, R213) -/

/-- The events of a bank change the Glint block alone, and neither ring. -/
structure RingsKept (s t : State) : Prop where
  rest : t = { s with glint := t.glint }
  ring : ∀ b, ringOf t b = ringOf s b

theorem RingsKept.refl (s : State) : RingsKept s s := ⟨rfl, fun _ => rfl⟩

theorem RingsKept.trans {s t u : State} (h : RingsKept s t) (k : RingsKept t u) : RingsKept s u where
  rest := k.rest.trans (by rw [h.rest])
  ring := fun b => (k.ring b).trans (h.ring b)

theorem setOpen_ringsKept (b : Bank) (o : Option GlintOpen) (s : State) : RingsKept s (setOpen b o s) := by
  cases b <;> exact ⟨rfl, fun c => by cases c <;> rfl⟩

theorem glintSkip_ringsKept (b : Bank) (s : State) : RingsKept s (glintSkip b s) := by
  cases b <;> exact ⟨rfl, fun c => by cases c <;> rfl⟩

theorem glintForm_ringsKept (b : Bank) (s : State) : RingsKept s (glintForm b s) := by
  unfold glintForm
  split
  · exact .refl s
  · cases b <;> exact ⟨rfl, fun c => by cases c <;> rfl⟩

/-- The step detector takes note of a step, closes an event that has ended, and opens, cuts or skips one. -/
theorem glintDetect_ringsKept (b : Bank) (s : State) : RingsKept s (glintDetect b s) := by
  unfold glintDetect
  split
  · exact .refl s
  · extract_lets glint noted closed z
    have hn : RingsKept s noted := by
      cases b <;> exact ⟨rfl, fun c => by cases c <;> rfl⟩
    have hcl : RingsKept noted closed := by
      unfold closed
      split
      · split_ifs
        · exact glintForm_ringsKept _ _
        · exact .refl _
      · exact .refl _
    refine (hn.trans hcl).trans ?_
    split
    · exact (setOpen_ringsKept _ _ _).trans (glintSkip_ringsKept _ _)
    · split
      · exact setOpen_ringsKept _ _ _
      · exact glintSkip_ringsKept _ _

/-! ## A slice boundary (R212) -/

theorem ringOf_setRing_same (b : Bank) (l : List Slice) (s : State) : ringOf (setRing b l s) b = l := by
  cases b <;> rfl

theorem ringOf_setRing_ne {b c : Bank} (h : c ≠ b) (l : List Slice) (s : State) : ringOf (setRing b l s) c = ringOf s c :=
  match b, c, h with
  | .a, .b, _ => rfl
  | .b, .a, _ => rfl

theorem setRing_eq (b : Bank) (l : List Slice) (s : State) : setRing b l s = { s with glint := (setRing b l s).glint } := by
  cases b <;> rfl

/-- A bank at a boundary takes its slice into its own ring; all but the Glint block stands. -/
structure SliceTaken (e : Nat) (b : Bank) (s t : State) : Prop where
  rest  : t = { s with glint := t.glint }
  own   : ringOf t b = (sliceOf s b e :: ringOf s b).take 256
  other : ∀ c, c ≠ b → ringOf t c = ringOf s c

theorem glintBank_sliceTaken (e : Nat) (s : State) (b : Bank) : SliceTaken e b s (glintBank e s b) := by
  unfold glintBank
  extract_lets x taken fed
  have k : RingsKept taken (glintDetect b fed) := (setOpen_ringsKept _ _ _).trans (glintDetect_ringsKept _ _)
  exact ⟨k.rest.trans (by rw [show taken = _ from setRing_eq _ _ _]),
    (k.ring b).trans (ringOf_setRing_same _ _ _), fun c hc => (k.ring c).trans (ringOf_setRing_ne hc _ _)⟩

theorem bbPresent_iff {s : State} : bbPresent s = true ↔ prm s 0x0205 = 1 := beq_iff_eq

theorem SliceTaken.bbPresent {e : Nat} {b : Bank} {s t : State} (h : SliceTaken e b s t) : bbPresent t = bbPresent s := by
  rw [h.rest]
  rfl

theorem SliceTaken.sliceOf {e : Nat} {b : Bank} {s t : State} (h : SliceTaken e b s t) (c : Bank) :
    sliceOf t c e = sliceOf s c e := by
  rw [h.rest]
  rfl

/-- Both banks at a boundary, Bank B where it is present. -/
def slicesTaken (e : Nat) (s : State) : State :=
  if bbPresent (glintBank e s .a) then glintBank e (glintBank e s .a) .b else glintBank e s .a

theorem slicesTaken_rings (e : Nat) (s : State) :
    slicesTaken e s = { s with glint := (slicesTaken e s).glint } ∧
    (slicesTaken e s).glint.ringA = (sliceOf s .a e :: s.glint.ringA).take 256 ∧
    (slicesTaken e s).glint.ringB =
      if prm s 0x0205 = 1 then (sliceOf s .b e :: s.glint.ringB).take 256 else s.glint.ringB := by
  have ha := glintBank_sliceTaken e s .a
  have hb := glintBank_sliceTaken e (glintBank e s .a) .b
  have hringB : ringOf (glintBank e s .a) .b = s.glint.ringB := ha.other .b nofun
  by_cases h : prm s 0x0205 = 1
  · have hp : slicesTaken e s = glintBank e (glintBank e s .a) .b := if_pos (by rwa [ha.bbPresent, bbPresent_iff])
    rw [hp, if_pos h]
    refine ⟨hb.rest.trans (by rw [ha.rest]), (hb.other .a nofun).trans ha.own, hb.own.trans ?_⟩
    rw [ha.sliceOf, hringB]
  · have hp : slicesTaken e s = glintBank e s .a := if_neg (by rwa [ha.bbPresent, bbPresent_iff])
    rw [hp, if_neg h]
    exact ⟨ha.rest, ha.own, hringB⟩

theorem glintSliceAt_eq {s : State} {e : Nat} (h : s.glint.sliceAt = some e) :
    let u := slicesTaken e s
    glintSliceAt s = { glintClear u with glint := { u.glint with sliceAt := some (sliceAfter (max e (now u))) } } := by
  unfold glintSliceAt slicesTaken
  rw [h]
  rfl

theorem exec_glintSlice (s : State) : exec .glintSlice s = execGlintSlice s := by rfl

theorem glintSlice_taken {s : State} {e : Nat} (hl : live s = true) (hm : s.pwr.mode = .run) (hg : s.glint.on = true)
    (hr : tmrRuns s = true) (he : s.glint.sliceAt = some e) :
    let w := elapseTo e s
    ∃ t, exec .glintSlice s = .next t ∧
      t.glint.ringA = (sliceOf w .a e :: w.glint.ringA).take 256 ∧
      t.glint.ringB = (if prm w 0x0205 = 1 then (sliceOf w .b e :: w.glint.ringB).take 256 else w.glint.ringB) ∧
      t.glint.sliceAt = some ((max e (now w) / 400 + 1) * 400) ∧
      (∀ i : Fin 32, t.sar.acc[i] = (if 24 ≤ i.val ∧ i.val ≤ 27 then Acc.empty else w.sar.acc[i]) ∧
        t.sar.trk[i] = if i.val = 24 ∨ i.val = 26 then Trk.empty else w.sar.trk[i]) ∧
      t = { w with glint := t.glint, sar := { w.sar with acc := t.sar.acc, trk := t.sar.trk } } := by
  intro w
  have hw : w.glint.sliceAt = some e := by rw [(elapseTo_passed hm).glint, he]
  obtain ⟨hrest, hA, hB⟩ := slicesTaken_rings e w
  refine ⟨glintSliceAt w, ?_, ?_⟩
  · rw [exec_glintSlice, execGlintSlice, actAt_due (t := e) hl (by simp [sliceDue, hg, hr, he])]
  · rw [glintSliceAt_eq hw]
    have hsar : (slicesTaken e w).sar = w.sar := by rw [hrest]
    have hnow : now (slicesTaken e w) = now w := by rw [hrest]; rfl
    refine ⟨hA, hB, by rw [hnow]; rfl, fun i => ⟨?_, ?_⟩, ?_⟩
    · simp [glintClear, hsar]
    · simp [glintClear, hsar]
    · rw [hrest]
      rfl

/-! ## A closed after-window (R214, R215) -/

theorem anySegment_eq (x y z : Bool) : (x || y || z) = decide (bit x + 2 * bit y + 4 * bit z ≠ 0) := by
  revert x y z
  decide

theorem exec_glintEvent (dt : Nat) (b : Bank) (s : State) : exec (.glintEvent dt b) s = execGlintEvent dt b s := by rfl

theorem execGlintEvent_closed {dt : Nat} {b : Bank} {s : State} {o : GlintOpen} (hl : live s = true)
    (hr : tmrRuns (elapse dt s) = true) (ho : openOf (elapse dt s) b = some o) (he : o.ended ≠ none) :
    execGlintEvent dt b s = .next (glintForm b (elapse dt s)) := by
  have hc : eventClosed b (elapse dt s) = true := by simpa [eventClosed, ho, Option.isSome_iff_ne_none] using he
  rw [execGlintEvent, act_live hl, hc, hr]
  rfl

theorem execGlintEvent_runs {dt : Nat} {b : Bank} {s : State} {o : GlintOpen} (hl : live s = true)
    (ho : openOf (elapse dt s) b = some o) (he : o.ended = none) : execGlintEvent dt b s = .next (elapse dt s) := by
  have hc : eventClosed b (elapse dt s) = false := by simp [eventClosed, ho, he]
  rw [execGlintEvent, act_live hl, hc]
  rfl

/-- Settles O41: a slice goes into the ring of its own bank, and an event into the list of its own bank, each by a change of the
Glint block that leaves the other bank's part. -/
theorem glintSlicesAndEvents : Obligations.GlintSlicesAndEvents := by
  unfold Obligations.GlintSlicesAndEvents
  intro s hl
  refine ⟨fun e hm hg hlode hhalt he => ?_, fun hg => ?_, ?_⟩
  · exact glintSlice_taken hl hm hg (tmrRuns_iff.2 ⟨hlode, hhalt⟩) he
  · rw [exec_glintSlice, execGlintSlice, actAt, if_pos hl]
    simp [sliceDue, hg]
  · intro dt b c o
    dsimp only
    intro hr ho hc
    refine ⟨fun he => ?_, fun he => ?_⟩
    · rw [exec_glintEvent, execGlintEvent_closed hl hr ho he]
      match b, c, hc with
      | .a, .b, _ | .b, .a, _ =>
        rw [glintForm, ho]
        exact ⟨_, _, rfl, rfl, rfl, rfl, rfl, anySegment_eq _ _ _, rfl, rfl, rfl, rfl, rfl⟩
    · rw [exec_glintEvent, execGlintEvent_runs hl ho he]

end Sys2Proof.Machine

/-! SUPPORT. The model step: what follows its accounting leaves the charge of Bank B, and a step that enters Cast puts an adopted
block in force (09_gauge_model.md R193, R195; 04_staged_start.md R96; 12_criuc_link.md R301). -/

namespace Sys2Proof.Machine

/-! ## What follows the accounting of a step (09 R193, 04 R96) -/

/-- What the parts of a step that follow its accounting leave: the time, the stage and the instant of the start, the link, what is
in flight, and the charge counted for Bank B. -/
structure ChargeKept (s t : State) : Prop where
  base      : t.tmr.base = s.tmr.base
  stage     : t.start.stage = s.start.stage
  startBase : t.start.startBase = s.start.startBase
  link      : t.link = s.link
  slots     : t.sprue.slots = s.sprue.slots
  held      : t.sprue.held = s.sprue.held
  early     : t.sprue.early = s.sprue.early
  deferred  : t.pwr.deferred = s.pwr.deferred
  charge    : t.gauge.b.q = s.gauge.b.q

theorem ChargeKept.of_parts {s t : State} (hb : t.tmr.base = s.tmr.base) (hst : t.start = s.start) (hl : t.link = s.link)
    (hsp : t.sprue = s.sprue) (hp : t.pwr = s.pwr) (hq : t.gauge.b.q = s.gauge.b.q) : ChargeKept s t :=
  ⟨hb, by rw [hst], by rw [hst], hl, by rw [hsp], by rw [hsp], by rw [hsp], by rw [hp], hq⟩

theorem ChargeKept.refl (s : State) : ChargeKept s s := .of_parts rfl rfl rfl rfl rfl rfl

theorem ChargeKept.trans {s t u : State} (h : ChargeKept s t) (k : ChargeKept t u) : ChargeKept s u where
  base := k.base.trans h.base
  stage := k.stage.trans h.stage
  startBase := k.startBase.trans h.startBase
  link := k.link.trans h.link
  slots := k.slots.trans h.slots
  held := k.held.trans h.held
  early := k.early.trans h.early
  deferred := k.deferred.trans h.deferred
  charge := k.charge.trans h.charge

theorem ChargeKept.foldl {α : Type} {f : State → α → State} (h : ∀ s x, ChargeKept s (f s x)) (l : List α) (s : State) :
    ChargeKept s (l.foldl f s) := by
  induction l generalizing s with
  | nil => exact .refl s
  | cons x l ih => exact (h s x).trans (ih _)

theorem ChargeKept.quiet {s t : State} (h : ChargeKept s t) (q : Quiet s) : Quiet t where
  slots := by rw [h.slots]; exact q.slots
  held := h.held.trans q.held
  early := h.early.trans q.early
  deferred := h.deferred.trans q.deferred

theorem commitInternal_chargeKept (l : List Rec) (s : State) : ChargeKept s (commitInternal l s) := by
  rw [commitInternal_eq]
  exact .of_parts rfl rfl rfl rfl rfl rfl

theorem endPulse_chargeKept (s : State) : ChargeKept s (endPulse s) := by
  rw [endPulse_eq]
  exact .of_parts rfl rfl rfl rfl rfl rfl

theorem setAcct_chargeKept {b : Bank} {x : Acct} {s : State} (h : x.q = (acctOf b s).q) : ChargeKept s (setAcct b x s) := by
  cases b with
  | a => exact .of_parts rfl rfl rfl rfl rfl rfl
  | b => exact .of_parts rfl rfl rfl rfl rfl h

/-! ## Orders 4 to 8 (R193) -/

theorem clearFirmware_chargeKept (s : State) : ChargeKept s (clearFirmware s) := .of_parts rfl rfl rfl rfl rfl rfl

theorem stepTemps_chargeKept (acc : Nat → Acc) (s : State) : ChargeKept s (stepTemps acc s) :=
  .of_parts rfl rfl rfl rfl rfl rfl

theorem stepRest_chargeKept (c s : State) : ChargeKept s (stepRest c s) := by
  unfold stepRest
  split_ifs <;> exact .of_parts rfl rfl rfl rfl rfl rfl

theorem takeEvent_chargeKept (b : Bank) (s : State) (g : GlintRec) : ChargeKept s (takeEvent b s g) := by
  cases b <;> exact .of_parts rfl rfl rfl rfl rfl rfl

theorem stepGlint_chargeKept (s : State) : ChargeKept s (stepGlint s) := by
  have k := (ChargeKept.foldl (takeEvent_chargeKept .a) s.glint.closedA s).trans
    (ChargeKept.foldl (takeEvent_chargeKept .b) s.glint.closedB _)
  exact k.trans (.of_parts rfl rfl rfl rfl rfl rfl)

theorem stepCells_chargeKept (c : State) (acc : Nat → Acc) (s : State) : ChargeKept s (stepCells c acc s) :=
  .of_parts rfl rfl rfl rfl rfl rfl

theorem stepBankB_chargeKept (c s : State) : ChargeKept s (stepBankB c s) := by
  unfold stepBankB
  split_ifs <;> exact .of_parts rfl rfl rfl rfl rfl rfl

theorem cycleStep_q (s : State) (fcc mAh : Rat) (x : Acct) : (cycleStep s fcc mAh x).q = x.q := by
  unfold cycleStep
  dsimp only
  split_ifs <;> rfl

theorem stepCycles_chargeKept (dt : Rat) (s : State) : ChargeKept s (stepCycles dt s) := by
  unfold stepCycles
  extract_lets mAh t
  have ha : ChargeKept s t := setAcct_chargeKept (cycleStep_q _ _ _ _)
  split_ifs
  · exact ha.trans (setAcct_chargeKept (cycleStep_q _ _ _ _))
  · exact ha

theorem stepOffPower_chargeKept (s : State) : ChargeKept s (stepOffPower s) := by
  unfold stepOffPower
  extract_lets a t x
  have ha : ChargeKept s t := by
    unfold t
    split_ifs
    · exact setAcct_chargeKept rfl
    · exact .refl s
  refine ha.trans ?_
  split_ifs
  · split <;> exact .of_parts rfl rfl rfl rfl rfl rfl
  · exact .refl t

theorem annealNote_chargeKept (s : State) : ChargeKept s (annealNote s) := by
  unfold annealNote
  split <;> exact .of_parts rfl rfl rfl rfl rfl rfl

theorem annealB_chargeKept (c s : State) : ChargeKept s (annealB c s) := by
  unfold annealB
  dsimp only
  split_ifs <;> exact .of_parts rfl rfl rfl rfl rfl rfl

theorem stepModel_chargeKept (c : State) : ChargeKept (stepCharge c) (stepModel c) := by
  unfold stepModel
  extract_lets acc a1 a2 a3 a4
  have h1 : ChargeKept (stepCharge c) a1 := (clearFirmware_chargeKept _).trans (stepTemps_chargeKept acc _)
  have h2 : ChargeKept a1 a2 := (stepRest_chargeKept c a1).trans (stepGlint_chargeKept _)
  have h3 : ChargeKept a2 a3 :=
    (((stepCells_chargeKept c acc a2).trans (stepBankB_chargeKept _ _)).trans (stepCycles_chargeKept _ _)).trans
      (stepOffPower_chargeKept _)
  have h4 : ChargeKept a3 a4 := (annealNote_chargeKept a3).trans (annealB_chargeKept c _)
  exact (((h1.trans h2).trans h3).trans h4).trans (.of_parts rfl rfl rfl rfl rfl rfl)

/-! ## Order 9 and the entry to Cast (R193; 04 R96) -/

theorem dpasGuard_chargeKept (s : State) : ChargeKept s (dpasGuard s) := by
  unfold dpasGuard
  split_ifs
  · exact endPulse_chargeKept s
  · exact .refl s

theorem stepBalance_chargeKept (c s : State) : ChargeKept s (stepBalance c s) := by
  unfold stepBalance
  exact .of_parts rfl rfl rfl rfl rfl rfl

theorem publish_chargeKept (s : State) : ChargeKept s (publish s) := .of_parts rfl rfl rfl rfl rfl rfl

theorem binStep_chargeKept (s : State) : ChargeKept s (binStep s) := .of_parts rfl rfl rfl rfl rfl rfl

theorem stepEnd_chargeKept (c s : State) : ChargeKept s (stepEnd c s) := by
  have h : ChargeKept s { s with start := { s.start with estConf := sigmaBelow s (castSigma s) false } } :=
    ⟨rfl, rfl, rfl, rfl, rfl, rfl, rfl, rfl, rfl⟩
  exact (((h.trans (dpasGuard_chargeKept _)).trans (stepBalance_chargeKept c _)).trans (publish_chargeKept _)).trans
    (binStep_chargeKept _)

theorem shedLines_chargeKept (s : State) : ChargeKept s (shedLines s) := by
  unfold shedLines
  split_ifs <;> exact .of_parts rfl rfl rfl rfl rfl rfl

theorem shedMove_chargeKept (new : Nat) (s : State) : ChargeKept s (shedMove new s) := by
  unfold shedMove
  split_ifs
  · exact shedLines_chargeKept s
  · extract_lets t
    have h : ChargeKept s { s with pol := { s.pol with computed := new, holdAt := now s } } :=
      .of_parts rfl rfl rfl rfl rfl rfl
    exact (h.trans (shedLines_chargeKept _)).trans (commitInternal_chargeKept _ _)

theorem captureTallies_chargeKept (bits : Bits) (s : State) : ChargeKept s (captureTallies bits s) := by
  unfold captureTallies
  split_ifs <;> exact .of_parts rfl rfl rfl rfl rfl rfl

theorem drawBits_chargeKept (s : State) : ChargeKept s (drawBits s).2 := by
  unfold drawBits drawNat
  exact .of_parts rfl rfl rfl rfl rfl rfl

theorem internalHold_chargeKept (secs : Nat) (s : State) : ChargeKept s (internalHold secs s) :=
  ⟨rfl, rfl, rfl, rfl, rfl, rfl, rfl, rfl, rfl⟩

theorem dpasStart_chargeKept (s : State) : ChargeKept s (dpasStart s) := by
  unfold dpasStart
  extract_lets r taken day pol t c set c3 tmr u
  have hu : ChargeKept taken u := .of_parts rfl rfl rfl rfl rfl rfl
  exact (((drawBits_chargeKept s).trans (captureTallies_chargeKept _ _)).trans hu).trans (commitInternal_chargeKept _ _)

theorem dpasTimeout_chargeKept (s : State) : ChargeKept s (dpasTimeout s) := by
  unfold dpasTimeout
  split_ifs
  · exact endPulse_chargeKept s
  · exact .refl s

theorem dpasEval_chargeKept (s : State) : ChargeKept s (dpasEval s) := by
  unfold dpasEval
  extract_lets u t
  have ht : ChargeKept u t := internalHold_chargeKept _ u
  refine (dpasTimeout_chargeKept s).trans ?_
  split_ifs
  · exact ht.trans (dpasStart_chargeKept t)
  · exact ht
  · exact .refl _

theorem almEval_chargeKept (s : State) : ChargeKept s (almEval s) := by
  unfold almEval
  extract_lets s1 p valid alm s2 basis s3 snap flags r
  have h2 : ChargeKept s s2 := .of_parts rfl rfl rfl rfl rfl rfl
  have h3 : ChargeKept s2 s3 := (shedMove_chargeKept _ _).trans (dpasEval_chargeKept _)
  exact (h2.trans h3).trans (.of_parts rfl rfl rfl rfl rfl rfl)

/-- At the end of a step 120 s after the start the part enters Cast with its first evaluation. -/
theorem castCheck_late {s : State} (hp : s.start.stage = .pour) (ht : s.start.startBase + secTicks 120 ≤ now s) :
    let t := almEval s
    castCheck s = armFw 5 (now t + secTicks (prm t 0x0601)) 0x13 { t with start := { t.start with stage := .cast } } := by
  simp [castCheck, hp, ht]

theorem castCheck_entersCast {c s : State} (k : ChargeKept c s) (hq : Quiet c) (hp : c.start.stage = .pour)
    (ht : c.start.startBase + secTicks 120 ≤ now c) :
    let t := retain (settle (castCheck s))
    t.link = c.link ∧ t.start.stage = .cast ∧ t.gauge.b.q = c.gauge.b.q := by
  have ke : ChargeKept c (almEval s) := k.trans (almEval_chargeKept s)
  have hnow : now s = now c := k.base
  have hcast := castCheck_late (s := s) (k.stage.trans hp) (by rwa [hnow, k.startBase])
  generalize almEval s = u at ke hcast
  have hquiet : Quiet (castCheck s) := by
    rw [hcast]
    exact quiet_congr (ke.quiet hq) rfl rfl
  rw [settle_quiet hquiet, retain_eq, alarmTrack_eq, hcast]
  exact ⟨ke.link, rfl, ke.charge⟩

theorem modelStep_eq {bits : Bits} {s c : State} (hc : stepBegin bits (fwTake 4 s) = c) :
    modelStep bits s = retain (settle (castCheck (stepEnd c (stepModel c)))) := by
  rw [← hc]
  rfl

/-- A step 120 s after the start ends in Cast, with the link of its beginning and the charge of its accounting. -/
theorem modelStep_entersCast {bits : Bits} {s c : State} (hc : stepBegin bits (fwTake 4 s) = c) (hq : Quiet c)
    (hp : c.start.stage = .pour) (ht : c.start.startBase + secTicks 120 ≤ now c) :
    (modelStep bits s).link = c.link ∧ (modelStep bits s).start.stage = .cast ∧
      (modelStep bits s).gauge.b.q = (stepCharge c).gauge.b.q := by
  have hcharged : Quiet (stepCharge c) := ⟨hq.slots, hq.held, hq.early, hq.deferred⟩
  rw [modelStep_eq hc]
  exact castCheck_entersCast ((stepModel_chargeKept c).trans (stepEnd_chargeKept c _)) hcharged hp ht

/-! ## A block in force (12 R301) -/

theorem prm_covered {s : State} {id v : Nat} (h : cfgValue s id = some v) : prm s id = v := by simp [prm, h]

/-- A Star in Pour, 120 s after its start, whose step is due and whose adopted block takes Bank B away: the block is in force
from Cast on. -/
def listedInPour : State :=
  { State.reset with
    clk := { State.reset.clk with lode := .on }
    start := { State.reset.start with stage := .pour }
    tmr := { State.reset.tmr with
      base := 983040000, cmp := vset State.reset.tmr.cmp 4 { Cmp.reset with fired := true } }
    cqb := { State.reset.cqb with modRun := true }
    link := { State.reset.link with
      role := .member, cfg := some [1, 0, 0, 0, 1, 0, 0, 0, 0x05, 0x02, 0, 0, 0, 0] } }

theorem exec_modelStep (dt : Nat) (bits : Bits) (s : State) : exec (.modelStep dt bits) s = execModelStep dt bits s := by rfl

/-- Refutes O40: the step counts the charge of Bank B by BB_PRESENT as it stands at the accounting, the statement by its value
after the step, and a step that enters Cast puts an adopted block in force. With a block that covers BB_PRESENT, which R299
keeps out of every block but nothing in the statement excludes, 9 counts enter the account and the statement allows none. -/
theorem not_modelSteps : ¬ Obligations.ModelSteps := by
  unfold Obligations.ModelSteps
  intro h
  let bits : Bits := ⟨0, 9, 0, 0⟩
  have he : elapse 0 listedInPour = listedInPour := by rfl
  have hl : live listedInPour = true := rfl
  have hq : Quiet listedInPour := ⟨by decide, rfl, rfl, rfl⟩
  obtain ⟨⟨-, hdue⟩, -⟩ := h 0 bits listedInPour hl
  rw [he] at hdue
  obtain ⟨t, ht, -, -, -, -, -, -, hcharge, -⟩ := hdue (by decide) hq
  rw [exec_modelStep, execModelStep, act_live hl, he, if_pos (by decide)] at ht
  injection ht with ht
  obtain ⟨hlink, hstage, hcounted⟩ := modelStep_entersCast (bits := bits) (s := listedInPour) rfl
    ⟨by decide, rfl, rfl, rfl⟩ rfl (by decide)
  rw [ht] at hlink hstage hcounted
  have habsent : prm t 0x0205 = 0 := prm_covered (by
    unfold cfgValue cfgActive
    rw [hlink, hstage]
    rfl)
  have hnine : (stepCharge (stepBegin bits (fwTake 4 listedInPour))).gauge.b.q = 9 := by rfl
  rw [hcounted, hnine, habsent, if_neg (by decide)] at hcharge
  exact absurd hcharge (by decide)

end Sys2Proof.Machine

/-! SUPPORT. The requests of the Almanac and of the policy engine before Cast: what the class of the sea, the duty table and the
SHED lines change (10_almanac_policy.md R225, R229 to R231, R241; 09_gauge_model.md R216). -/

namespace Sys2Proof.Machine

/-! ## Firmware channels (08 R191; 09 R216) -/

/-- What a change of a firmware compare channel leaves: the rest of the part, and every other channel. -/
structure ChannelOnly (n : Fin 8) (s t : State) : Prop where
  rest  : t = { s with tmr := { s.tmr with cmp := t.tmr.cmp } }
  other : ∀ i : Fin 8, i ≠ n → t.tmr.cmp[i] = s.tmr.cmp[i]

theorem armFw_channelOnly (n : Fin 8) (target : Nat) (mode : BitVec 8) (s : State) :
    ChannelOnly n s (armFw n target mode s) :=
  ⟨rfl, fun _ h => vset_fin_ne _ h _⟩

theorem disarmFw_channelOnly (n : Fin 8) (s : State) : ChannelOnly n s (disarmFw n s) :=
  ⟨rfl, fun _ h => vset_fin_ne _ h _⟩

theorem fwTake_fired (n : Fin 8) (s : State) : (fwTake n s).tmr.cmp[n].fired = false :=
  congrArg Cmp.fired (vset_fin_self _ n _)

theorem disarmFw_mode (n : Fin 8) (s : State) : (disarmFw n s).tmr.cmp[n].mode = s.tmr.cmp[n].mode &&& 0xFE#8 := by
  have h : (disarmFw n s).tmr.cmp[n].mode = (vget s.tmr.cmp n Cmp.reset).mode &&& 0xFE#8 :=
    congrArg Cmp.mode (vset_fin_self _ n _)
  rw [h, vget_fin]

/-- The milliseconds from now to the lead of each declared duty. -/
def leadWaits (s : State) : List Rat :=
  (s.alm.duties.flatMap dutyStarts).map fun t =>
    let w := 1000 * (t : Rat) - (prm s 0x0527 : Rat) - daySec s * 1000
    if 0 < w then w else w + 86400000

theorem armLead_eq (s : State) : armLead s =
    if s.glint.on && !(leadWaits s).isEmpty then
      armFw 6 (now s + (ratMinimum (leadWaits s) * 8192).ceil.toNat) 0x11 s
    else disarmFw 6 s := rfl

theorem armLead_channelOnly (s : State) : ChannelOnly 6 s (armLead s) := by
  rw [armLead_eq]
  split_ifs
  · exact armFw_channelOnly 6 _ _ s
  · exact disarmFw_channelOnly 6 s

/-- What is armed rests neither on the ports nor on the sequencer. -/
theorem armLead_ports (s : State) (p : Pwr) (h : HostPort) (q : Sprue) :
    armLead { s with pwr := p, host := h, sprue := q } = { armLead s with pwr := p, host := h, sprue := q } := by
  have hw : leadWaits { s with pwr := p, host := h, sprue := q } = leadWaits s := rfl
  rw [armLead_eq, armLead_eq, hw]
  cases s.glint.on && !(leadWaits s).isEmpty <;> rfl

/-- Without a declared duty Glint has nothing to arm on. -/
theorem armLead_noDuties {s : State} (h : s.alm.duties = []) : armLead s = disarmFw 6 s := by
  simp [armLead_eq, leadWaits, h]

/-! ## The SHED lines (R241) -/

theorem shedLines_eq (s : State) :
    shedLines s = { s with pol := { s.pol with
      pins := shedLevel s
      pinsOld := if s.pol.pins ≠ shedLevel s then shedPins s else s.pol.pinsOld
      pinsAt := if s.pol.pins ≠ shedLevel s then (now s / 2000 + 1) * 2000 else s.pol.pinsAt } } := by
  unfold shedLines
  by_cases h : s.pol.pins = shedLevel s
  · simp [← h]
  · simp [h]

/-! ## The operations before Cast (R225) -/

theorem atLeast_cast_of_pour {s : State} (h : s.start.stage = .pour) : atLeast s .cast = false := by
  simp [atLeast, h, Stage.code]

/-- Before Cast no evaluation follows an opcode. -/
theorem almEvalNow_pour {s : State} (h : s.start.stage = .pour) : almEvalNow s = s := by
  simp [almEvalNow, atLeast_cast_of_pour h]

theorem runSeaState_pour {s : State} (h : s.start.stage = .pour) (o : Oper) :
    runSeaState o s = (okWith [], { s with alm := { (seaSet o.argN false s).alm with seaAt := now s } }) := by
  rw [runSeaState, almEvalNow_pour (by exact h)]
  rfl

/-- The part with a declared duty table that has just been loaded. -/
def dutiesLoaded (l : List Duty) (s : State) : State :=
  { s with alm := { s.alm with duties := l, dutyAt := now s, dutyStale := false } }

theorem runSchedLoad_pour {s : State} {o : Oper} {l : List Duty} (h : s.start.stage = .pour) (hd : dutiesOf o = some l) :
    runSchedLoad o s = (okWith [], armLead (dutiesLoaded l s)) := by
  have hp : (armLead (dutiesLoaded l s)).start.stage = .pour := by
    rw [(armLead_channelOnly _).rest]
    exact h
  rw [runSchedLoad, hd]
  exact congrArg _ (almEvalNow_pour hp)

theorem runShedSet_pour {s : State} (h : s.start.stage = .pour) (o : Oper) :
    runShedSet o s =
      (okWith [BitVec.ofNat 8 s.pol.computed, BitVec.ofNat 8 (max s.pol.computed o.argN)],
        shedLines { s with pol := { s.pol with floor := o.argN } }) := by
  rw [runShedSet]
  dsimp only
  rw [almEvalNow_pour (by rw [shedLines_eq]; exact h), shedLines_eq]
  rfl

/-- Settles O6: before Cast each request is one change of the Almanac, of compare channel 6 or of the policy, which touches
neither its port nor the sequencer. -/
theorem policyRequestsAct : Obligations.PolicyRequestsAct := by
  unfold Obligations.PolicyRequestsAct
  intro dt p s A hp r n
  refine ⟨fun hc => ?_, fun hc l hl => ?_, fun hc => ?_⟩
  · refine ⟨{ r with alm := { (seaSet n false r).alm with seaAt := now r } }, ?_, rfl, rfl, rfl, rfl, rfl, rfl, rfl⟩
    refine answers_of_effect rfl A (.inr rfl) hc (fun e i h v => ?_) rfl rfl rfl
    exact runSeaState_pour (s := seen .seaState r e i h v) hp _
  · have k := armLead_channelOnly (dutiesLoaded l r)
    refine ⟨armLead (dutiesLoaded l r), ?_, ?_⟩
    · refine answers_of_effect rfl A (.inr rfl) hc (fun e i h v => ?_) ?_ ?_ ?_
      · refine (runSchedLoad_pour (s := seen .schedLoad r e i h v) hp hl).trans ?_
        exact congrArg _ (armLead_ports (dutiesLoaded l r) _ _ _)
      · rw [k.rest]
        rfl
      · rw [k.rest]
        rfl
      · rw [k.rest]
        rfl
    · rw [k.rest]
      exact ⟨rfl, rfl, rfl, k.other⟩
  · refine answers_of_effect rfl A (.inr rfl) hc (fun e i h v => ?_) rfl rfl rfl
    refine (runShedSet_pour (s := seen .shedSet r e i h v) hp _).trans ?_
    rw [shedLines_eq]
    simp only [decide_eq_true_eq]
    rfl

end Sys2Proof.Machine

/-! SUPPORT. The evaluation of the Almanac and the depassivation pulse: what the ladder and a pulse change, and what they leave
(10_almanac_policy.md R225, R235, R241, R242, R246, R247). -/

namespace Sys2Proof.Machine

/-! ## What depassivation leaves of the ladder (R246, R247) -/

/-- What the start and the end of a pulse leave alone: the ladder and its lines, the compare channels, and the blocks that no
evaluation touches. -/
structure LadderKept (s t : State) : Prop where
  computed : t.pol.computed = s.pol.computed
  floor    : t.pol.floor = s.pol.floor
  holdAt   : t.pol.holdAt = s.pol.holdAt
  pins     : t.pol.pins = s.pol.pins
  pinsOld  : t.pol.pinsOld = s.pol.pinsOld
  pinsAt   : t.pol.pinsAt = s.pol.pinsAt
  cmp      : t.tmr.cmp = s.tmr.cmp
  gauge    : t.gauge = s.gauge
  sar      : t.sar = s.sar
  sec      : t.sec = s.sec

theorem LadderKept.refl (s : State) : LadderKept s s := ⟨rfl, rfl, rfl, rfl, rfl, rfl, rfl, rfl, rfl, rfl⟩

theorem LadderKept.trans {s t u : State} (h : LadderKept s t) (k : LadderKept t u) : LadderKept s u where
  computed := k.computed.trans h.computed
  floor := k.floor.trans h.floor
  holdAt := k.holdAt.trans h.holdAt
  pins := k.pins.trans h.pins
  pinsOld := k.pinsOld.trans h.pinsOld
  pinsAt := k.pinsAt.trans h.pinsAt
  cmp := k.cmp.trans h.cmp
  gauge := k.gauge.trans h.gauge
  sar := k.sar.trans h.sar
  sec := k.sec.trans h.sec

theorem commitInternal_ladderKept (l : List Rec) (s : State) : LadderKept s (commitInternal l s) := by
  rw [commitInternal_eq]
  exact ⟨rfl, rfl, rfl, rfl, rfl, rfl, rfl, rfl, rfl, rfl⟩

theorem endPulse_ladderKept (s : State) : LadderKept s (endPulse s) := by
  have hp : LadderKept s (pulseOver s) := by
    by_cases h : s.pol.dpas = true
    · rw [pulseOver, if_pos h]
      exact ⟨rfl, rfl, rfl, rfl, rfl, rfl, rfl, rfl, rfl, rfl⟩
    · rw [pulseOver, if_neg h]
      exact .refl s
  unfold endPulse
  split_ifs
  · exact hp.trans (commitInternal_ladderKept _ _)
  · exact .refl s

/-- A capture of the tallies changes the integrators and the stamps of the capture. -/
theorem captureTallies_eq (bits : Bits) (s : State) :
    captureTallies bits s = { s with
      cqa := (captureTallies bits s).cqa, cqb := (captureTallies bits s).cqb
      capStamp := (captureTallies bits s).capStamp, capStampOld := (captureTallies bits s).capStampOld
      capAt := (captureTallies bits s).capAt } := by
  unfold captureTallies
  split_ifs <;> rfl

theorem captureTallies_ladderKept (bits : Bits) (s : State) : LadderKept s (captureTallies bits s) := by
  rw [captureTallies_eq]
  exact ⟨rfl, rfl, rfl, rfl, rfl, rfl, rfl, rfl, rfl, rfl⟩

theorem drawBits_ladderKept (s : State) : LadderKept s (drawBits s).2 := by
  unfold drawBits drawNat
  exact ⟨rfl, rfl, rfl, rfl, rfl, rfl, rfl, rfl, rfl, rfl⟩

theorem dpasStart_ladderKept (s : State) : LadderKept s (dpasStart s) := by
  unfold dpasStart
  extract_lets r taken day pol t c set c3 tmr u
  have hu : LadderKept taken u := ⟨rfl, rfl, rfl, rfl, rfl, rfl, rfl, rfl, rfl, rfl⟩
  exact (((drawBits_ladderKept s).trans (captureTallies_ladderKept _ _)).trans hu).trans (commitInternal_ladderKept _ _)

theorem dpasTimeout_ladderKept (s : State) : LadderKept s (dpasTimeout s) := by
  unfold dpasTimeout
  split_ifs
  · exact endPulse_ladderKept s
  · exact .refl s

theorem dpasEval_ladderKept (s : State) : LadderKept s (dpasEval s) := by
  unfold dpasEval
  extract_lets u t
  have ht : LadderKept u t := ⟨rfl, rfl, rfl, rfl, rfl, rfl, rfl, rfl, rfl, rfl⟩
  refine (dpasTimeout_ladderKept s).trans ?_
  split_ifs
  · exact ht.trans (dpasStart_ladderKept t)
  · exact ht
  · exact .refl _

/-! ## The ladder (R241, R242) -/

/-- An evaluation lowers the computed level by one at most. -/
theorem le_shedNext (s : State) (a : Option Nat) (valid : Bool) : s.pol.computed ≤ shedNext s a valid + 1 := by
  unfold shedNext
  dsimp only
  split_ifs <;> omega

/-- What a move of the ladder brings about: the lines take the higher of the computed level and the floor at the next SLOW edge,
and a change restarts the hold. -/
structure LadderMoved (s t : State) : Prop where
  floor : t.pol.floor = s.pol.floor
  pins  : t.pol.pins = max t.pol.computed t.pol.floor
  lines : s.pol.pins ≠ t.pol.pins → t.pol.pinsOld = shedPins s ∧ t.pol.pinsAt = (now s / 2000 + 1) * 2000
  hold  : t.pol.computed ≠ s.pol.computed → t.pol.holdAt = now s
  cmp   : t.tmr.cmp = s.tmr.cmp
  gauge : t.gauge = s.gauge
  sar   : t.sar = s.sar
  sec   : t.sec = s.sec

theorem LadderMoved.keep {s t u : State} (h : LadderMoved s t) (k : LadderKept t u) : LadderMoved s u where
  floor := k.floor.trans h.floor
  pins := by rw [k.pins, k.computed, k.floor, h.pins]
  lines := by rw [k.pins, k.pinsOld, k.pinsAt]; exact h.lines
  hold := by rw [k.computed, k.holdAt]; exact h.hold
  cmp := k.cmp.trans h.cmp
  gauge := k.gauge.trans h.gauge
  sar := k.sar.trans h.sar
  sec := k.sec.trans h.sec

theorem shedLines_moved (s : State) : LadderMoved s (shedLines s) := by
  rw [shedLines_eq]
  refine ⟨rfl, rfl, fun h => ?_, fun h => absurd rfl h, rfl, rfl, rfl, rfl⟩
  exact ⟨if_pos h, if_pos h⟩

theorem shedMove_moved (new : Nat) (s : State) : LadderMoved s (shedMove new s) := by
  unfold shedMove
  split_ifs
  · exact shedLines_moved s
  · have h := shedLines_moved { s with pol := { s.pol with computed := new, holdAt := now s } }
    have hh : (shedLines { s with pol := { s.pol with computed := new, holdAt := now s } }).pol.holdAt = now s := by
      rw [shedLines_eq]
    exact LadderMoved.keep ⟨h.floor, h.pins, h.lines, fun _ => hh, h.cmp, h.gauge, h.sar, h.sec⟩
      (commitInternal_ladderKept _ _)

theorem shedMove_computed (new : Nat) (s : State) : (shedMove new s).pol.computed = new := by
  unfold shedMove
  split_ifs with h
  · rw [shedLines_eq, h]
  · dsimp only
    rw [commitInternal_eq, shedLines_eq]

/-! ## An evaluation (R225, R235) -/

theorem almEval_spec (s : State) :
    LadderMoved s (almEval s) ∧ s.pol.computed ≤ (almEval s).pol.computed + 1 ∧
      ∃ a, (almEval s).alm.rcd = some a ∧ a.snap = s.gauge.snap.num ∧ a.stamp = s.gauge.snap.stamp ∧
        a.computed = (almEval s).pol.computed ∧ a.inForce = max (almEval s).pol.computed (almEval s).pol.floor := by
  unfold almEval
  extract_lets s1 p valid alm s2 basis s3 snap flags r
  have k := dpasEval_ladderKept (shedMove (shedNext s2 basis.1 basis.2.1) s2)
  have m : LadderMoved s2 s3 := (shedMove_moved _ s2).keep k
  have hc : s3.pol.computed = shedNext s2 basis.1 basis.2.1 := k.computed.trans (shedMove_computed _ s2)
  have hg : s3.gauge = s.gauge := m.gauge
  refine ⟨⟨m.floor, m.pins, m.lines, m.hold, m.cmp, m.gauge, m.sar, m.sec⟩, ?_, r, rfl, ?_, ?_, rfl, rfl⟩
  · exact (le_shedNext s2 _ _).trans (by rw [hc])
  · exact congrArg (fun g : Gauge => g.snap.num) hg
  · exact congrArg (fun g : Gauge => g.snap.stamp) hg

/-! ## The energy of a pulse (R247) -/

theorem endPulse_ends {s : State} (h : s.pol.dpas = true) :
    let t := endPulse s
    t.pol.dpas = false ∧ t.pol.dpasEnd = some (now s) ∧ t.pol.dpasDay = s.pol.dpasDay + s.pol.dpasE ∧
      t.tmr.cdn[(3 : Fin 4)].v = 0 := by
  intro t
  have ht : t = endPulse s := rfl
  rw [endPulse_eq, pulseOver, if_pos h] at ht
  rw [ht]
  exact ⟨rfl, rfl, rfl, congrArg Cdn.v (vset_fin_self s.tmr.cdn 3 _)⟩

theorem captureTallies_congr {s t : State} (ha : t.cqa = s.cqa) (hb : t.cqb = s.cqb) (hc : t.capAt = s.capAt)
    (hn : now t = now s) (bits : Bits) :
    (captureTallies bits t).cqa = (captureTallies bits s).cqa ∧ (captureTallies bits t).cqb = (captureTallies bits s).cqb := by
  have hg : capturing t = capturing s := by rw [capturing, capturing, hc, hn]
  by_cases h : capturing s = true
  · rw [captureTallies, captureTallies, hg, if_pos h, if_pos h]
    exact ⟨ha, hb⟩
  · rw [captureTallies, captureTallies, hg, if_neg h, if_neg h]
    simp only [addBitsTo, ha, hb, hn, and_self]

/-- The energy of a running pulse once the tallies have been captured, in mWh. -/
def pulseEnergy (bits : Bits) (s : State) : Rat :=
  s.pol.dpasE - cqGain s .b * (tallyDiff (captureTallies bits s).cqb.cap s.pol.dpasT : Rat) * countC s .b * (10 / 36)
    * latestVbb s / 1000

/-- A running pulse with its energy added up. -/
def pulseAdded (bits : Bits) (s : State) : State :=
  let c := captureTallies bits s
  { c with pol := { s.pol with dpasE := pulseEnergy bits s, dpasCap := now s, dpasT := c.cqb.cap } }

theorem dpasTimeout_eq (s : State) :
    dpasTimeout s = if s.pol.dpas && s.tmr.cdn[(3 : Fin 4)].zero then endPulse s else s := by
  rw [dpasTimeout, show vget s.tmr.cdn 3 Cdn.reset = s.tmr.cdn[(3 : Fin 4)] from vget_fin _ 3 _]

theorem energyAdd_timeout (bits : Bits) {s : State} (hd : s.pol.dpas = true) (hz : s.tmr.cdn[(3 : Fin 4)].zero = true) :
    energyAdd bits s = captureTallies bits (endPulse s) := by
  have ht : dpasTimeout s = endPulse s := by
    rw [dpasTimeout_eq, hd, hz]
    rfl
  have hoff : (captureTallies bits (endPulse s)).pol.dpas = false := by
    rw [captureTallies_eq]
    exact (endPulse_ends hd).1
  simp [energyAdd, ht, hoff]

theorem energyAdd_running (bits : Bits) {s : State} (hd : s.pol.dpas = true) (hz : s.tmr.cdn[(3 : Fin 4)].zero = false) :
    energyAdd bits s = if (prm s 0x0724 : Rat) ≤ pulseEnergy bits s then endPulse (pulseAdded bits s) else pulseAdded bits s := by
  have ht : dpasTimeout s = s := by
    rw [dpasTimeout_eq, hz, Bool.and_false]
    rfl
  have hon : (captureTallies bits s).pol.dpas = true := by
    rw [captureTallies_eq]
    exact hd
  unfold energyAdd pulseAdded pulseEnergy
  rw [ht]
  dsimp only
  rw [if_neg (by simp [hon]), captureTallies_eq]
  rfl

/-- What an addition of energy brings about whether the pulse ends or not: the tallies of the capture, and nothing of the gauge or
of the sequencer. -/
structure TalliesTaken (bits : Bits) (s t : State) : Prop where
  cqa   : t.cqa = (captureTallies bits s).cqa
  cqb   : t.cqb = (captureTallies bits s).cqb
  gauge : t.gauge = s.gauge
  quiet : Quiet s → Quiet t

theorem pulseAdded_taken (bits : Bits) (s : State) : TalliesTaken bits s (pulseAdded bits s) where
  cqa := rfl
  cqb := rfl
  gauge := (captureTallies_ladderKept bits s).gauge
  quiet := fun q => quiet_congr ((captureTallies_chargeKept bits s).quiet q) rfl rfl

theorem TalliesTaken.endPulse {bits : Bits} {s t : State} (h : TalliesTaken bits s t) :
    TalliesTaken bits s (endPulse t) where
  cqa := by rw [endPulse_eq]; exact h.cqa
  cqb := by rw [endPulse_eq]; exact h.cqb
  gauge := (endPulse_ladderKept t).gauge.trans h.gauge
  quiet := fun q => (endPulse_kept t).quiet (h.quiet q)

/-- The end of a pulse before its capture is no matter to the tallies. -/
theorem captureTallies_endPulse_taken (bits : Bits) (s : State) :
    TalliesTaken bits s (captureTallies bits (endPulse s)) := by
  have he := endPulse_eq s
  obtain ⟨ha, hb⟩ := captureTallies_congr (s := s) (t := endPulse s) (by rw [he]) (by rw [he]) (by rw [he])
    (by rw [he]; rfl) bits
  exact ⟨ha, hb, (captureTallies_ladderKept _ _).gauge.trans (endPulse_ladderKept s).gauge,
    fun q => (captureTallies_chargeKept _ _).quiet ((endPulse_kept s).quiet q)⟩

theorem energyAdd_taken (bits : Bits) {s : State} (hd : s.pol.dpas = true) : TalliesTaken bits s (energyAdd bits s) := by
  cases hz : s.tmr.cdn[(3 : Fin 4)].zero with
  | true =>
    rw [energyAdd_timeout bits hd hz]
    exact captureTallies_endPulse_taken bits s
  | false =>
    rw [energyAdd_running bits hd hz]
    split_ifs
    · exact (pulseAdded_taken bits s).endPulse
    · exact pulseAdded_taken bits s

/-! ## The commands (R225, R247) -/

theorem exec_almanacEvaluation (dt : Nat) (s : State) : exec (.almanacEvaluation dt) s = execAlmanacEvaluation dt s := by
  rfl

theorem exec_dpasEnergyCapture (bits : Bits) (s : State) :
    exec (.dpasEnergyCapture bits) s = execDpasEnergyCapture bits s := by rfl

theorem energyDue_pulse {s : State} (hd : s.pol.dpas = true) (hr : tmrRuns s = true) :
    energyDue s = some (s.pol.dpasCap + 819200) := by
  simp [energyDue, hd, hr, msTicks]

theorem dpasEnergyCapture_idle (bits : Bits) {s : State} (hd : s.pol.dpas = false) :
    execDpasEnergyCapture bits s = .next s := by
  simp [execDpasEnergyCapture, actAt, energyDue, hd]

/-- Settles O42: an evaluation is a move of the ladder that depassivation leaves alone, and the energy of a pulse is added to one
that still runs and has not reached its sum. -/
theorem evaluationsAndPulses : Obligations.EvaluationsAndPulses := by
  unfold Obligations.EvaluationsAndPulses
  intro s hl
  refine ⟨fun dt => ?_, fun bits hm hd hlode hhalt => ?_, fun bits hd => ?_⟩
  · intro r
    have hx : exec (.almanacEvaluation dt) s = .next (if evalDue r then settle (almEval (fwTake 5 r)) else r) := by
      rw [exec_almanacEvaluation, execAlmanacEvaluation, act_live hl]
    clear_value r
    refine ⟨fun h => hx.trans (by simp [h]), fun h hq => ?_⟩
    obtain ⟨m, hstep, a, hrcd, hsnap, hstamp, hcomputed, hforce⟩ := almEval_spec (fwTake 5 r)
    have k := almEval_chargeKept (fwTake 5 r)
    have hquiet : Quiet (almEval (fwTake 5 r)) := k.quiet (quiet_congr hq rfl rfl)
    have hfired : (almEval (fwTake 5 r)).tmr.cmp[(5 : Fin 8)].fired = false := by
      rw [m.cmp]
      exact fwTake_fired 5 r
    rw [if_pos h, settle_quiet hquiet, alarmTrack_eq] at hx
    exact ⟨_, a, hx, hrcd, hsnap, hstamp, hcomputed, hforce, m.pins, m.lines, m.floor, hstep, m.hold, hfired, k.base,
      m.gauge, m.sar, m.sec⟩
  · intro w c mAh e ends hq
    have hdw : w.pol.dpas = true := by rw [(elapseTo_passed hm).pol, hd]
    have hdue := energyDue_pulse hd (tmrRuns_iff.2 ⟨hlode, hhalt⟩)
    have k := energyAdd_taken bits hdw
    have hx : exec (.dpasEnergyCapture bits) s = .next (settle (energyAdd bits w)) := by
      rw [exec_dpasEnergyCapture, execDpasEnergyCapture, actAt_due hl hdue]
    rw [settle_quiet (k.quiet hq), alarmTrack_eq] at hx
    refine ⟨_, hx, k.cqa, k.cqb, k.gauge, fun hz => ?_, fun hz he => ?_, fun hz he => ?_⟩
    · rw [energyAdd_timeout bits hdw hz, captureTallies_eq]
      exact endPulse_ends hdw
    · rw [energyAdd_running bits hdw hz, if_pos (by exact he)]
      have hon : (pulseAdded bits w).pol.dpas = true := hdw
      have hnow : now (pulseAdded bits w) = now w := (captureTallies_chargeKept bits w).base
      have h := endPulse_ends hon
      rw [hnow] at h
      exact h
    · rw [energyAdd_running bits hdw hz, if_neg (by exact not_le.2 he)]
      refine ⟨hdw, rfl, rfl, rfl, ?_⟩
      unfold pulseAdded
      rw [captureTallies_eq]
  · exact (exec_dpasEnergyCapture bits s).trans (dpasEnergyCapture_idle bits hd)

end Sys2Proof.Machine

/-! SUPPORT. The events of the Almanac: a half-hour boundary, the end of the UTC day, and what goes stale
(10_almanac_policy.md R225, R227 to R232, R236, R246, R249). -/

namespace Sys2Proof.Machine

/-! ## Seeds (R249) -/

/-- One seed of a bin parameter takes effect. -/
def binSeeded (s : State) (p : Nat × List Byte) : State :=
  if p.1 < 0x0670 then
    { s with alm := { s.alm with load := vset s.alm.load (p.1 - 0x0640) (some ((signed 32 (leNat p.2) : Int) : Rat)) } }
  else { s with alm := { s.alm with harv := vset s.alm.harv (p.1 - 0x0670) (some (leNat p.2 : Rat)) } }

theorem applySeeds_foldl (s : State) :
    applySeeds s = { s.alm.seeds.foldl binSeeded s with
      alm := { (s.alm.seeds.foldl binSeeded s).alm with seeds := [] } } := rfl

theorem binSeeded_eq (s : State) (p : Nat × List Byte) :
    binSeeded s p = { s with alm := { s.alm with load := (binSeeded s p).alm.load, harv := (binSeeded s p).alm.harv } } := by
  unfold binSeeded
  split_ifs <;> rfl

theorem foldl_binSeeded_eq (l : List (Nat × List Byte)) (s : State) :
    l.foldl binSeeded s = { s with alm := { s.alm with
      load := (l.foldl binSeeded s).alm.load, harv := (l.foldl binSeeded s).alm.harv } } := by
  induction l generalizing s with
  | nil => rfl
  | cons p l ih => rw [List.foldl_cons, ih, binSeeded_eq]

/-- The seeds of bin parameters change bins alone. -/
theorem applySeeds_eq (s : State) :
    applySeeds s = { s with alm := { s.alm with
      load := (applySeeds s).alm.load, harv := (applySeeds s).alm.harv, seeds := [] } } := by
  rw [applySeeds_foldl, foldl_binSeeded_eq]

theorem applySeeds_none {s : State} (h : s.alm.seeds = []) : applySeeds s = { s with alm := { s.alm with seeds := [] } } := by
  simp [applySeeds, h]

/-! ## The bin that ended (R227, R228) -/

/-- What learning a bin changes: its load and its harvest, the day it was last learned and the day's harvest; an observation that
is discarded is logged. -/
structure BinLearned (b : Nat) (s t : State) : Prop where
  rest : t = { s with
    alm := { s.alm with
      load := t.alm.load, harv := t.alm.harv, learnedOn := t.alm.learnedOn, today := t.alm.today }
    tamp := t.tamp }
  other : ∀ i : Fin 48, i.val ≠ b → t.alm.load[i] = s.alm.load[i] ∧ t.alm.harv[i] = s.alm.harv[i]

theorem BinLearned.refl (b : Nat) (s : State) : BinLearned b s s := ⟨rfl, fun _ _ => ⟨rfl, rfl⟩⟩

theorem learnBin_learned (s : State) (c0 : Rat) : BinLearned (s.alm.binIdx % 48) s (learnBin s c0) := by
  unfold learnBin
  extract_lets b day n w sc u0 dc h l dark note obs
  split_ifs
  · exact .refl b s
  · rw [logEvent_eq]
    exact ⟨rfl, fun _ _ => ⟨rfl, rfl⟩⟩
  · refine ⟨rfl, fun i hi => ⟨?_, ?_⟩⟩
    · exact (getElem_vset _ _ _ i).trans (if_neg hi)
    · exact (getElem_vset _ _ _ i).trans (if_neg hi)
  · exact ⟨rfl, fun i hi => ⟨rfl, (getElem_vset _ _ _ i).trans (if_neg hi)⟩⟩

/-- The bin that ended qualifies: it ran for its whole length, and every step of it was clean. -/
abbrev binQualifies (s : State) : Prop :=
  s.tmr.rtcSec / 1800 = s.alm.binIdx + 1 ∧ s.alm.binOk = true ∧ s.tmr.rtcValid = true

/-- The part once the bin that ended has been learned, where it qualified. -/
def binEnded (s : State) : State :=
  match s.alm.binStart with
  | some c0 => if binQualifies s then learnBin s c0 else s
  | none => s

theorem binEnded_learned (s : State) : BinLearned (s.alm.binIdx % 48) s (binEnded s) := by
  unfold binEnded
  split
  · split_ifs
    · exact learnBin_learned s _
    · exact .refl _ s
  · exact .refl _ s

theorem binEnded_stays {s : State} (h : ¬binQualifies s) : binEnded s = s := by
  unfold binEnded
  split
  · exact if_neg h
  · rfl

/-! ## A half-hour boundary (R225, R227) -/

/-- What a half-hour boundary of the part in state `s` leaves. -/
structure BinBegun (s t : State) : Prop where
  rest   : t = { s with alm := t.alm, tamp := t.tamp }
  binIdx : t.alm.binIdx = s.tmr.rtcSec / 1800
  binAt  : t.alm.binAt = now s
  binOk  : t.alm.binOk = true
  binChg : t.alm.binChg = false
  seeds  : t.alm.seeds = []
  dayIdx : t.alm.dayIdx = s.alm.dayIdx
  bins   : s.alm.seeds = [] → ∀ i : Fin 48, i.val ≠ s.alm.binIdx % 48 ∨ ¬binQualifies s →
    t.alm.load[i] = s.alm.load[i] ∧ t.alm.harv[i] = s.alm.harv[i]

theorem halfHour_eq (s : State) :
    let u := applySeeds (binEnded s)
    halfHour s = { u with alm := { u.alm with
      binStart := if u.tmr.rtcValid && u.gauge.stepped then some (packC u) else none
      binIdx := s.tmr.rtcSec / 1800, binAt := now u, binOk := true, binChg := false, seaSince := now u, seaSum := 0 } } := by
  unfold halfHour binEnded
  rfl

theorem halfHour_begun (s : State) : BinBegun s (halfHour s) := by
  have hl := binEnded_learned s
  have hs := applySeeds_eq (binEnded s)
  rw [halfHour_eq]
  refine ⟨?_, rfl, ?_, rfl, rfl, ?_, ?_, fun hn i hi => ?_⟩
  · rw [hs, hl.rest]
  · rw [hs, hl.rest]
    rfl
  · rw [hs]
  · rw [hs, hl.rest]
  · have hkept : (binEnded s).alm.load[i] = s.alm.load[i] ∧ (binEnded s).alm.harv[i] = s.alm.harv[i] := by
      rcases hi with hi | hi
      · exact hl.other i hi
      · rw [binEnded_stays hi]
        exact ⟨rfl, rfl⟩
    rw [applySeeds_none (by rw [hl.rest]; exact hn)]
    exact hkept

theorem halfHourNow_early {s : State} (h : halfHourDue s = false) : halfHourNow s = s := by simp [halfHourNow, h]

/-- A boundary that is due begins a bin, in Cast with the learning of the one that ended. -/
theorem halfHourNow_begun {s : State} (h : halfHourDue s = true) : BinBegun s (halfHourNow s) := by
  unfold halfHourNow
  rw [if_neg (by simp [h])]
  split_ifs
  · exact halfHour_begun s
  · have k := halfHour_begun { s with alm := { s.alm with binStart := none } }
    exact ⟨k.rest, k.binIdx, k.binAt, k.binOk, k.binChg, k.seeds, k.dayIdx, k.bins⟩

/-! ## The end of the day (R232, R236, R246) -/

/-- What the day's last bin leaves: all but the Almanac and the tamper block, and the day that runs. -/
structure DayStands (s t : State) : Prop where
  rest   : t = { s with alm := t.alm, tamp := t.tamp }
  dayIdx : t.alm.dayIdx = s.alm.dayIdx

theorem halfHourNow_dayStands (s : State) : DayStands s (halfHourNow s) := by
  cases h : halfHourDue s with
  | false =>
    rw [halfHourNow_early h]
    exact ⟨rfl, rfl⟩
  | true => exact ⟨(halfHourNow_begun h).rest, (halfHourNow_begun h).dayIdx⟩

theorem dayRoll_eq {s : State} (h : s.tmr.rtcSec / 86400 ≠ s.alm.dayIdx) :
    dayRoll s = { s with
      alm := { s.alm with
        daily := (List.replicate (s.tmr.rtcSec / 86400 - s.alm.dayIdx - 1) none ++ (s.alm.today :: s.alm.daily)).take 14
        today := none, dayIdx := s.tmr.rtcSec / 86400 }
      pol := { s.pol with dpasN := 0, dpasDay := 0 } } := by
  rw [dayRoll]
  exact if_neg h

theorem dayDue_passed {s : State} (h : dayDue s = true) : s.tmr.rtcSec / 86400 ≠ s.alm.dayIdx := by
  simp only [dayDue, Bool.and_eq_true, bne_iff_ne] at h
  exact h.2

/-- What the roll of a passed day leaves of the part. -/
structure DayRolled (s t : State) : Prop where
  rest    : t = { s with alm := t.alm, pol := t.pol, tamp := t.tamp }
  dayIdx  : t.alm.dayIdx = s.tmr.rtcSec / 86400
  today   : t.alm.today = none
  length  : t.alm.daily.length ≤ 14
  dpasN   : t.pol.dpasN = 0
  dpasDay : t.pol.dpasDay = 0
  daily   : halfHourDue s = false → s.tmr.rtcSec / 86400 = s.alm.dayIdx + 1 →
    t.alm.daily = (s.alm.today :: s.alm.daily).take 14

/-- The day's last bin ends, and the day is summed up. -/
theorem dayRoll_rolled {s : State} (h : dayDue s = true) : DayRolled s (dayRoll (halfHourNow s)) := by
  have k := halfHourNow_dayStands s
  have hsec : (halfHourNow s).tmr = s.tmr := by rw [k.rest]
  have hd : (halfHourNow s).tmr.rtcSec / 86400 ≠ (halfHourNow s).alm.dayIdx := by
    rw [hsec, k.dayIdx]
    exact dayDue_passed h
  rw [dayRoll_eq hd]
  refine ⟨?_, by rw [hsec], rfl, List.length_take_le _ _, rfl, rfl, fun hh hday => ?_⟩
  · rw [k.rest]
  · rw [halfHourNow_early hh]
    simp [hday]

theorem dayNow_early {s : State} (h : dayDue s = false) : dayNow s = s := by simp [dayNow, h]

/-- With nothing in flight and room in the queue, the Almanac's records join it. -/
theorem dayNow_room {s : State} (h : dayDue s = true) (hq : Quiet s) (hn : s.nv.queue.length < 8) :
    let t := dayRoll (halfHourNow s)
    dayNow s = alarmTrack { t with nv := { s.nv with queue := s.nv.queue ++ [internalTxn (almRecs t) s] } } := by
  intro t
  have ht : t = { s with alm := t.alm, pol := t.pol, tamp := t.tamp } := (dayRoll_rolled h).rest
  have hc : commitInternal (almRecs t) t =
      { t with nv := { s.nv with queue := s.nv.queue ++ [internalTxn (almRecs t) s] } } := by
    rw [commitInternal_room (by simp [almRecs]) (by rw [ht]; exact hn), ht]
    rfl
  have hquiet : Quiet (commitInternal (almRecs t) t) := by
    rw [hc, ht]
    exact quiet_congr hq rfl rfl
  rw [dayNow, if_pos h, ← hc]
  exact settle_quiet hquiet

/-! ## The commands (R227, R230, R231, R236) -/

theorem exec_halfHourLearning (dt : Nat) (s : State) : exec (.halfHourLearning dt) s = execHalfHourLearning dt s := by rfl

theorem exec_dailyCommit (dt : Nat) (s : State) : exec (.dailyCommit dt) s = execDailyCommit dt s := by rfl

theorem exec_dutyStale (s : State) : exec .dutyStale s = execDutyStale s := by rfl

theorem exec_seaStale (s : State) : exec .seaStale s = execSeaStale s := by rfl

theorem execHalfHourLearning_eq {dt : Nat} {s : State} (hl : live s = true) :
    execHalfHourLearning dt s = .next (halfHourNow (elapse dt s)) := act_live hl

theorem execDailyCommit_eq {dt : Nat} {s : State} (hl : live s = true) :
    execDailyCommit dt s = .next (dayNow (elapse dt s)) := act_live hl

theorem dutyDue_pour {s : State} (hp : 2 ≤ s.start.stage.code) (hd : s.alm.dutyStale = false) (ha : prm s 0x060D ≠ 0) :
    dutyDue s = some (s.alm.dutyAt + 86400 * prm s 0x060D * 8192000) := by
  simp [dutyDue, atLeast_pour.2 hp, hd, ha, secTicks]

theorem seaDue_pour {s : State} (hp : 2 ≤ s.start.stage.code) (hd : s.alm.seaStale = false) :
    seaDue s = some (s.alm.seaAt + 60 * prm s 0x060B * 8192000) := by
  simp [seaDue, atLeast_pour.2 hp, hd, secTicks]

theorem dutyStale_never {s : State} (h : s.alm.dutyStale = true ∨ prm s 0x060D = 0) : execDutyStale s = .next s := by
  rcases h with h | h
  · simp [execDutyStale, actAt, dutyDue, h]
  · simp [execDutyStale, actAt, dutyDue, h]

theorem seaStale_never {s : State} (h : s.alm.seaStale = true) : execSeaStale s = .next s := by
  simp [execSeaStale, actAt, seaDue, h]

theorem dutyDrop_eq (s : State) :
    dutyDrop s = disarmFw 6 { s with alm := { s.alm with duties := [], dutyStale := true } } := armLead_noDuties rfl

/-- Settles O43: a boundary changes the bin that ended where it qualified, the day rolls on over that boundary, and the dropped
table disarms compare channel 6. -/
theorem almanacEventsAct : Obligations.AlmanacEventsAct := by
  unfold Obligations.AlmanacEventsAct
  intro dt s hl
  refine ⟨?_, fun _ hp => ⟨fun hd ha => ?_, fun hd => ?_⟩, fun h => ?_, fun h => ?_⟩
  · intro r half day
    have hh : exec (.halfHourLearning dt) s = .next (halfHourNow r) := execHalfHourLearning_eq hl
    have hx : exec (.dailyCommit dt) s = .next (dayNow r) := execDailyCommit_eq hl
    clear_value r
    refine ⟨fun h => hh.trans (by rw [halfHourNow_early h]), fun h => ?_, fun h => hx.trans (by rw [dayNow_early h]),
      fun h hq hb hn => ?_⟩
    · have k := halfHourNow_begun h
      refine ⟨_, hh, k.binIdx, k.binAt, k.binOk, k.binChg, k.seeds, fun hs i hi => k.bins hs i ?_, k.rest⟩
      rcases hi with hi | hi | hi | hi
      · exact .inl hi
      · exact .inr fun q => absurd q.2.1 (by simp [hi])
      · exact .inr fun q => absurd q.2.2 (by simp [hi])
      · exact .inr fun q => hi q.1
    · have k := dayRoll_rolled h
      rw [dayNow_room h hq hn, alarmTrack_eq, internalTxn, hb] at hx
      have hkept := k.rest
      exact ⟨_, hx, k.dayIdx, k.today, k.dpasN, k.dpasDay, k.length, k.daily, rfl, by rw [hkept], by rw [hkept],
        by rw [hkept]⟩
  · intro w
    have hx : exec .dutyStale s = .next (dutyDrop w) := by
      rw [exec_dutyStale, execDutyStale, actAt_due hl (dutyDue_pour hp hd ha)]
    have k := disarmFw_channelOnly 6 { w with alm := { w.alm with duties := [], dutyStale := true } }
    rw [dutyDrop_eq] at hx
    exact ⟨_, hx, rfl, disarmFw_mode 6 _, k.rest, k.other⟩
  · intro w
    have hx : exec .seaStale s = .next (seaSet (prm w 0x060A) true w) := by
      rw [exec_seaStale, execSeaStale, actAt_due hl (seaDue_pour hp hd)]
    exact ⟨_, hx, rfl, rfl, rfl, rfl⟩
  · exact (exec_dutyStale s).trans (dutyStale_never h)
  · exact (exec_seaStale s).trans (seaStale_never h)

end Sys2Proof.Machine
